-- ==== Sys2Proof/Word.lean ====
section
/-! DEFINITION. The word types of the YG4808: a register is 32 bits wide (00_scope, Register names), a byte 8 bits. -/

namespace Sys2Proof

/-- A 32-bit register word. -/
abbrev Word := BitVec 32

/-- A byte. -/
abbrev Byte := BitVec 8

end Sys2Proof
end

