-- ==== Sys2Proof/Syntax.lean ====
section
/-! DEFINITION. The commands and events of spec/opcode_table.json, one constructor per row, with the operands each one
carries. A Glaeve command carries its header (R510) and its payload words; a command that is a WRITE or a READ of one
register with a row of its own carries the header, the register's index letters and, for a WRITE, the word written; an
event carries what the outside supplies when it happens. -/

namespace Sys2Proof

/-- A field port n, 0 to 47. -/
abbrev PortNo := Fin 48
/-- A field tile t, 0 to 5. -/
abbrev TileNo := Fin 6
/-- A context k, 0 to 511. -/
abbrev CtxNo := Fin 512
/-- A queue q, 0 to 127. -/
abbrev QNo := Fin 128
/-- A partner port P0 to P3. -/
abbrev Partner := Fin 4
/-- An Ethernet port, P0 or P1. -/
abbrev EthNo := Fin 2
/-- A serial host port: 0 is P2, 1 is P3. -/
abbrev ShpNo := Fin 2
/-- A transaction slot of a port, 0 to 7. -/
abbrev SlotNo := Fin 8
/-- A filter slot s of a tile, 0 to 15. -/
abbrev FSlot := Fin 16
/-- A timer channel c of a tile, 0 to 7. -/
abbrev TmCh := Fin 8
/-- A Clasp lane: 0 is A, 1 is B. -/
abbrev Lane := Fin 2
/-- A class-2 pulse channel i, 0 to 4. -/
abbrev PulseNo := Fin 5

/-- The two sides of the device (R24). -/
inductive Side where
  | host
  | field
  deriving DecidableEq, Repr

/-- The line a data-ready edge came on (R108): DI or a select line. -/
inductive DrLine where
  | di
  | ss (i : Fin 3)
  deriving DecidableEq, Repr

/-- A data-ready line goes to its active level, or leaves it (R108). -/
structure LineChange where
  line : DrLine
  active : Bool
  deriving DecidableEq, Repr

/-- The slot whose transaction completes, and how many of its STORE fields fail CK-A at the record builder, where no filter slot takes
them (R43). -/
structure SlotEnd where
  slot : SlotNo
  cka : Nat := 0
  deriving DecidableEq, Repr

/-- Whether an SCK edge arrives in the cycle in which the clock-loss interval ends (R136), and the SCK periods measured since the last row
that named any (R99). -/
structure ClkLoss where
  sameCycle : Bool
  periods : List Nat := []
  deriving DecidableEq, Repr

/-- A port, and the SCK periods measured before the 16 good ones of R97 and since the last row that named any (R99). -/
structure PortPeriods where
  port : PortNo
  periods : List Nat := []
  deriving DecidableEq, Repr

/-- The port whose window WRITE meets its limit, and the status byte of a status read that ends in the same cycle (R37, R176). -/
structure WriteLimit where
  port : PortNo
  sameCycle : Option Byte := none
  deriving DecidableEq, Repr

/-- What the reads of a SECDED-protected memory that a command or event makes find wrong (R49, R51, R503): single-bit errors corrected,
and the positions, among the records it delivers, of those that a double-bit error strikes and of those whose record CRC fails. -/
structure MemErr where
  sbe : Nat := 0
  dbe : List Nat := []
  crc : List Nat := []
  deriving DecidableEq, Repr

/-- A queue, and what the reads of its memory meet (R503). -/
structure QueueRead where
  queue : QNo
  mem : MemErr := {}
  deriving DecidableEq, Repr

/-- What the checks of a filter slot find as it completes an output: input units that fail CK-A (R265, R266), single-bit errors of
the delay line corrected and whether a double-bit error strikes it (R267), and whether the output's CK-F fails at the record builder
(R43, R269). -/
structure FiltErr where
  cka : Nat := 0
  sbe : Nat := 0
  dbe : Bool := false
  ckf : Bool := false
  deriving DecidableEq, Repr

/-- The header of a Glaeve request (R510), with its Signet and CRC as received. LEN is the payload's length. -/
structure Hdr where
  port : Partner
  flags : BitVec 8
  tag : BitVec 16
  resv : BitVec 16
  ctr : BitVec 64
  signet : BitVec 128
  crc : Word
  /-- On P0 and P1: the request's source address (R517) and its message number (R552). -/
  src : BitVec 48
  msg : BitVec 16
  /-- Whether the NV write of a counter bound that the command needs fails (R524). -/
  nvFails : Bool
  /-- What the command's reads of queue memory meet (R503). -/
  mem : MemErr := {}
  deriving DecidableEq, Repr

/-- A stamp of device time as a message or an edge carries it: seconds, nanoseconds and a 16-bit fraction (R296). -/
structure Stamp where
  sec : Nat
  ns : Nat
  frac : Nat
  deriving DecidableEq, Repr

/-- The watchdogs of R663. -/
inductive Dog where
  | hb
  | fh
  | tile (t : TileNo)
  deriving DecidableEq, Repr

/-- The supply rails whose monitors are reset sources (R618, R776). -/
inductive Rail where
  | core
  | aux
  deriving DecidableEq, Repr

/-- The resource a wake step waits for (R694). -/
inductive WakeStep where
  | regulator
  | oscillator
  deriving DecidableEq, Repr

/-- The classes of host wake request (R687, R690). -/
inductive WakeClass where
  | sieve
  | queue
  | energy (p : EthNo)
  | other
  deriving DecidableEq, Repr

/-- The Clasp frame classes of R594. -/
inductive ClaspClass where
  | record
  | cmd
  | resp
  | time
  | heart
  | pwrrst
  deriving DecidableEq, Repr

/-- The Clasp traffic a frame carries, as far as R594 and R595 name it. -/
structure ClaspFrame where
  cls : ClaspClass
  /-- The direction: true from HB to FH. -/
  toField : Bool
  /-- The sequence number in its direction (R584). -/
  seq : Nat
  /-- Whether CK-L holds over the frame as received (R592). -/
  ckl : Bool
  /-- Whether the sender's buffered copy has a double-bit error (R593). -/
  bufDbe : Bool
  /-- The Glaeve opcode of a CMD or RESP frame. -/
  opcode : Nat
  /-- The ADDR field of a CMD frame. -/
  addr : Nat
  /-- The words a CMD READ or WRITE covers. -/
  words : Nat
  /-- Payload word 0 of a CMD frame; the item header of a committed Graft item (R719). -/
  body : Word
  /-- The partner port and the tag of the command that a CMD or RESP frame, or a RECORD frame's delivery, belongs to. -/
  port : Partner
  tag : BitVec 16
  /-- The records a RECORD frame carries. -/
  records : Nat
  /-- The bytes of the frame. -/
  bytes : Nat
  /-- The acknowledgement a heartbeat carries, if any (R587): every earlier sequence number of the other direction. -/
  ack : Option Nat
  /-- The lane a heartbeat reports down, if any (R589). -/
  down : Option Lane
  deriving DecidableEq, Repr

/-- A PTP message of R340, as far as the engine's rules use it. -/
structure PtpMsg where
  /-- The messageType: 0 Sync, 1 Delay_Req, 2 Pdelay_Req, 3 Pdelay_Resp, 8 Follow_Up, 9 Delay_Resp,
  10 Pdelay_Resp_Follow_Up, 11 Announce, 12 Signaling, 13 Management. -/
  kind : Nat
  version : Nat
  minor : Nat
  domain : Nat
  twoStep : Bool
  /-- sourcePortIdentity: clockIdentity and port number. -/
  srcId : Nat
  srcPort : Nat
  seqId : Nat
  /-- correctionField in 2^-16 ns. -/
  corr : Int
  /-- originTimestamp, receiveTimestamp or requestReceiptTimestamp in ns. -/
  origin : Nat
  /-- requestingPortIdentity of a response. -/
  reqId : Nat
  /-- The receive stamp at the balls, in 2^-16 ns of device time. -/
  rx : Nat
  /-- Announce: priority1, clockClass, clockAccuracy, variance, priority2, grandmasterIdentity, stepsRemoved. -/
  prio1 : Nat
  cls : Nat
  acc : Nat
  var : Nat
  prio2 : Nat
  gmId : Nat
  steps : Nat
  /-- Announce: currentUtcOffset and its valid flag. -/
  utcOff : BitVec 16
  utcValid : Bool
  deriving DecidableEq, Repr

/-- An Ethernet frame as it reaches a port (R548 to R559). -/
structure EthFrame where
  fcsOk : Bool
  dst : BitVec 48
  src : BitVec 48
  /-- The 802.1Q tag's VID, if the frame is tagged. -/
  vid : Option (BitVec 12)
  etype : BitVec 16
  /-- The bytes after the EtherType. -/
  body : List Byte
  /-- The quanta, where the frame is a PAUSE frame. -/
  pause : Option Nat
  deriving DecidableEq, Repr

/-- A command or event of the YG4808: one constructor per row of spec/opcode_table.json. -/
inductive Instr where
  /-- R536. -/ | read (h : Hdr) (addr : Word) (payload : List Word)
  /-- R537. -/ | write (h : Hdr) (addr : Word) (payload : List Word)
  /-- R161. -/ | windowRead (h : Hdr) (addr : Word) (payload : List Word)
  /-- R175. -/ | windowWrite (h : Hdr) (addr : Word) (payload : List Word)
  /-- R540. -/ | pop (h : Hdr) (addr : Word) (payload : List Word)
  /-- R541. -/ | peek (h : Hdr) (addr : Word) (payload : List Word)
  /-- R542. -/ | ack (h : Hdr) (addr : Word) (payload : List Word)
  /-- R544; `hi` is bits [31:4] of payload word 0. -/ | subscribeAdd (h : Hdr) (addr : Word) (hi : BitVec 28) (rest : List Word)
  /-- R544. -/ | subscribeRemove (h : Hdr) (addr : Word) (hi : BitVec 28) (rest : List Word)
  /-- R544. -/ | rewind (h : Hdr) (addr : Word) (hi : BitVec 28) (rest : List Word)
  /-- R544. -/ | streamon (h : Hdr) (addr : Word) (hi : BitVec 28) (rest : List Word)
  /-- R544. -/ | streamoff (h : Hdr) (addr : Word) (hi : BitVec 28) (rest : List Word)
  /-- R197. -/ | ctxAdd (h : Hdr) (addr : Word) (hi : BitVec 28) (rest : List Word)
  /-- R204. -/ | ctxChange (h : Hdr) (addr : Word) (hi : BitVec 28) (rest : List Word)
  /-- R205. -/ | ctxRemove (h : Hdr) (addr : Word) (hi : BitVec 28) (rest : List Word)
  /-- R203. -/ | ctxStart (h : Hdr) (addr : Word) (hi : BitVec 28) (rest : List Word)
  /-- R203. -/ | ctxStop (h : Hdr) (addr : Word) (hi : BitVec 28) (rest : List Word)
  /-- R713. -/ | graftBegin (h : Hdr) (addr : Word) (hi : BitVec 28) (rest : List Word)
  /-- R721. -/ | graftStage (h : Hdr) (addr : Word) (hi : BitVec 28) (rest : List Word)
  /-- R723. -/ | graftCommit (h : Hdr) (addr : Word) (hi : BitVec 28) (rest : List Word)
  /-- R739. -/ | graftAbort (h : Hdr) (addr : Word) (hi : BitVec 28) (rest : List Word)
  /-- R731. -/ | graftFlash (h : Hdr) (addr : Word) (hi : BitVec 28) (rest : List Word)
  /-- R733: the core checkpoint after the copy; whether the copy matches the digest of pass 1. -/
  | firmwareHandover (copyOk : Bool)
  /-- R726: the i-th waiting item's boundary comes. -/ | pendingItem (i : Nat)
  /-- R716: TMO ms have passed; whether a COMMIT reaches the arbiter in the same cycle. -/ | graftTmo (withCommit : Bool)
  /-- R676. -/ | power (h : Hdr) (addr : Word) (payload : List Word)
  /-- R636. -/ | reset (h : Hdr) (addr : Word) (payload : List Word)
  /-- R637: 20 µs have passed since the response left. -/ | resetCommandAssert
  /-- R329. -/ | timeSet (h : Hdr) (addr : Word) (hi : BitVec 28) (rest : List Word)
  /-- R329. -/ | timeStep (h : Hdr) (addr : Word) (hi : BitVec 28) (rest : List Word)
  /-- R329. -/ | timeOffset (h : Hdr) (addr : Word) (hi : BitVec 28) (rest : List Word)
  /-- R329. -/ | timeFreq (h : Hdr) (addr : Word) (hi : BitVec 28) (rest : List Word)
  /-- R329. -/ | timeAccept (h : Hdr) (addr : Word) (hi : BitVec 28) (rest : List Word)
  /-- R529. -/ | keyLoad (h : Hdr) (addr : Word) (hi : BitVec 28) (rest : List Word)
  /-- R528. -/ | keyErase (h : Hdr) (addr : Word) (hi : BitVec 28) (rest : List Word)
  /-- R530. -/ | loadClear (h : Hdr) (addr : Word) (hi : BitVec 28) (rest : List Word)
  /-- R547. -/ | status (h : Hdr) (addr : Word) (payload : List Word)
  /-- R519: the i-th waiting response of Ethernet port e leaves. -/ | responseSend (e : EthNo) (i : Nat)
  /-- R33, R520: 250 µs have passed since a register READ of port p with this tag reached the arbiter; whether the
  value arrives in the same cycle. -/
  | registerReadTimeout (p : Partner) (tag : BitVec 16) (sameCycle : Bool)
  /-- R75. -/ | portEnable (h : Hdr) (n : PortNo) (v : Word)
  /-- R79. -/ | portDisable (h : Hdr) (n : PortNo) (v : Word)
  /-- R160. -/ | fpCntclr (h : Hdr) (n : PortNo) (v : Word)
  /-- R188. -/ | cwCntclr (h : Hdr) (n : PortNo) (v : Word)
  /-- R185. -/ | cwAccept (h : Hdr) (n : PortNo) (v : Word)
  /-- R62. -/ | glbCkclr (h : Hdr) (v : Word)
  /-- R242. -/ | sqClr (h : Hdr) (n : PortNo) (v : Word)
  /-- R243. -/ | fhCtxclr (h : Hdr) (v : Word)
  /-- R292. -/ | fltCntclr (h : Hdr) (t : TileNo) (v : Word)
  /-- R293. -/ | fltSlotClr (h : Hdr) (t : TileNo) (f : FSlot) (v : Word)
  /-- R295. -/ | fltSlotWrite (h : Hdr) (t : TileNo) (f : FSlot) (v : Word)
  /-- R285. -/ | swap (h : Hdr) (t : TileNo) (v : Word)
  /-- R377. -/ | tmSnap (h : Hdr) (t : TileNo) (v : Word)
  /-- R407. -/ | tmClr (h : Hdr) (t : TileNo) (v : Word)
  /-- R386. -/ | cmpWrite (h : Hdr) (t : TileNo) (c : TmCh) (v : Word)
  /-- R396. -/ | timerEnable (h : Hdr) (t : TileNo) (c : TmCh) (v : Word)
  /-- R395. -/ | timerDisable (h : Hdr) (t : TileNo) (c : TmCh) (v : Word)
  /-- R364. -/ | tbClr (h : Hdr) (v : Word)
  /-- R365. -/ | tbPtpClr (h : Hdr) (v : Word)
  /-- R366. -/ | tbPlsClr (h : Hdr) (i : PulseNo) (v : Word)
  /-- R316. -/ | servoEnable (h : Hdr) (v : Word)
  /-- R338. -/ | retryh (h : Hdr) (v : Word)
  /-- R338. -/ | retryf (h : Hdr) (v : Word)
  /-- R352. -/ | pulseEnable (h : Hdr) (i : PulseNo) (v : Word)
  /-- R358. -/ | pulseDisable (h : Hdr) (i : PulseNo) (v : Word)
  /-- R454. -/ | svClr (h : Hdr) (v : Word)
  /-- R450. -/ | sentinelEnable (h : Hdr) (i : Fin 8) (v : Word)
  /-- R505. -/ | trClr (h : Hdr) (v : Word)
  /-- R506. -/ | qClr (h : Hdr) (q : QNo) (v : Word)
  /-- R460. -/ | queueEnable (h : Hdr) (q : QNo) (v : Word)
  /-- R572. -/ | ppCntclr (h : Hdr) (p : Partner) (v : Word)
  /-- R573. -/ | ppEthClr (h : Hdr) (e : EthNo) (v : Word)
  /-- R533. -/ | keySlotWrite (h : Hdr) (p : Partner) (v : Word)
  /-- R574. -/ | mdioCmd (h : Hdr) (v : Word)
  /-- R574: the frame ends with this value read. -/ | mdioFrameEnd (data : BitVec 16)
  /-- R608. -/ | clClr (h : Hdr) (v : Word)
  /-- R609. -/ | clLaneClr (h : Hdr) (x : Lane) (v : Word)
  /-- R582. -/ | laneEnable (h : Hdr) (x : Lane) (v : Word)
  /-- R605. -/ | laneDisable (h : Hdr) (x : Lane) (v : Word)
  /-- R605: every frame of the lane is acknowledged, or 10 µs have passed. -/ | drainEnd (x : Lane)
  /-- R666. -/ | rstClr (h : Hdr) (v : Word)
  /-- R711. -/ | pwrClr (h : Hdr) (v : Word)
  /-- R690. -/ | pwrHwclr (h : Hdr) (v : Word)
  /-- R698. -/ | pwrPadrel (h : Hdr) (v : Word)
  /-- R702. -/ | aocRetry (h : Hdr) (v : Word)
  /-- R741. -/ | glbGrfClr (h : Hdr) (v : Word)
  /-- R656. -/ | loadBegin (h : Hdr) (v : Word)
  /-- R656. -/ | loadChunk (h : Hdr) (v : Word)
  /-- R656. -/ | loadEnd (h : Hdr) (v : Word)
  /-- R577; `took` is the mask of the requested bits that the fuse word takes. -/ | otpProgram (h : Hdr) (v : Word) (took : Word)
  /-- R158. -/ | tsnsRead (h : Hdr) (n : PortNo)
  /-- R294. -/ | insnsRead (h : Hdr) (t : TileNo) (f : FSlot)
  /-- R364. -/ | tbNownsRead (h : Hdr)
  /-- R364. -/ | tbPpsnsRead (h : Hdr)
  /-- R364. -/ | tbAocloRead (h : Hdr)
  /-- R366. -/ | lastnsRead (h : Hdr) (i : PulseNo)
  /-- R407. -/ | snapnsRead (h : Hdr) (t : TileNo)
  /-- R383. -/ | capRead (h : Hdr) (t : TileNo) (c : TmCh)
  /-- R506. -/ | marknsRead (h : Hdr) (q : QNo)
  /-- R576. -/ | secCtrRead (h : Hdr) (p : Partner)
  /-- R711. -/ | pwrLwnsRead (h : Hdr)
  /-- R222. -/ | pollDue (k : CtxNo)
  /-- R132. -/ | wireGrant (n : PortNo)
  /-- R108: a line of port n goes to its active level, or leaves it. -/ | dataReady (n : PortNo) (line : LineChange)
  /-- R211: the XFER of the slot on the wire ends; the bits received in wire order and the SCK edges read back (R114). -/
  | xferDone (n : PortNo) (rx : List Bool) (edges : Nat)
  /-- R103. -/ | retryIntervalExpiry (n : PortNo) (i : SlotNo)
  /-- R209. -/ | delayEnd (n : PortNo) (i : SlotNo)
  /-- R110, R134: whether the active level is seen in the same cycle. -/ | waitdrTimeout (n : PortNo) (i : SlotNo) (sameCycle : Bool)
  /-- R112, R135: whether the final SCK edge comes in the same cycle, with the bits and edges the transfer then has. -/
  | tlimExpiry (n : PortNo) (i : SlotNo) (sameCycle : Bool) (rx : List Bool) (edges : Nat)
  /-- R235, R239: the leading edge of the slot's timed TRIG step is driven. -/ | timedTrig (n : PortNo) (i : SlotNo)
  /-- R125. -/ | transactionComplete (n : PortNo) (i : SlotEnd)
  /-- R95: the 256 bits of each stream, the SCK edges read back, the BLOCK stamp's distance before now in ns, and the
  SCK periods measured in the block (R97, R99). -/
  | blockComplete (n : PortNo) (a b : BitVec 256) (edges : Nat) (age : Nat) (periods : List Nat)
  /-- R100. -/ | clkLost (n : PortNo) (x : ClkLoss)
  /-- R142. -/ | bankDown (t : TileNo)
  /-- R143: the supply has been above its threshold for 100 µs, at this many millivolts. -/ | bankReturn (t : TileNo) (mv : Nat)
  /-- R167: the next chunk or write command of the port's window runs; the bytes the sensor answers. -/
  | windowChunk (n : PortNo) (rx : List Byte)
  /-- R171, R172: whether the last SCK edge of the last chunk comes in the same cycle, with its bytes. -/
  | windowReadTimeout (n : PortNo) (sameCycle : Bool) (rx : List Byte)
  /-- R175: 100 µs have passed; the status byte the sensor answers. -/ | statusReadRepeat (n : PortNo) (st : Byte)
  /-- R176. -/ | writeLimitExpiry (x : WriteLimit)
  /-- R180. -/ | identityRead (n : PortNo) (i : Fin 3)
  /-- R179, R187: the identity read ends with these bytes, or without any (TIMEOUT or BANK_DOWN); whether a CW_ACCEPT
  write for the slot lands in the same cycle. -/
  | identityJudge (n : PortNo) (i : Fin 3) (rx : Option (List Byte)) (withAccept : Bool)
  /-- R203. -/ | periodBoundary (k : CtxNo)
  /-- R231. -/ | profileSwitch (k : CtxNo)
  /-- R249: slot s of tile t completes an output; what its checks find, and whether the front end's residue check fails (R268). -/
  | filterOutput (t : TileNo) (f : FSlot) (err : FiltErr) (residue : Bool)
  /-- R304: an exchange on lane x measures this field-minus-master offset, in 1/16 ns. -/ | timeExchange (x : Lane) (offset : Int)
  /-- R307, R310: whether an exchange completes in the same cycle. -/ | fstateTimeout (sameCycle : Bool)
  /-- R319, R321: whether an accepted sample arrives in the same cycle. -/ | servoTmo (sameCycle : Bool)
  /-- R322. -/ | stepInstant
  /-- R334; the shift of device time at the switch, in ns (R335). -/ | oscFail (side : Side) (shift : Int)
  /-- R338; the shift of device time at the switch, in ns (R335). -/ | oscSwitchBack (side : Side) (shift : Int)
  /-- R347: an edge of the selected polarity. -/ | ppsIn
  /-- R351. -/ | pulseInstant (i : PulseNo)
  /-- R351. -/ | pulseEnd (i : PulseNo)
  /-- R354. -/ | pulseRequest (i : PulseNo)
  /-- R359: the measured time per tick in 2^-16 ns. -/ | aocRatioUpdate (ratio : Word)
  /-- R341. -/ | ptpEventRx (e : EthNo) (m : PtpMsg)
  /-- R342: the departure stamp in 2^-16 ns. -/ | syncTransmit (tx : Nat)
  /-- R340: the departure stamp in 2^-16 ns. -/ | delayReqTransmit (tx : Nat)
  /-- R340. -/ | announceReceiptTimeout
  /-- R394: channel c of tile t makes a count step of d that steps into its compare value. -/ | countMatch (t : TileNo) (c : TmCh) (d : Nat)
  /-- R371: channel c of tile t makes a count step of d that wraps through zero. -/ | overflow (t : TileNo) (c : TmCh) (d : Nat)
  /-- R394. -/ | timerPulseEnd (t : TileNo) (c : TmCh)
  /-- R379: the input filters accept a new level on a TRIG pin; the edge's distance before now in ns (R381). -/
  | trigEdge (t : TileNo) (pin : Fin 4) (level : Bool) (age : Nat)
  /-- R398. -/ | debugHalt
  /-- R399. -/ | debugResume
  /-- R444: Sieve takes the next waiting sample of context k; whether its own copy verifies (R416), whether a double-bit
  error strikes the context's state (R422). -/
  | sieveSample (k : CtxNo) (copyOk dbe : Bool)
  /-- R441. -/ | snapshotComplete (k : CtxNo)
  /-- R427: unit u completes its oldest block. -/ | transformComplete (u : Fin 2)
  /-- R446. -/ | ruleSetChange (k : CtxNo)
  /-- R448. -/ | engineRetire (e : Fin 17)
  /-- R449. -/ | spareFailure
  /-- R703: sentinel i's poll, with the bits each XFER of its template receives. -/ | sentinelPoll (i : Fin 8) (rx : List (List Bool))
  /-- R477: the oldest record on its way reaches Trellis. -/ | recordArrival
  /-- R482. -/ | sampleTimeRelease (x : QueueRead)
  /-- R556. -/ | streamFrameSend (e : EthNo) (x : QueueRead)
  /-- R550. -/ | ethFrameReceive (e : EthNo) (f : EthFrame)
  /-- R553: the reassembly of this message is 1 ms old. -/ | reassemblyTimeout (e : EthNo) (msg : BitVec 16)
  /-- R561. -/ | linkDown (e : EthNo)
  /-- R561. -/ | linkUp (e : EthNo)
  /-- R560. -/ | energyDetect (e : EthNo)
  /-- R563: a transaction on a serial host port, with the bytes received up to its end or to the end of the request, and
  whether SCK edges follow the last useful byte (R569). -/
  | shpTransaction (p : ShpNo) (rx : List Byte) (extra : Bool)
  /-- R564: a response transaction in which the device sends whole; whether SCK edges follow (R569). -/ | shpResponse (p : ShpNo) (extra : Bool)
  /-- R567, R568, R570: SS_N rises early: within a request after this many bits, or within a response. -/
  | shpSelectRise (p : ShpNo) (inResponse : Bool) (bits : Nat)
  /-- R585: a frame reaches the end of lane x. -/ | claspFrameRx (x : Lane) (f : ClaspFrame)
  /-- R587. -/ | heartbeatSend (x : Lane)
  /-- R588, R604: whether a valid frame arrives in the same cycle. -/ | heart (x : Lane) (sameCycle : Bool)
  /-- R588. -/ | chan (x : Lane)
  /-- R582: training ends with this one-way delay in 1/16 ns. -/ | trainingComplete (x : Lane) (delay : BitVec 16)
  /-- R582. -/ | trainingTimeout (x : Lane)
  /-- R583. -/ | retrain (x : Lane)
  /-- R598. -/ | laneResume (x : Lane)
  /-- R603, R622. -/ | losslimExpiry (side : Side)
  /-- R611; the level of BOOTSEL as host power-on releases (R652), whether an NV write was torn by the loss of power
  (R635). -/
  | powerOn (side : Side) (bootsel : Bool) (torn : Bool)
  /-- R777: the rail has stayed below its threshold for 1 µs. -/ | brownout (side : Side) (rail : Rail)
  /-- R620: the pin has been low for 1 µs (true), or goes high (false). -/ | resetPin (side : Side) (low : Bool)
  /-- R663. -/ | watchdog (d : Dog)
  /-- R618. -/ | ftfault (t : TileNo)
  /-- R70. -/ | portfault (n : PortNo)
  /-- R684. -/ | lsfh
  /-- R618. -/ | lshb
  /-- R615. -/ | dbectx (k : CtxNo)
  /-- R615: the damaged words' addresses. -/ | dbecfg (side : Side) (words : List Word)
  /-- R616. -/ | timebaseParity (side : Side)
  /-- R638: the word of R636 the instruction carries. -/ | jtagReset (w : Word)
  /-- R631. -/ | resetRelease
  /-- R633. -/ | nvWriteEnd
  /-- R683. -/ | fhCheckpoint
  /-- R683. -/ | coreCheckpoint
  /-- R625: the fuse words whose two rows differ. -/ | fuseLoad (differ : List Nat)
  /-- R624: the fuse words whose two rows differ. -/ | fuseRetry (differ : List Nat)
  /-- R644. -/ | imagePass1
  /-- R644. -/ | imagePass2
  /-- R660. -/ | fieldLoad
  /-- R679. -/ | ap1 (side : Side)
  /-- R679. -/ | ap2 (side : Side)
  /-- R679. -/ | ap3 (side : Side)
  /-- R679, R682: whether a wake lands in the same cycle. -/ | ap4 (side : Side) (wake : Bool)
  /-- R681. -/ | drainLimit (side : Side)
  /-- R688: the wake pin of the side has been low for 1 µs. -/ | wakePin (side : Side)
  /-- R689. -/ | hostWakeRequest (c : WakeClass)
  /-- R692; whether the restore finds a double-bit error (R685). -/ | wakeComplete (side : Side) (saveDbe : Bool)
  /-- R694, R696: whether the resource becomes ready in the same cycle. -/ | wakeStepTimeout (side : Side) (what : WakeStep) (sameCycle : Bool)
  /-- R674. -/ | tileAutoSleep (t : TileNo)
  /-- R675. -/ | tileAutoWake (t : TileNo)
  /-- R710: the i-th schedule entry's occurrence. -/ | scheduleOccurrence (i : Fin 16)
  /-- R690. -/ | hwakeOutPulseEnd
  /-- R702. -/ | aofail
  /-- R702. -/ | aocCrystalReturn
  /-- R97. -/ | clkok (x : PortPeriods)
  /-- R118: stream 0 is A, 1 is B. -/ | streamStuck (n : PortNo) (stream : Fin 2)
  /-- R131. -/ | trigTrailingEdge (n : PortNo) (i : SlotNo)
  /-- R234: the 1 ms window ends; LOAD of each port, in order, in 1/4,096. -/ | loadWindowEnd (t : TileNo)
  /-- R692. -/ | oscillatorReady (side : Side)
  /-- R340. -/ | announceTransmit
  /-- R559. -/ | pauseQuantaExpiry (e : EthNo)
  /-- R557: the oldest frame buffered for port e leaves. -/ | forwardedFrameSend (e : EthNo)
  /-- R700: bank 8 VHIO, 9 VSHP or 10 VCFG, as 0, 1, 2. -/ | hostBankSupplyLoss (b : Fin 3)
  /-- R762. -/ | hostBankSupplyReturn (b : Fin 3)
  deriving DecidableEq, Repr

end Sys2Proof
end

