-- ==== Sys2Proof/Config.lean ====
section
/-! DEFINITION. What the specification leaves open: free values without a body, and what one silicon fixes. -/

namespace Sys2Proof.Config

/-- DESIGN CHOICE, safe: the k-th value the specification leaves open (an accelerometer reading, a residence time). Nothing constrains
it. -/
opaque freeNat : Nat → Nat

/-- DESIGN CHOICE, safe: the factory words of the fuses (words 0 to 7 of R626: serial number and trims). -/
opaque factoryWord : Nat → Word

/-- DESIGN CHOICE, safe: tap i of a built-in stage: the chain (0 to 4 the presets of word slots, 5 to 9 those of bitstream slots), the stage in
signal order after the CIC, the tap (R252). The manual does not fix the values. -/
opaque builtinTap : Nat → Nat → Nat → Rat

/-- DESIGN CHOICE, safe: tap i of the ALIGN filter for a fraction f of an output period in 1/65,536 (R252, R276). -/
opaque alignTap : Nat → Nat → Rat

/-- DESIGN CHOICE, safe: the power P_k that a spectral unit computes from a block: the window function, the format of the values, the
1,024 values, k (R427). The manual fixes no order and no rounding of the sums. -/
opaque spectralPower : Nat → Nat → List Word → Nat → Nat

/-- R59: letter and digit of the silicon revision, whatever they are. -/
opaque silRev : Word

end Sys2Proof.Config
end

