-- ==== Sys2Proof/Machine/RegMap.lean ====
section
/-! DEFINITION. The register map: one address function per register (R53, R797), one descriptor per register with
its access masks (R14), cold value (R12) and the bits a warm reset rewrites (R13), and one bit field per named field.
Each line cites the rule whose table it restates. -/

namespace Sys2Proof.Machine

/-- A bit field of a register: its lowest bit and its width. -/
structure Fld where
  lo : Nat
  w : Nat
  deriving DecidableEq, Repr

/-- One register of the map, or one family of them: the lowest address, the (count, stride) pairs of its index letters
with the widest stride first, the bits of each access code of R14, the Cold value of R12, and the bits whose Warm
column (R13) gives a value instead of "held", with that value. Bits in no mask are reserved under R17. -/
structure RegDesc where
  base : Nat
  dims : List (Nat × Nat)
  ro : Nat
  rw : Nat
  rws : Nat
  w1c : Nat
  wo : Nat
  cold : Nat
  warmMask : Nat
  warmVal : Nat
  deriving DecidableEq, Repr

namespace R

/-- R57. -/ abbrev GLB_ID : Nat := 0x0
/-- R58. -/ abbrev GLB_MAPVER : Nat := 0x4
/-- R59. -/ abbrev GLB_SILREV : Nat := 0x8
/-- R60. -/ abbrev GLB_UIDLO : Nat := 0x10
/-- R60. -/ abbrev GLB_UIDHI : Nat := 0x14
/-- R61. -/ abbrev GLB_CKCNT (i : Nat) : Nat := 0x40 + i * 0x4
/-- R62. -/ abbrev GLB_CKCLR : Nat := 0x58
/-- R63. -/ abbrev GLB_RACECNT : Nat := 0x5c
/-- R144. -/ abbrev FP_CTL (n : Nat) : Nat := 0x100000 + n / 8 * 0x10000 + n % 8 * 0x800
/-- R145. -/ abbrev FP_WCFG (n : Nat) : Nat := 0x100004 + n / 8 * 0x10000 + n % 8 * 0x800
/-- R146. -/ abbrev FP_BCFG (n : Nat) : Nat := 0x100008 + n / 8 * 0x10000 + n % 8 * 0x800
/-- R147. -/ abbrev FP_CLK (n : Nat) : Nat := 0x10000c + n / 8 * 0x10000 + n % 8 * 0x800
/-- R148. -/ abbrev FP_GAP (n : Nat) : Nat := 0x100010 + n / 8 * 0x10000 + n % 8 * 0x800
/-- R149. -/ abbrev FP_SLEN (n : Nat) : Nat := 0x100014 + n / 8 * 0x10000 + n % 8 * 0x800
/-- R150. -/ abbrev FP_SS (n : Nat) : Nat := 0x100018 + n / 8 * 0x10000 + n % 8 * 0x800
/-- R151. -/ abbrev FP_RETRY (n : Nat) : Nat := 0x10001c + n / 8 * 0x10000 + n % 8 * 0x800
/-- R152. -/ abbrev FP_TLIM (n : Nat) : Nat := 0x100020 + n / 8 * 0x10000 + n % 8 * 0x800
/-- R153. -/ abbrev FP_CLKMON (n : Nat) : Nat := 0x100024 + n / 8 * 0x10000 + n % 8 * 0x800
/-- R154. -/ abbrev FP_STUCK (n : Nat) : Nat := 0x100028 + n / 8 * 0x10000 + n % 8 * 0x800
/-- R155. -/ abbrev FP_STAT (n : Nat) : Nat := 0x100040 + n / 8 * 0x10000 + n % 8 * 0x800
/-- R156. -/ abbrev FP_EVT (n : Nat) : Nat := 0x100044 + n / 8 * 0x10000 + n % 8 * 0x800
/-- R157. -/ abbrev FP_LAST (n : Nat) : Nat := 0x100048 + n / 8 * 0x10000 + n % 8 * 0x800
/-- R158. -/ abbrev FP_TSNS (n : Nat) : Nat := 0x10004c + n / 8 * 0x10000 + n % 8 * 0x800
/-- R158. -/ abbrev FP_TSSEC (n : Nat) : Nat := 0x100050 + n / 8 * 0x10000 + n % 8 * 0x800
/-- R159. -/ abbrev FP_CNT (n i : Nat) : Nat := 0x100060 + n / 8 * 0x10000 + n % 8 * 0x800 + i * 0x4
/-- R160. -/ abbrev FP_CNTCLR (n : Nat) : Nat := 0x100078 + n / 8 * 0x10000 + n % 8 * 0x800
/-- R188. -/ abbrev CW_CTL (n : Nat) : Nat := 0x100400 + n / 8 * 0x10000 + n % 8 * 0x800
/-- R188. -/ abbrev CW_CMD (n : Nat) : Nat := 0x100404 + n / 8 * 0x10000 + n % 8 * 0x800
/-- R188. -/ abbrev CW_CFG (n : Nat) : Nat := 0x100408 + n / 8 * 0x10000 + n % 8 * 0x800
/-- R188. -/ abbrev CW_TLIM (n : Nat) : Nat := 0x10040c + n / 8 * 0x10000 + n % 8 * 0x800
/-- R188. -/ abbrev CW_ID (n : Nat) : Nat := 0x100410 + n / 8 * 0x10000 + n % 8 * 0x800
/-- R188. -/ abbrev CW_PROBE (n : Nat) : Nat := 0x100414 + n / 8 * 0x10000 + n % 8 * 0x800
/-- R188. -/ abbrev CW_STAT (n : Nat) : Nat := 0x100418 + n / 8 * 0x10000 + n % 8 * 0x800
/-- R188. -/ abbrev CW_EVT (n : Nat) : Nat := 0x10041c + n / 8 * 0x10000 + n % 8 * 0x800
/-- R188. -/ abbrev CW_ACCEPT (n : Nat) : Nat := 0x100420 + n / 8 * 0x10000 + n % 8 * 0x800
/-- R188. -/ abbrev CW_CNT_RD (n : Nat) : Nat := 0x100424 + n / 8 * 0x10000 + n % 8 * 0x800
/-- R188. -/ abbrev CW_CNT_SWAP (n : Nat) : Nat := 0x100428 + n / 8 * 0x10000 + n % 8 * 0x800
/-- R188. -/ abbrev CW_CNTCLR (n : Nat) : Nat := 0x10042c + n / 8 * 0x10000 + n % 8 * 0x800
/-- R189. -/ abbrev CW_IDS_CTL (n i : Nat) : Nat := 0x100440 + n / 8 * 0x10000 + n % 8 * 0x800 + i * 0x20
/-- R189. -/ abbrev CW_IDS_REFLO (n i : Nat) : Nat := 0x100444 + n / 8 * 0x10000 + n % 8 * 0x800 + i * 0x20
/-- R189. -/ abbrev CW_IDS_REFHI (n i : Nat) : Nat := 0x100448 + n / 8 * 0x10000 + n % 8 * 0x800 + i * 0x20
/-- R189. -/ abbrev CW_IDS_SEENLO (n i : Nat) : Nat := 0x10044c + n / 8 * 0x10000 + n % 8 * 0x800 + i * 0x20
/-- R189. -/ abbrev CW_IDS_SEENHI (n i : Nat) : Nat := 0x100450 + n / 8 * 0x10000 + n % 8 * 0x800 + i * 0x20
/-- R191. -/ abbrev CTX_CTL (k : Nat) : Nat := 0x210000 + k * 0x40
/-- R191. -/ abbrev CTX_BIND (k : Nat) : Nat := 0x210004 + k * 0x40
/-- R191. -/ abbrev CTX_CPERLO (k : Nat) : Nat := 0x210008 + k * 0x40
/-- R191. -/ abbrev CTX_CPERHI (k : Nat) : Nat := 0x21000c + k * 0x40
/-- R191. -/ abbrev CTX_APERLO (k : Nat) : Nat := 0x210010 + k * 0x40
/-- R191. -/ abbrev CTX_APERHI (k : Nat) : Nat := 0x210014 + k * 0x40
/-- R191. -/ abbrev CTX_PHLO (k : Nat) : Nat := 0x210018 + k * 0x40
/-- R191. -/ abbrev CTX_PHHI (k : Nat) : Nat := 0x21001c + k * 0x40
/-- R191. -/ abbrev CTX_MINSP (k : Nat) : Nat := 0x210020 + k * 0x40
/-- R191. -/ abbrev CTX_RULES (k : Nat) : Nat := 0x210024 + k * 0x40
/-- R191. -/ abbrev CTX_GAIN (k : Nat) : Nat := 0x210028 + k * 0x40
/-- R191. -/ abbrev CTX_OFFS (k : Nat) : Nat := 0x21002c + k * 0x40
/-- R191. -/ abbrev CTX_STAT (k : Nat) : Nat := 0x210030 + k * 0x40
/-- R191. -/ abbrev CTX_LAG (k : Nat) : Nat := 0x210034 + k * 0x40
/-- R191. -/ abbrev CTX_CNT (k : Nat) : Nat := 0x210038 + k * 0x40
/-- R191. -/ abbrev CTX_POLLS (k : Nat) : Nat := 0x21003c + k * 0x40
/-- R242. -/ abbrev FT_SQ_CTL (t : Nat) : Nat := 0x108000 + t * 0x10000
/-- R242. -/ abbrev FT_SQ_EVT (t : Nat) : Nat := 0x108004 + t * 0x10000
/-- R242. -/ abbrev FT_SQ_TPS (t : Nat) : Nat := 0x108008 + t * 0x10000
/-- R242. -/ abbrev SQ_DEMAND (n : Nat) : Nat := 0x108100 + n / 8 * 0x10000 + n % 8 * 0x20
/-- R242. -/ abbrev SQ_LOAD (n : Nat) : Nat := 0x108104 + n / 8 * 0x10000 + n % 8 * 0x20
/-- R242. -/ abbrev SQ_PEAK (n : Nat) : Nat := 0x108108 + n / 8 * 0x10000 + n % 8 * 0x20
/-- R242. -/ abbrev SQ_MAXLAG (n : Nat) : Nat := 0x10810c + n / 8 * 0x10000 + n % 8 * 0x20
/-- R242. -/ abbrev SQ_CNT_LATE (n : Nat) : Nat := 0x108110 + n / 8 * 0x10000 + n % 8 * 0x20
/-- R242. -/ abbrev SQ_CNT_CU (n : Nat) : Nat := 0x108114 + n / 8 * 0x10000 + n % 8 * 0x20
/-- R242. -/ abbrev SQ_CLR (n : Nat) : Nat := 0x108118 + n / 8 * 0x10000 + n % 8 * 0x20
/-- R242. -/ abbrev SQ_SLOT (n i : Nat) : Nat := 0x108400 + n / 8 * 0x10000 + n % 8 * 0x20 + i * 0x4
/-- R243. -/ abbrev FH_CTXUSE : Nat := 0x200100
/-- R243. -/ abbrev FH_CTXREF : Nat := 0x200104
/-- R243. -/ abbrev FH_CONFREF : Nat := 0x200108
/-- R243. -/ abbrev FH_CTXCLR : Nat := 0x20010c
/-- R292. -/ abbrev FT_FLT_CTL (t : Nat) : Nat := 0x104000 + t * 0x10000
/-- R292. -/ abbrev FT_FLT_STAT (t : Nat) : Nat := 0x104004 + t * 0x10000
/-- R292. -/ abbrev FT_FLT_EVT (t : Nat) : Nat := 0x104008 + t * 0x10000
/-- R292. -/ abbrev FT_FLT_BANK (t : Nat) : Nat := 0x10400c + t * 0x10000
/-- R292. -/ abbrev FT_FLT_LOAD (t : Nat) : Nat := 0x104010 + t * 0x10000
/-- R292. -/ abbrev FT_FLT_CNT_CKA (t : Nat) : Nat := 0x104014 + t * 0x10000
/-- R292. -/ abbrev FT_FLT_CNT_SBE (t : Nat) : Nat := 0x104018 + t * 0x10000
/-- R292. -/ abbrev FT_FLT_CNT_DBE (t : Nat) : Nat := 0x10401c + t * 0x10000
/-- R292. -/ abbrev FT_FLT_CNTCLR (t : Nat) : Nat := 0x104020 + t * 0x10000
/-- R292. -/ abbrev FT_FLT_COEF (t i : Nat) : Nat := 0x105000 + t * 0x10000 + i * 0x4
/-- R292. -/ abbrev FT_FLT_ACOEF (t i : Nat) : Nat := 0x105400 + t * 0x10000 + i * 0x4
/-- R293. -/ abbrev FT_SLOT (t s : Nat) : Nat := 0x104100 + t * 0x10000 + s * 0x20
/-- R293. -/ abbrev FT_SLOT_BIND (t s : Nat) : Nat := 0x104104 + t * 0x10000 + s * 0x20
/-- R293. -/ abbrev FT_SLOT_STAT (t s : Nat) : Nat := 0x104108 + t * 0x10000 + s * 0x20
/-- R293. -/ abbrev FT_SLOT_OUT (t s : Nat) : Nat := 0x10410c + t * 0x10000 + s * 0x20
/-- R293. -/ abbrev FT_SLOT_MARK (t s : Nat) : Nat := 0x104110 + t * 0x10000 + s * 0x20
/-- R293. -/ abbrev FT_SLOT_INSNS (t s : Nat) : Nat := 0x104114 + t * 0x10000 + s * 0x20
/-- R293. -/ abbrev FT_SLOT_INSSEC (t s : Nat) : Nat := 0x104118 + t * 0x10000 + s * 0x20
/-- R293. -/ abbrev FT_SLOT_CLR (t s : Nat) : Nat := 0x10411c + t * 0x10000 + s * 0x20
/-- R364. -/ abbrev TB_CTL : Nat := 0x40000
/-- R364. -/ abbrev TB_STAT : Nat := 0x40004
/-- R364. -/ abbrev TB_EVT : Nat := 0x40008
/-- R364. -/ abbrev TB_STEP_LIM : Nat := 0x4000c
/-- R364. -/ abbrev TB_KP : Nat := 0x40010
/-- R364. -/ abbrev TB_KI : Nat := 0x40014
/-- R364. -/ abbrev TB_LOCK : Nat := 0x40018
/-- R364. -/ abbrev TB_HOLD : Nat := 0x4001c
/-- R364. -/ abbrev TB_NOWNS : Nat := 0x40020
/-- R364. -/ abbrev TB_NOWFRAC : Nat := 0x40024
/-- R364. -/ abbrev TB_NOWSECLO : Nat := 0x40028
/-- R364. -/ abbrev TB_NOWSECHI : Nat := 0x4002c
/-- R364. -/ abbrev TB_FREQ : Nat := 0x40030
/-- R364. -/ abbrev TB_OFFS : Nat := 0x40034
/-- R364. -/ abbrev TB_FOFFS : Nat := 0x40038
/-- R364. -/ abbrev TB_CNT_REF : Nat := 0x4003c
/-- R364. -/ abbrev TB_CNT_STEP : Nat := 0x40040
/-- R364. -/ abbrev TB_CNT_PPSREJ : Nat := 0x40044
/-- R364. -/ abbrev TB_CLR : Nat := 0x40048
/-- R364. -/ abbrev TB_CLK : Nat := 0x4004c
/-- R364. -/ abbrev TB_PPSIN : Nat := 0x40050
/-- R364. -/ abbrev TB_PPSNS : Nat := 0x40054
/-- R364. -/ abbrev TB_PPSSEC : Nat := 0x40058
/-- R364. -/ abbrev TB_AOC_RATIO : Nat := 0x4005c
/-- R364. -/ abbrev TB_AOCLO : Nat := 0x40060
/-- R364. -/ abbrev TB_AOCHI : Nat := 0x40064
/-- R364. -/ abbrev TB_LASTSLP : Nat := 0x40068
/-- R365. -/ abbrev TB_PTP_CTL : Nat := 0x40100
/-- R365. -/ abbrev TB_PTP_INT : Nat := 0x40104
/-- R365. -/ abbrev TB_PTP_DS : Nat := 0x40108
/-- R365. -/ abbrev TB_PTP_VAR : Nat := 0x4010c
/-- R365. -/ abbrev TB_PTP_ASYM : Nat := 0x40110
/-- R365. -/ abbrev TB_PTP_LAT (x : Nat) : Nat := 0x40114 + x * 0x4
/-- R365. -/ abbrev TB_PTP_STAT : Nat := 0x4011c
/-- R365. -/ abbrev TB_PTP_GMLO : Nat := 0x40120
/-- R365. -/ abbrev TB_PTP_GMHI : Nat := 0x40124
/-- R365. -/ abbrev TB_PTP_IDLO : Nat := 0x40128
/-- R365. -/ abbrev TB_PTP_IDHI : Nat := 0x4012c
/-- R365. -/ abbrev TB_PTP_MPD : Nat := 0x40130
/-- R365. -/ abbrev TB_PTP_CNT (i : Nat) : Nat := 0x40134 + i * 0x4
/-- R365. -/ abbrev TB_PTP_CLR : Nat := 0x40144
/-- R366. -/ abbrev TB_PLS_CTL (i : Nat) : Nat := 0x40200 + i * 0x40
/-- R366. -/ abbrev TB_PLS_SECLO (i : Nat) : Nat := 0x40204 + i * 0x40
/-- R366. -/ abbrev TB_PLS_SECHI (i : Nat) : Nat := 0x40208 + i * 0x40
/-- R366. -/ abbrev TB_PLS_NS (i : Nat) : Nat := 0x4020c + i * 0x40
/-- R366. -/ abbrev TB_PLS_PERLO (i : Nat) : Nat := 0x40210 + i * 0x40
/-- R366. -/ abbrev TB_PLS_PERHI (i : Nat) : Nat := 0x40214 + i * 0x40
/-- R366. -/ abbrev TB_PLS_WIDTH (i : Nat) : Nat := 0x40218 + i * 0x40
/-- R366. -/ abbrev TB_PLS_LASTNS (i : Nat) : Nat := 0x4021c + i * 0x40
/-- R366. -/ abbrev TB_PLS_LASTSEC (i : Nat) : Nat := 0x40220 + i * 0x40
/-- R366. -/ abbrev TB_PLS_CNT (i : Nat) : Nat := 0x40224 + i * 0x40
/-- R366. -/ abbrev TB_PLS_CLR (i : Nat) : Nat := 0x40228 + i * 0x40
/-- R407. -/ abbrev FT_TM_SNAP (t : Nat) : Nat := 0x106000 + t * 0x10000
/-- R407. -/ abbrev FT_TM_SNAPNS (t : Nat) : Nat := 0x106004 + t * 0x10000
/-- R407. -/ abbrev FT_TM_SNAPSEC (t : Nat) : Nat := 0x106008 + t * 0x10000
/-- R407. -/ abbrev FT_TM_CLR (t : Nat) : Nat := 0x10600c + t * 0x10000
/-- R408. -/ abbrev FT_TMC_CTL (t c : Nat) : Nat := 0x106100 + t * 0x10000 + c * 0x40
/-- R408. -/ abbrev FT_TMC_PRESC (t c : Nat) : Nat := 0x106104 + t * 0x10000 + c * 0x40
/-- R408. -/ abbrev FT_TMC_INCFG (t c : Nat) : Nat := 0x106108 + t * 0x10000 + c * 0x40
/-- R408. -/ abbrev FT_TMC_PWID (t c : Nat) : Nat := 0x10610c + t * 0x10000 + c * 0x40
/-- R408. -/ abbrev FT_TMC_CNT (t c : Nat) : Nat := 0x106110 + t * 0x10000 + c * 0x40
/-- R408. -/ abbrev FT_TMC_CMP (t c : Nat) : Nat := 0x106114 + t * 0x10000 + c * 0x40
/-- R408. -/ abbrev FT_TMC_CMPSH (t c : Nat) : Nat := 0x106118 + t * 0x10000 + c * 0x40
/-- R408. -/ abbrev FT_TMC_INTV (t c : Nat) : Nat := 0x10611c + t * 0x10000 + c * 0x40
/-- R408. -/ abbrev FT_TMC_CAP (t c : Nat) : Nat := 0x106120 + t * 0x10000 + c * 0x40
/-- R408. -/ abbrev FT_TMC_CAPNS (t c : Nat) : Nat := 0x106124 + t * 0x10000 + c * 0x40
/-- R408. -/ abbrev FT_TMC_CAPSEC (t c : Nat) : Nat := 0x106128 + t * 0x10000 + c * 0x40
/-- R408. -/ abbrev FT_TMC_SNAP (t c : Nat) : Nat := 0x10612c + t * 0x10000 + c * 0x40
/-- R408. -/ abbrev FT_TMC_STAT (t c : Nat) : Nat := 0x106130 + t * 0x10000 + c * 0x40
/-- R408. -/ abbrev FT_TMC_EVT (t c : Nat) : Nat := 0x106134 + t * 0x10000 + c * 0x40
/-- R408. -/ abbrev FT_TMC_MATCHES (t c : Nat) : Nat := 0x106138 + t * 0x10000 + c * 0x40
/-- R408. -/ abbrev FT_TMC_MISS (t c : Nat) : Nat := 0x10613c + t * 0x10000 + c * 0x40
/-- R454. -/ abbrev SV_CTL : Nat := 0x240000
/-- R454. -/ abbrev SV_STAT : Nat := 0x240004
/-- R454. -/ abbrev SV_EVT : Nat := 0x240008
/-- R454. -/ abbrev SV_IRQ : Nat := 0x24000c
/-- R454. -/ abbrev SV_CNT_FIRE : Nat := 0x240010
/-- R454. -/ abbrev SV_CNT_TAINT : Nat := 0x240014
/-- R454. -/ abbrev SV_CNT_DBE : Nat := 0x240018
/-- R454. -/ abbrev SV_CLR : Nat := 0x24001c
/-- R455. -/ abbrev SV_ENG_STAT (e : Nat) : Nat := 0x240100 + e * 0x10
/-- R455. -/ abbrev SV_ENG_LOAD (e : Nat) : Nat := 0x240104 + e * 0x10
/-- R455. -/ abbrev SV_ENG_CNT (e : Nat) : Nat := 0x240108 + e * 0x10
/-- R455. -/ abbrev SV_SPU_STAT (u : Nat) : Nat := 0x240300 + u * 0x10
/-- R455. -/ abbrev SV_SPU_CNT (u : Nat) : Nat := 0x240304 + u * 0x10
/-- R455. -/ abbrev SV_SPU_DROP (u : Nat) : Nat := 0x240308 + u * 0x10
/-- R455. -/ abbrev SV_SENT_CTL (i : Nat) : Nat := 0x240400 + i * 0x10
/-- R455. -/ abbrev SV_SENT_PER (i : Nat) : Nat := 0x240404 + i * 0x10
/-- R455. -/ abbrev SV_SENT_STAT (i : Nat) : Nat := 0x240408 + i * 0x10
/-- R456. -/ abbrev SV_CX_SPCFG (k : Nat) : Nat := 0x242000 + k * 0x10
/-- R456. -/ abbrev SV_CX_SNCFG (k : Nat) : Nat := 0x242004 + k * 0x10
/-- R456. -/ abbrev SV_CX_STAT (k : Nat) : Nat := 0x242008 + k * 0x10
/-- R456. -/ abbrev SV_CX_DROP (k : Nat) : Nat := 0x24200c + k * 0x10
/-- R458. -/ abbrev SVR_CFG (r : Nat) : Nat := 0x248000 + r * 0x20
/-- R458. -/ abbrev SVR_WIN (r : Nat) : Nat := 0x248004 + r * 0x20
/-- R458. -/ abbrev SVR_PAR (r : Nat) : Nat := 0x248008 + r * 0x20
/-- R458. -/ abbrev SVR_T1 (r : Nat) : Nat := 0x24800c + r * 0x20
/-- R458. -/ abbrev SVR_T2 (r : Nat) : Nat := 0x248010 + r * 0x20
/-- R458. -/ abbrev SVR_HYS (r : Nat) : Nat := 0x248014 + r * 0x20
/-- R458. -/ abbrev SVR_ACT (r : Nat) : Nat := 0x248018 + r * 0x20
/-- R458. -/ abbrev SVR_STAT (r : Nat) : Nat := 0x24801c + r * 0x20
/-- R505. -/ abbrev TR_STAT : Nat := 0x250000
/-- R505. -/ abbrev TR_POOL : Nat := 0x250004
/-- R505. -/ abbrev TR_SPWS : Nat := 0x250008
/-- R505. -/ abbrev TR_POOLFREE : Nat := 0x25000c
/-- R505. -/ abbrev TR_EVT : Nat := 0x250010
/-- R505. -/ abbrev TR_CNT_SBE : Nat := 0x250014
/-- R505. -/ abbrev TR_CNT_DBE : Nat := 0x250018
/-- R505. -/ abbrev TR_CNT_EARLY : Nat := 0x25001c
/-- R505. -/ abbrev TR_CLR : Nat := 0x250020
/-- R506. -/ abbrev Q_CFG (q : Nat) : Nat := 0x251000 + q * 0x40
/-- R506. -/ abbrev Q_WM (q : Nat) : Nat := 0x251004 + q * 0x40
/-- R506. -/ abbrev Q_ORD (q : Nat) : Nat := 0x251008 + q * 0x40
/-- R506. -/ abbrev Q_LAMBDA (q : Nat) : Nat := 0x25100c + q * 0x40
/-- R506. -/ abbrev Q_STAT (q : Nat) : Nat := 0x251010 + q * 0x40
/-- R506. -/ abbrev Q_WR (q : Nat) : Nat := 0x251014 + q * 0x40
/-- R506. -/ abbrev Q_EVT (q : Nat) : Nat := 0x251018 + q * 0x40
/-- R506. -/ abbrev Q_CNT_REC (q : Nat) : Nat := 0x25101c + q * 0x40
/-- R506. -/ abbrev Q_CNT_DROP (q : Nat) : Nat := 0x251020 + q * 0x40
/-- R506. -/ abbrev Q_CNT_OVW (q : Nat) : Nat := 0x251024 + q * 0x40
/-- R506. -/ abbrev Q_CNT_LORD (q : Nat) : Nat := 0x251028 + q * 0x40
/-- R506. -/ abbrev Q_MARKNS (q : Nat) : Nat := 0x25102c + q * 0x40
/-- R506. -/ abbrev Q_MARKSEC (q : Nat) : Nat := 0x251030 + q * 0x40
/-- R506. -/ abbrev Q_CLR (q : Nat) : Nat := 0x251034 + q * 0x40
/-- R507. -/ abbrev TR_SUB_DLV (q p : Nat) : Nat := 0x254000 + q * 0x20 + p * 0x8
/-- R507. -/ abbrev TR_SUB_ACK (q p : Nat) : Nat := 0x254004 + q * 0x20 + p * 0x8
/-- R572. -/ abbrev P_CTL (p : Nat) : Nat := 0x10000 + p * 0x1000
/-- R572. -/ abbrev P_PERM (p : Nat) : Nat := 0x10004 + p * 0x1000
/-- R572. -/ abbrev P_KEY (p : Nat) : Nat := 0x10008 + p * 0x1000
/-- R572. -/ abbrev P_STAT (p : Nat) : Nat := 0x10040 + p * 0x1000
/-- R572. -/ abbrev P_EVT (p : Nat) : Nat := 0x10044 + p * 0x1000
/-- R572. -/ abbrev P_CNT (p i : Nat) : Nat := 0x10060 + p * 0x1000 + i * 0x4
/-- R572. -/ abbrev P_CNTCLR (p : Nat) : Nat := 0x1008c + p * 0x1000
/-- R573. -/ abbrev P_ETH_CTL (p : Nat) : Nat := 0x10100 + p * 0x1000
/-- R573. -/ abbrev P_ETH_MACLO (p : Nat) : Nat := 0x10104 + p * 0x1000
/-- R573. -/ abbrev P_ETH_MACHI (p : Nat) : Nat := 0x10108 + p * 0x1000
/-- R573. -/ abbrev P_ETH_DSTLO (p : Nat) : Nat := 0x1010c + p * 0x1000
/-- R573. -/ abbrev P_ETH_DSTHI (p : Nat) : Nat := 0x10110 + p * 0x1000
/-- R573. -/ abbrev P_ETH_TYPE (p : Nat) : Nat := 0x10114 + p * 0x1000
/-- R573. -/ abbrev P_ETH_MTU (p : Nat) : Nat := 0x10118 + p * 0x1000
/-- R573. -/ abbrev P_ETH_FLUSH (p : Nat) : Nat := 0x1011c + p * 0x1000
/-- R573. -/ abbrev P_ETH_PAUSE (p : Nat) : Nat := 0x10120 + p * 0x1000
/-- R573. -/ abbrev P_ETH_STAT (p : Nat) : Nat := 0x10140 + p * 0x1000
/-- R573. -/ abbrev P_ETH_CNT (p i : Nat) : Nat := 0x10160 + p * 0x1000 + i * 0x4
/-- R573. -/ abbrev P_ETH_CLR (p : Nat) : Nat := 0x1017c + p * 0x1000
/-- R574. -/ abbrev P0_MDIO_CFG : Nat := 0x10300
/-- R574. -/ abbrev P0_MDIO_CMD : Nat := 0x10304
/-- R575. -/ abbrev P_SHP_CTL (p : Nat) : Nat := 0x10200 + p * 0x1000
/-- R575. -/ abbrev P_SHP_STAT (p : Nat) : Nat := 0x10240 + p * 0x1000
/-- R576. -/ abbrev SEC_KS_STAT (i : Nat) : Nat := 0x20000 + i * 0x4
/-- R576. -/ abbrev SEC_CTR_LO (p : Nat) : Nat := 0x20040 + p * 0x8
/-- R576. -/ abbrev SEC_CTR_HI (p : Nat) : Nat := 0x20044 + p * 0x8
/-- R576. -/ abbrev SEC_EVT : Nat := 0x20080
/-- R576. -/ abbrev SEC_OTPW (w : Nat) : Nat := 0x20100 + w * 0x4
/-- R576. -/ abbrev SEC_OTPDATA : Nat := 0x20300
/-- R576. -/ abbrev SEC_OTPPROG : Nat := 0x20304
/-- R608. -/ abbrev CL_CTL : Nat := 0x50000
/-- R608. -/ abbrev CL_LOSS : Nat := 0x50004
/-- R608. -/ abbrev CL_STAT : Nat := 0x50008
/-- R608. -/ abbrev CL_EVT : Nat := 0x5000c
/-- R608. -/ abbrev CL_CNT_BLOCK : Nat := 0x50010
/-- R608. -/ abbrev CL_CNT_UNREC : Nat := 0x50014
/-- R608. -/ abbrev CL_CNT_NOLANE : Nat := 0x50018
/-- R608. -/ abbrev CL_CLR : Nat := 0x5001c
/-- R609. -/ abbrev CL_LANE_DELAY (x : Nat) : Nat := 0x50100 + x * 0x40
/-- R609. -/ abbrev CL_LANE_UNACK (x : Nat) : Nat := 0x50104 + x * 0x40
/-- R609. -/ abbrev CL_LANE_CNT_TX (x : Nat) : Nat := 0x50108 + x * 0x40
/-- R609. -/ abbrev CL_LANE_CNT_RX (x : Nat) : Nat := 0x5010c + x * 0x40
/-- R609. -/ abbrev CL_LANE_CNT_CKL (x : Nat) : Nat := 0x50110 + x * 0x40
/-- R609. -/ abbrev CL_LANE_CNT_RETX (x : Nat) : Nat := 0x50114 + x * 0x40
/-- R609. -/ abbrev CL_LANE_CNT_DOWN (x : Nat) : Nat := 0x50118 + x * 0x40
/-- R609. -/ abbrev CL_LANE_CNT_TRAINFAIL (x : Nat) : Nat := 0x5011c + x * 0x40
/-- R609. -/ abbrev CL_LANE_CLR (x : Nat) : Nat := 0x50120 + x * 0x40
/-- R665. -/ abbrev GLB_BOOTSTAT : Nat := 0x20
/-- R665. -/ abbrev GLB_IMGVER : Nat := 0x24
/-- R665. -/ abbrev GLB_IMGSEQ : Nat := 0x28
/-- R665. -/ abbrev GLB_LOADERR : Nat := 0x2c
/-- R665. -/ abbrev GLB_LOADCTL : Nat := 0x30
/-- R665. -/ abbrev GLB_LOADSTAT : Nat := 0x34
/-- R666. -/ abbrev RST_CAUSE : Nat := 0x30800
/-- R666. -/ abbrev RST_CAUSEACC : Nat := 0x30804
/-- R666. -/ abbrev RST_LAST : Nat := 0x30808
/-- R666. -/ abbrev RST_BOOT : Nat := 0x3080c
/-- R666. -/ abbrev RST_MAP (m : Nat) : Nat := 0x30810 + m * 0x4
/-- R666. -/ abbrev RST_WDT : Nat := 0x30820
/-- R666. -/ abbrev RST_CNT_HOLDOFF : Nat := 0x30828
/-- R666. -/ abbrev RST_CLR : Nat := 0x3082c
/-- R666. -/ abbrev RST_FLOG_STAT : Nat := 0x30830
/-- R666. -/ abbrev RST_FLOG_SEL : Nat := 0x30834
/-- R666. -/ abbrev RST_FLOG_W (i : Nat) : Nat := 0x30838 + i * 0x4
/-- R711. -/ abbrev PWR_STAT : Nat := 0x30000
/-- R711. -/ abbrev PWR_CFG : Nat := 0x30004
/-- R711. -/ abbrev PWR_HWCFG : Nat := 0x30008
/-- R711. -/ abbrev PWR_HWCLR : Nat := 0x3000c
/-- R711. -/ abbrev PWR_BANKCFG : Nat := 0x30010
/-- R711. -/ abbrev PWR_PADREL : Nat := 0x30014
/-- R711. -/ abbrev PWR_PADSTAT : Nat := 0x30018
/-- R711. -/ abbrev PWR_AOC : Nat := 0x3001c
/-- R711. -/ abbrev PWR_LASTWAKE : Nat := 0x30020
/-- R711. -/ abbrev PWR_LWNS : Nat := 0x30024
/-- R711. -/ abbrev PWR_LWSEC : Nat := 0x30028
/-- R711. -/ abbrev PWR_ABORT : Nat := 0x3002c
/-- R711. -/ abbrev PWR_EVT : Nat := 0x30030
/-- R711. -/ abbrev PWR_CNT_QLOST : Nat := 0x30034
/-- R711. -/ abbrev PWR_CNT_WKDROP : Nat := 0x30038
/-- R711. -/ abbrev PWR_CLR : Nat := 0x3003c
/-- R712. -/ abbrev FH_LKSTAT : Nat := 0x200200
/-- R741. -/ abbrev GLB_GRF_STAT : Nat := 0x100
/-- R741. -/ abbrev GLB_GRF_ITEMS : Nat := 0x104
/-- R741. -/ abbrev GLB_GRF_LAST : Nat := 0x108
/-- R741. -/ abbrev GLB_GRF_FAILIDX : Nat := 0x10c
/-- R741. -/ abbrev GLB_GRF_EVT : Nat := 0x110
/-- R741. -/ abbrev GLB_GRF_CNT : Nat := 0x114
/-- R741. -/ abbrev GLB_GRF_MINSEQ : Nat := 0x118
/-- R741. -/ abbrev GLB_GRF_CLR : Nat := 0x11c
/-- R208. -/ abbrev TPL_WORD (j w : Nat) : Nat := 0x220000 + j * 0x80 + w * 0x4
/-- R457. -/ abbrev SV_RVAL (r : Nat) : Nat := 0x244000 + r * 0x4

end R

namespace F

/-- R57. -/ abbrev GLB_ID_VENDOR : Fld := ⟨16, 16⟩
/-- R57. -/ abbrev GLB_ID_PART : Fld := ⟨0, 16⟩
/-- R58. -/ abbrev GLB_MAPVER_MAJOR : Fld := ⟨16, 16⟩
/-- R58. -/ abbrev GLB_MAPVER_MINOR : Fld := ⟨0, 16⟩
/-- R59. -/ abbrev GLB_SILREV_LETTER : Fld := ⟨8, 8⟩
/-- R59. -/ abbrev GLB_SILREV_DIGIT : Fld := ⟨0, 8⟩
/-- R60. -/ abbrev GLB_UIDLO_UID : Fld := ⟨0, 32⟩
/-- R60. -/ abbrev GLB_UIDHI_UID : Fld := ⟨0, 32⟩
/-- R61. -/ abbrev GLB_CKCNT_COUNT : Fld := ⟨0, 32⟩
/-- R62. -/ abbrev GLB_CKCLR_RACE : Fld := ⟨6, 1⟩
/-- R62. -/ abbrev GLB_CKCLR_CK : Fld := ⟨0, 6⟩
/-- R63. -/ abbrev GLB_RACECNT_COUNT : Fld := ⟨0, 32⟩
/-- R144. -/ abbrev FP_CTL_DRV : Fld := ⟨4, 2⟩
/-- R144. -/ abbrev FP_CTL_MODE : Fld := ⟨1, 2⟩
/-- R144. -/ abbrev FP_CTL_EN : Fld := ⟨0, 1⟩
/-- R145. -/ abbrev FP_WCFG_SDLY : Fld := ⟨12, 3⟩
/-- R145. -/ abbrev FP_WCFG_SSDEC : Fld := ⟨10, 1⟩
/-- R145. -/ abbrev FP_WCFG_UNIT : Fld := ⟨4, 6⟩
/-- R145. -/ abbrev FP_WCFG_STREAM : Fld := ⟨3, 1⟩
/-- R145. -/ abbrev FP_WCFG_LSBF : Fld := ⟨2, 1⟩
/-- R145. -/ abbrev FP_WCFG_SPIMODE : Fld := ⟨0, 2⟩
/-- R146. -/ abbrev FP_BCFG_BEN : Fld := ⟨3, 1⟩
/-- R146. -/ abbrev FP_BCFG_AEN : Fld := ⟨2, 1⟩
/-- R146. -/ abbrev FP_BCFG_SEDGE : Fld := ⟨1, 1⟩
/-- R146. -/ abbrev FP_BCFG_CLKSRC : Fld := ⟨0, 1⟩
/-- R147. -/ abbrev FP_CLK_HALF : Fld := ⟨0, 12⟩
/-- R148. -/ abbrev FP_GAP_IDLE : Fld := ⟨16, 8⟩
/-- R148. -/ abbrev FP_GAP_HOLD : Fld := ⟨8, 8⟩
/-- R148. -/ abbrev FP_GAP_SETUP : Fld := ⟨0, 8⟩
/-- R149. -/ abbrev FP_SLEN_LEN : Fld := ⟨0, 13⟩
/-- R150. -/ abbrev FP_SS_DIPOL : Fld := ⟨11, 1⟩
/-- R150. -/ abbrev FP_SS_POL2 : Fld := ⟨10, 1⟩
/-- R150. -/ abbrev FP_SS_POL1 : Fld := ⟨9, 1⟩
/-- R150. -/ abbrev FP_SS_POL0 : Fld := ⟨8, 1⟩
/-- R150. -/ abbrev FP_SS_FN2 : Fld := ⟨4, 2⟩
/-- R150. -/ abbrev FP_SS_FN1 : Fld := ⟨2, 2⟩
/-- R150. -/ abbrev FP_SS_FN0 : Fld := ⟨0, 2⟩
/-- R151. -/ abbrev FP_RETRY_COUNT : Fld := ⟨16, 8⟩
/-- R151. -/ abbrev FP_RETRY_INTERVAL : Fld := ⟨0, 16⟩
/-- R152. -/ abbrev FP_TLIM_LIMIT : Fld := ⟨0, 16⟩
/-- R153. -/ abbrev FP_CLKMON_PMAX : Fld := ⟨16, 12⟩
/-- R153. -/ abbrev FP_CLKMON_PMIN : Fld := ⟨0, 12⟩
/-- R154. -/ abbrev FP_STUCK_RUN : Fld := ⟨16, 16⟩
/-- R154. -/ abbrev FP_STUCK_NONES : Fld := ⟨0, 4⟩
/-- R155. -/ abbrev FP_STAT_SLOTS : Fld := ⟨12, 8⟩
/-- R155. -/ abbrev FP_STAT_WVALID : Fld := ⟨11, 1⟩
/-- R155. -/ abbrev FP_STAT_WSLOT : Fld := ⟨8, 3⟩
/-- R155. -/ abbrev FP_STAT_RELSEQ : Fld := ⟨7, 1⟩
/-- R155. -/ abbrev FP_STAT_HOLD : Fld := ⟨6, 1⟩
/-- R155. -/ abbrev FP_STAT_BANKV : Fld := ⟨4, 2⟩
/-- R155. -/ abbrev FP_STAT_BANKOK : Fld := ⟨3, 1⟩
/-- R155. -/ abbrev FP_STAT_STUCK : Fld := ⟨2, 1⟩
/-- R155. -/ abbrev FP_STAT_CLKOK : Fld := ⟨1, 1⟩
/-- R155. -/ abbrev FP_STAT_BUSY : Fld := ⟨0, 1⟩
/-- R156. -/ abbrev FP_EVT_NRDY : Fld := ⟨9, 1⟩
/-- R156. -/ abbrev FP_EVT_CKP : Fld := ⟨8, 1⟩
/-- R156. -/ abbrev FP_EVT_RACE : Fld := ⟨7, 1⟩
/-- R156. -/ abbrev FP_EVT_BANK_DOWN : Fld := ⟨6, 1⟩
/-- R156. -/ abbrev FP_EVT_CLK_RANGE : Fld := ⟨5, 1⟩
/-- R156. -/ abbrev FP_EVT_CLK_LOST : Fld := ⟨4, 1⟩
/-- R156. -/ abbrev FP_EVT_STUCK : Fld := ⟨3, 1⟩
/-- R156. -/ abbrev FP_EVT_TOO_MANY : Fld := ⟨2, 1⟩
/-- R156. -/ abbrev FP_EVT_TOO_FEW : Fld := ⟨1, 1⟩
/-- R156. -/ abbrev FP_EVT_TIMEOUT : Fld := ⟨0, 1⟩
/-- R157. -/ abbrev FP_LAST_VALID : Fld := ⟨31, 1⟩
/-- R157. -/ abbrev FP_LAST_CTX : Fld := ⟨16, 9⟩
/-- R157. -/ abbrev FP_LAST_CAUSE : Fld := ⟨12, 4⟩
/-- R157. -/ abbrev FP_LAST_RACE : Fld := ⟨11, 1⟩
/-- R157. -/ abbrev FP_LAST_SEL : Fld := ⟨8, 3⟩
/-- R157. -/ abbrev FP_LAST_SLOT : Fld := ⟨4, 3⟩
/-- R157. -/ abbrev FP_LAST_OUTCOME : Fld := ⟨0, 4⟩
/-- R158. -/ abbrev FP_TSNS_NS : Fld := ⟨0, 32⟩
/-- R158. -/ abbrev FP_TSSEC_SEC : Fld := ⟨0, 32⟩
/-- R159. -/ abbrev FP_CNT_COUNT : Fld := ⟨0, 32⟩
/-- R160. -/ abbrev FP_CNTCLR_CLR : Fld := ⟨0, 6⟩
/-- R188. -/ abbrev CW_CTL_AUTOACC : Fld := ⟨2, 1⟩
/-- R188. -/ abbrev CW_CTL_IDEN : Fld := ⟨1, 1⟩
/-- R188. -/ abbrev CW_CTL_WEN : Fld := ⟨0, 1⟩
/-- R188. -/ abbrev CW_CMD_SROP : Fld := ⟨24, 8⟩
/-- R188. -/ abbrev CW_CMD_WEOP : Fld := ⟨16, 8⟩
/-- R188. -/ abbrev CW_CMD_WROP : Fld := ⟨8, 8⟩
/-- R188. -/ abbrev CW_CMD_RDOP : Fld := ⟨0, 8⟩
/-- R188. -/ abbrev CW_CFG_PAGEL : Fld := ⟨28, 4⟩
/-- R188. -/ abbrev CW_CFG_HALF : Fld := ⟨16, 12⟩
/-- R188. -/ abbrev CW_CFG_MAXB : Fld := ⟨8, 8⟩
/-- R188. -/ abbrev CW_CFG_DUMMY : Fld := ⟨4, 4⟩
/-- R188. -/ abbrev CW_CFG_ALEN : Fld := ⟨3, 1⟩
/-- R188. -/ abbrev CW_CFG_SEL : Fld := ⟨0, 3⟩
/-- R188. -/ abbrev CW_TLIM_WLIM : Fld := ⟨16, 16⟩
/-- R188. -/ abbrev CW_TLIM_LIMIT : Fld := ⟨0, 16⟩
/-- R188. -/ abbrev CW_ID_IDLEN : Fld := ⟨24, 8⟩
/-- R188. -/ abbrev CW_ID_IDADDR : Fld := ⟨0, 24⟩
/-- R188. -/ abbrev CW_PROBE_RECHK : Fld := ⟨16, 1⟩
/-- R188. -/ abbrev CW_PROBE_PERIOD : Fld := ⟨0, 16⟩
/-- R188. -/ abbrev CW_STAT_WIP : Fld := ⟨10, 1⟩
/-- R188. -/ abbrev CW_STAT_ST2 : Fld := ⟨8, 2⟩
/-- R188. -/ abbrev CW_STAT_ST1 : Fld := ⟨6, 2⟩
/-- R188. -/ abbrev CW_STAT_ST0 : Fld := ⟨4, 2⟩
/-- R188. -/ abbrev CW_STAT_QDEPTH : Fld := ⟨1, 3⟩
/-- R188. -/ abbrev CW_STAT_BUSY : Fld := ⟨0, 1⟩
/-- R188. -/ abbrev CW_EVT_ACCEPTED : Fld := ⟨5, 1⟩
/-- R188. -/ abbrev CW_EVT_WFAIL : Fld := ⟨4, 1⟩
/-- R188. -/ abbrev CW_EVT_RACE : Fld := ⟨3, 1⟩
/-- R188. -/ abbrev CW_EVT_ABSENT : Fld := ⟨2, 1⟩
/-- R188. -/ abbrev CW_EVT_SWAP : Fld := ⟨1, 1⟩
/-- R188. -/ abbrev CW_EVT_TMO : Fld := ⟨0, 1⟩
/-- R188. -/ abbrev CW_ACCEPT_ACC : Fld := ⟨0, 3⟩
/-- R188. -/ abbrev CW_CNT_RD_COUNT : Fld := ⟨0, 32⟩
/-- R188. -/ abbrev CW_CNT_SWAP_COUNT : Fld := ⟨0, 32⟩
/-- R188. -/ abbrev CW_CNTCLR_CLR : Fld := ⟨0, 2⟩
/-- R189. -/ abbrev CW_IDS_CTL_SEL : Fld := ⟨1, 3⟩
/-- R189. -/ abbrev CW_IDS_CTL_USE : Fld := ⟨0, 1⟩
/-- R189. -/ abbrev CW_IDS_REFLO_REF : Fld := ⟨0, 32⟩
/-- R189. -/ abbrev CW_IDS_REFHI_REF : Fld := ⟨0, 32⟩
/-- R189. -/ abbrev CW_IDS_SEENLO_SEEN : Fld := ⟨0, 32⟩
/-- R189. -/ abbrev CW_IDS_SEENHI_SEEN : Fld := ⟨0, 32⟩
/-- R191. -/ abbrev CTX_CTL_TRIGOWN : Fld := ⟨16, 4⟩
/-- R191. -/ abbrev CTX_CTL_CAL : Fld := ⟨10, 1⟩
/-- R191. -/ abbrev CTX_CTL_FMT : Fld := ⟨8, 2⟩
/-- R191. -/ abbrev CTX_CTL_TSSEL : Fld := ⟨6, 2⟩
/-- R191. -/ abbrev CTX_CTL_ZERO_VALID : Fld := ⟨5, 1⟩
/-- R191. -/ abbrev CTX_CTL_AUTOSTART : Fld := ⟨4, 1⟩
/-- R191. -/ abbrev CTX_BIND_FEN : Fld := ⟨31, 1⟩
/-- R191. -/ abbrev CTX_BIND_SLOT : Fld := ⟨24, 4⟩
/-- R191. -/ abbrev CTX_BIND_TPL : Fld := ⟨12, 10⟩
/-- R191. -/ abbrev CTX_BIND_SEL : Fld := ⟨6, 3⟩
/-- R191. -/ abbrev CTX_BIND_PORT : Fld := ⟨0, 6⟩
/-- R191. -/ abbrev CTX_CPERLO_PER : Fld := ⟨0, 32⟩
/-- R191. -/ abbrev CTX_CPERHI_BATCH : Fld := ⟨24, 8⟩
/-- R191. -/ abbrev CTX_CPERHI_PRESET : Fld := ⟨16, 3⟩
/-- R191. -/ abbrev CTX_CPERHI_PER : Fld := ⟨0, 10⟩
/-- R191. -/ abbrev CTX_APERLO_PER : Fld := ⟨0, 32⟩
/-- R191. -/ abbrev CTX_APERHI_BATCH : Fld := ⟨24, 8⟩
/-- R191. -/ abbrev CTX_APERHI_PRESET : Fld := ⟨16, 3⟩
/-- R191. -/ abbrev CTX_APERHI_PER : Fld := ⟨0, 10⟩
/-- R191. -/ abbrev CTX_PHLO_PHASE : Fld := ⟨0, 32⟩
/-- R191. -/ abbrev CTX_PHHI_LTOL : Fld := ⟨23, 9⟩
/-- R191. -/ abbrev CTX_PHHI_CUSTEP : Fld := ⟨16, 6⟩
/-- R191. -/ abbrev CTX_PHHI_PHASE : Fld := ⟨0, 10⟩
/-- R191. -/ abbrev CTX_MINSP_MINSP : Fld := ⟨0, 32⟩
/-- R191. -/ abbrev CTX_RULES_EVQ : Fld := ⟨24, 7⟩
/-- R191. -/ abbrev CTX_RULES_Q : Fld := ⟨16, 7⟩
/-- R191. -/ abbrev CTX_RULES_RCNT : Fld := ⟨10, 5⟩
/-- R191. -/ abbrev CTX_RULES_RBASE : Fld := ⟨0, 10⟩
/-- R191. -/ abbrev CTX_GAIN_GAIN : Fld := ⟨0, 32⟩
/-- R191. -/ abbrev CTX_OFFS_OFFS : Fld := ⟨0, 32⟩
/-- R191. -/ abbrev CTX_STAT_STATE : Fld := ⟨29, 3⟩
/-- R191. -/ abbrev CTX_STAT_PROF : Fld := ⟨28, 1⟩
/-- R191. -/ abbrev CTX_STAT_INFLIGHT : Fld := ⟨27, 1⟩
/-- R191. -/ abbrev CTX_STAT_HELD : Fld := ⟨26, 1⟩
/-- R191. -/ abbrev CTX_STAT_CU : Fld := ⟨25, 1⟩
/-- R191. -/ abbrev CTX_STAT_NEXTTN : Fld := ⟨0, 16⟩
/-- R191. -/ abbrev CTX_LAG_LAG : Fld := ⟨0, 32⟩
/-- R191. -/ abbrev CTX_CNT_LATE : Fld := ⟨16, 16⟩
/-- R191. -/ abbrev CTX_CNT_CU : Fld := ⟨0, 16⟩
/-- R191. -/ abbrev CTX_POLLS_COUNT : Fld := ⟨0, 32⟩
/-- R242. -/ abbrev FT_SQ_CTL_WARN : Fld := ⟨0, 12⟩
/-- R242. -/ abbrev FT_SQ_EVT_SLOTWAIT : Fld := ⟨8, 8⟩
/-- R242. -/ abbrev FT_SQ_EVT_LOADHI : Fld := ⟨0, 8⟩
/-- R242. -/ abbrev FT_SQ_TPS_TPS : Fld := ⟨0, 22⟩
/-- R242. -/ abbrev SQ_DEMAND_DEMAND : Fld := ⟨0, 16⟩
/-- R242. -/ abbrev SQ_LOAD_LOAD : Fld := ⟨0, 16⟩
/-- R242. -/ abbrev SQ_PEAK_PEAK : Fld := ⟨0, 16⟩
/-- R242. -/ abbrev SQ_MAXLAG_LAG : Fld := ⟨0, 32⟩
/-- R242. -/ abbrev SQ_CNT_LATE_COUNT : Fld := ⟨0, 32⟩
/-- R242. -/ abbrev SQ_CNT_CU_COUNT : Fld := ⟨0, 32⟩
/-- R242. -/ abbrev SQ_CLR_CLR : Fld := ⟨0, 4⟩
/-- R242. -/ abbrev SQ_SLOT_VALID : Fld := ⟨31, 1⟩
/-- R242. -/ abbrev SQ_SLOT_WAIT : Fld := ⟨28, 3⟩
/-- R242. -/ abbrev SQ_SLOT_STEP : Fld := ⟨24, 4⟩
/-- R242. -/ abbrev SQ_SLOT_CTX : Fld := ⟨0, 9⟩
/-- R243. -/ abbrev FH_CTXUSE_RESV : Fld := ⟨16, 10⟩
/-- R243. -/ abbrev FH_CTXUSE_USED : Fld := ⟨0, 10⟩
/-- R243. -/ abbrev FH_CTXREF_COUNT : Fld := ⟨0, 32⟩
/-- R243. -/ abbrev FH_CONFREF_COUNT : Fld := ⟨0, 32⟩
/-- R243. -/ abbrev FH_CTXCLR_CLR : Fld := ⟨0, 2⟩
/-- R292. -/ abbrev FT_FLT_CTL_EN : Fld := ⟨0, 1⟩
/-- R292. -/ abbrev FT_FLT_STAT_BOUND : Fld := ⟨0, 16⟩
/-- R292. -/ abbrev FT_FLT_EVT_SWAPDONE : Fld := ⟨4, 1⟩
/-- R292. -/ abbrev FT_FLT_EVT_MARKIN : Fld := ⟨3, 1⟩
/-- R292. -/ abbrev FT_FLT_EVT_DBE : Fld := ⟨2, 1⟩
/-- R292. -/ abbrev FT_FLT_EVT_SBE : Fld := ⟨1, 1⟩
/-- R292. -/ abbrev FT_FLT_EVT_CKA : Fld := ⟨0, 1⟩
/-- R292. -/ abbrev FT_FLT_BANK_SWAP : Fld := ⟨1, 1⟩
/-- R292. -/ abbrev FT_FLT_BANK_ACTIVE : Fld := ⟨0, 1⟩
/-- R292. -/ abbrev FT_FLT_LOAD_LOAD : Fld := ⟨0, 12⟩
/-- R292. -/ abbrev FT_FLT_CNT_CKA_COUNT : Fld := ⟨0, 32⟩
/-- R292. -/ abbrev FT_FLT_CNT_SBE_COUNT : Fld := ⟨0, 32⟩
/-- R292. -/ abbrev FT_FLT_CNT_DBE_COUNT : Fld := ⟨0, 32⟩
/-- R292. -/ abbrev FT_FLT_CNTCLR_CLR : Fld := ⟨0, 3⟩
/-- R292. -/ abbrev FT_FLT_COEF_COEF : Fld := ⟨0, 32⟩
/-- R292. -/ abbrev FT_FLT_ACOEF_COEF : Fld := ⟨0, 32⟩
/-- R293. -/ abbrev FT_SLOT_OSHIFT : Fld := ⟨8, 4⟩
/-- R293. -/ abbrev FT_SLOT_DELIVUNS : Fld := ⟨4, 1⟩
/-- R293. -/ abbrev FT_SLOT_COEF : Fld := ⟨3, 1⟩
/-- R293. -/ abbrev FT_SLOT_SCS : Fld := ⟨1, 1⟩
/-- R293. -/ abbrev FT_SLOT_ALIGN : Fld := ⟨0, 1⟩
/-- R293. -/ abbrev FT_SLOT_BIND_BOUND : Fld := ⟨31, 1⟩
/-- R293. -/ abbrev FT_SLOT_BIND_BIT : Fld := ⟨30, 1⟩
/-- R293. -/ abbrev FT_SLOT_BIND_PRESET : Fld := ⟨26, 3⟩
/-- R293. -/ abbrev FT_SLOT_BIND_CTX : Fld := ⟨16, 9⟩
/-- R293. -/ abbrev FT_SLOT_BIND_SKEW : Fld := ⟨0, 5⟩
/-- R293. -/ abbrev FT_SLOT_STAT_SATC : Fld := ⟨24, 8⟩
/-- R293. -/ abbrev FT_SLOT_STAT_UNS : Fld := ⟨8, 8⟩
/-- R293. -/ abbrev FT_SLOT_STAT_BANK : Fld := ⟨2, 1⟩
/-- R293. -/ abbrev FT_SLOT_STAT_MARKING : Fld := ⟨1, 1⟩
/-- R293. -/ abbrev FT_SLOT_STAT_RUN : Fld := ⟨0, 1⟩
/-- R293. -/ abbrev FT_SLOT_OUT_COUNT : Fld := ⟨0, 32⟩
/-- R293. -/ abbrev FT_SLOT_MARK_COUNT : Fld := ⟨0, 32⟩
/-- R293. -/ abbrev FT_SLOT_INSNS_NS : Fld := ⟨0, 32⟩
/-- R293. -/ abbrev FT_SLOT_INSSEC_SEC : Fld := ⟨0, 32⟩
/-- R293. -/ abbrev FT_SLOT_CLR_CLR : Fld := ⟨0, 2⟩
/-- R364. -/ abbrev TB_CTL_WAKESTEP : Fld := ⟨6, 1⟩
/-- R364. -/ abbrev TB_CTL_INITSTEP : Fld := ⟨5, 1⟩
/-- R364. -/ abbrev TB_CTL_SRC : Fld := ⟨1, 3⟩
/-- R364. -/ abbrev TB_CTL_EN : Fld := ⟨0, 1⟩
/-- R364. -/ abbrev TB_STAT_LOCKCNT : Fld := ⟨8, 8⟩
/-- R364. -/ abbrev TB_STAT_ISTEPDONE : Fld := ⟨7, 1⟩
/-- R364. -/ abbrev TB_STAT_OSCF : Fld := ⟨6, 1⟩
/-- R364. -/ abbrev TB_STAT_OSCH : Fld := ⟨5, 1⟩
/-- R364. -/ abbrev TB_STAT_PEND : Fld := ⟨4, 1⟩
/-- R364. -/ abbrev TB_STAT_FSTATE : Fld := ⟨2, 2⟩
/-- R364. -/ abbrev TB_STAT_STATE : Fld := ⟨0, 2⟩
/-- R364. -/ abbrev TB_EVT_MISSED : Fld := ⟨9, 1⟩
/-- R364. -/ abbrev TB_EVT_RACE : Fld := ⟨8, 1⟩
/-- R364. -/ abbrev TB_EVT_PPSREJ : Fld := ⟨7, 1⟩
/-- R364. -/ abbrev TB_EVT_OSCFAIL_F : Fld := ⟨6, 1⟩
/-- R364. -/ abbrev TB_EVT_OSCFAIL_H : Fld := ⟨5, 1⟩
/-- R364. -/ abbrev TB_EVT_FHOLD : Fld := ⟨4, 1⟩
/-- R364. -/ abbrev TB_EVT_HOLDOVER : Fld := ⟨3, 1⟩
/-- R364. -/ abbrev TB_EVT_LOCK : Fld := ⟨2, 1⟩
/-- R364. -/ abbrev TB_EVT_STEPPED : Fld := ⟨1, 1⟩
/-- R364. -/ abbrev TB_EVT_STEP_REFUSED : Fld := ⟨0, 1⟩
/-- R364. -/ abbrev TB_STEP_LIM_LIM : Fld := ⟨0, 32⟩
/-- R364. -/ abbrev TB_KP_KP : Fld := ⟨0, 32⟩
/-- R364. -/ abbrev TB_KI_KI : Fld := ⟨0, 32⟩
/-- R364. -/ abbrev TB_LOCK_LOCKN : Fld := ⟨24, 8⟩
/-- R364. -/ abbrev TB_LOCK_THR : Fld := ⟨0, 24⟩
/-- R364. -/ abbrev TB_HOLD_REFN : Fld := ⟨24, 8⟩
/-- R364. -/ abbrev TB_HOLD_TMO : Fld := ⟨0, 16⟩
/-- R364. -/ abbrev TB_NOWNS_NS : Fld := ⟨0, 32⟩
/-- R364. -/ abbrev TB_NOWFRAC_FRAC : Fld := ⟨0, 16⟩
/-- R364. -/ abbrev TB_NOWSECLO_SEC : Fld := ⟨0, 32⟩
/-- R364. -/ abbrev TB_NOWSECHI_SEC : Fld := ⟨0, 32⟩
/-- R364. -/ abbrev TB_FREQ_FREQ : Fld := ⟨0, 32⟩
/-- R364. -/ abbrev TB_OFFS_THETA : Fld := ⟨0, 32⟩
/-- R364. -/ abbrev TB_FOFFS_FOFF : Fld := ⟨0, 16⟩
/-- R364. -/ abbrev TB_CNT_REF_COUNT : Fld := ⟨0, 32⟩
/-- R364. -/ abbrev TB_CNT_STEP_COUNT : Fld := ⟨0, 32⟩
/-- R364. -/ abbrev TB_CNT_PPSREJ_COUNT : Fld := ⟨0, 32⟩
/-- R364. -/ abbrev TB_CLR_CLR : Fld := ⟨0, 3⟩
/-- R364. -/ abbrev TB_CLK_RETRYF : Fld := ⟨1, 1⟩
/-- R364. -/ abbrev TB_CLK_RETRYH : Fld := ⟨0, 1⟩
/-- R364. -/ abbrev TB_PPSIN_EN : Fld := ⟨17, 1⟩
/-- R364. -/ abbrev TB_PPSIN_POL : Fld := ⟨16, 1⟩
/-- R364. -/ abbrev TB_PPSIN_DLY : Fld := ⟨0, 16⟩
/-- R364. -/ abbrev TB_PPSNS_NS : Fld := ⟨0, 32⟩
/-- R364. -/ abbrev TB_PPSSEC_SEC : Fld := ⟨0, 32⟩
/-- R364. -/ abbrev TB_AOC_RATIO_RATIO : Fld := ⟨0, 32⟩
/-- R364. -/ abbrev TB_AOCLO_CNT : Fld := ⟨0, 32⟩
/-- R364. -/ abbrev TB_AOCHI_CNT : Fld := ⟨0, 16⟩
/-- R364. -/ abbrev TB_LASTSLP_MS : Fld := ⟨0, 32⟩
/-- R365. -/ abbrev TB_PTP_CTL_DOMAIN : Fld := ⟨16, 8⟩
/-- R365. -/ abbrev TB_PTP_CTL_TC : Fld := ⟨5, 1⟩
/-- R365. -/ abbrev TB_PTP_CTL_MCAP : Fld := ⟨4, 1⟩
/-- R365. -/ abbrev TB_PTP_CTL_DELAY : Fld := ⟨3, 1⟩
/-- R365. -/ abbrev TB_PTP_CTL_ONESTEP : Fld := ⟨2, 1⟩
/-- R365. -/ abbrev TB_PTP_CTL_PORT : Fld := ⟨1, 1⟩
/-- R365. -/ abbrev TB_PTP_CTL_EN : Fld := ⟨0, 1⟩
/-- R365. -/ abbrev TB_PTP_INT_ARTO : Fld := ⟨24, 8⟩
/-- R365. -/ abbrev TB_PTP_INT_LOGANN : Fld := ⟨16, 8⟩
/-- R365. -/ abbrev TB_PTP_INT_LOGDREQ : Fld := ⟨8, 8⟩
/-- R365. -/ abbrev TB_PTP_INT_LOGSYNC : Fld := ⟨0, 8⟩
/-- R365. -/ abbrev TB_PTP_DS_PRIO1 : Fld := ⟨24, 8⟩
/-- R365. -/ abbrev TB_PTP_DS_PRIO2 : Fld := ⟨16, 8⟩
/-- R365. -/ abbrev TB_PTP_DS_CLASS : Fld := ⟨8, 8⟩
/-- R365. -/ abbrev TB_PTP_DS_ACC : Fld := ⟨0, 8⟩
/-- R365. -/ abbrev TB_PTP_VAR_VAR : Fld := ⟨0, 16⟩
/-- R365. -/ abbrev TB_PTP_ASYM_ASYM : Fld := ⟨0, 32⟩
/-- R365. -/ abbrev TB_PTP_LAT_TX : Fld := ⟨16, 16⟩
/-- R365. -/ abbrev TB_PTP_LAT_RX : Fld := ⟨0, 16⟩
/-- R365. -/ abbrev TB_PTP_STAT_UTCOFF : Fld := ⟨16, 16⟩
/-- R365. -/ abbrev TB_PTP_STAT_UTCVALID : Fld := ⟨4, 1⟩
/-- R365. -/ abbrev TB_PTP_STAT_PSTATE : Fld := ⟨0, 4⟩
/-- R365. -/ abbrev TB_PTP_GMLO_GMID : Fld := ⟨0, 32⟩
/-- R365. -/ abbrev TB_PTP_GMHI_GMID : Fld := ⟨0, 32⟩
/-- R365. -/ abbrev TB_PTP_IDLO_ID : Fld := ⟨0, 32⟩
/-- R365. -/ abbrev TB_PTP_IDHI_ID : Fld := ⟨0, 32⟩
/-- R365. -/ abbrev TB_PTP_MPD_MPD : Fld := ⟨0, 32⟩
/-- R365. -/ abbrev TB_PTP_CNT_COUNT : Fld := ⟨0, 32⟩
/-- R365. -/ abbrev TB_PTP_CLR_CLR : Fld := ⟨0, 4⟩
/-- R366. -/ abbrev TB_PLS_CTL_POL : Fld := ⟨3, 1⟩
/-- R366. -/ abbrev TB_PLS_CTL_MODE : Fld := ⟨1, 2⟩
/-- R366. -/ abbrev TB_PLS_CTL_EN : Fld := ⟨0, 1⟩
/-- R366. -/ abbrev TB_PLS_SECLO_SEC : Fld := ⟨0, 32⟩
/-- R366. -/ abbrev TB_PLS_SECHI_SEC : Fld := ⟨0, 32⟩
/-- R366. -/ abbrev TB_PLS_NS_NS : Fld := ⟨0, 32⟩
/-- R366. -/ abbrev TB_PLS_PERLO_PER : Fld := ⟨0, 32⟩
/-- R366. -/ abbrev TB_PLS_PERHI_PER : Fld := ⟨0, 10⟩
/-- R366. -/ abbrev TB_PLS_WIDTH_WIDTH : Fld := ⟨0, 32⟩
/-- R366. -/ abbrev TB_PLS_LASTNS_NS : Fld := ⟨0, 32⟩
/-- R366. -/ abbrev TB_PLS_LASTSEC_SEC : Fld := ⟨0, 32⟩
/-- R366. -/ abbrev TB_PLS_CNT_MISSED : Fld := ⟨16, 16⟩
/-- R366. -/ abbrev TB_PLS_CNT_DROP : Fld := ⟨0, 16⟩
/-- R366. -/ abbrev TB_PLS_CLR_CLR : Fld := ⟨0, 1⟩
/-- R407. -/ abbrev FT_TM_SNAP_SNAP : Fld := ⟨0, 8⟩
/-- R407. -/ abbrev FT_TM_SNAPNS_NS : Fld := ⟨0, 32⟩
/-- R407. -/ abbrev FT_TM_SNAPSEC_SEC : Fld := ⟨0, 32⟩
/-- R407. -/ abbrev FT_TM_CLR_CLR : Fld := ⟨0, 8⟩
/-- R408. -/ abbrev FT_TMC_CTL_POL : Fld := ⟨18, 1⟩
/-- R408. -/ abbrev FT_TMC_CTL_OUTACT : Fld := ⟨15, 3⟩
/-- R408. -/ abbrev FT_TMC_CTL_PIN : Fld := ⟨12, 2⟩
/-- R408. -/ abbrev FT_TMC_CTL_EDGE : Fld := ⟨10, 2⟩
/-- R408. -/ abbrev FT_TMC_CTL_CAPEN : Fld := ⟨9, 1⟩
/-- R408. -/ abbrev FT_TMC_CTL_SLPACC : Fld := ⟨8, 1⟩
/-- R408. -/ abbrev FT_TMC_CTL_DBGRUN : Fld := ⟨7, 1⟩
/-- R408. -/ abbrev FT_TMC_CTL_ADDON : Fld := ⟨5, 2⟩
/-- R408. -/ abbrev FT_TMC_CTL_CMPMODE : Fld := ⟨4, 1⟩
/-- R408. -/ abbrev FT_TMC_CTL_LINK : Fld := ⟨3, 1⟩
/-- R408. -/ abbrev FT_TMC_CTL_SRC : Fld := ⟨1, 2⟩
/-- R408. -/ abbrev FT_TMC_CTL_EN : Fld := ⟨0, 1⟩
/-- R408. -/ abbrev FT_TMC_PRESC_PRESC : Fld := ⟨0, 16⟩
/-- R408. -/ abbrev FT_TMC_INCFG_NDIV : Fld := ⟨8, 8⟩
/-- R408. -/ abbrev FT_TMC_INCFG_FILT : Fld := ⟨0, 4⟩
/-- R408. -/ abbrev FT_TMC_PWID_PWID : Fld := ⟨0, 16⟩
/-- R408. -/ abbrev FT_TMC_CNT_CNT : Fld := ⟨0, 32⟩
/-- R408. -/ abbrev FT_TMC_CMP_CMP : Fld := ⟨0, 32⟩
/-- R408. -/ abbrev FT_TMC_CMPSH_CMPSH : Fld := ⟨0, 32⟩
/-- R408. -/ abbrev FT_TMC_INTV_INTV : Fld := ⟨0, 32⟩
/-- R408. -/ abbrev FT_TMC_CAP_CAP : Fld := ⟨0, 32⟩
/-- R408. -/ abbrev FT_TMC_CAPNS_NS : Fld := ⟨0, 32⟩
/-- R408. -/ abbrev FT_TMC_CAPSEC_SEC : Fld := ⟨0, 32⟩
/-- R408. -/ abbrev FT_TMC_SNAP_SNAP : Fld := ⟨0, 32⟩
/-- R408. -/ abbrev FT_TMC_STAT_OWNER : Fld := ⟨4, 3⟩
/-- R408. -/ abbrev FT_TMC_STAT_LINKED : Fld := ⟨3, 1⟩
/-- R408. -/ abbrev FT_TMC_STAT_FROZEN : Fld := ⟨2, 1⟩
/-- R408. -/ abbrev FT_TMC_STAT_PEND : Fld := ⟨1, 1⟩
/-- R408. -/ abbrev FT_TMC_STAT_RUN : Fld := ⟨0, 1⟩
/-- R408. -/ abbrev FT_TMC_EVT_NOSTAMP : Fld := ⟨5, 1⟩
/-- R408. -/ abbrev FT_TMC_EVT_MISSED_ASLEEP : Fld := ⟨4, 1⟩
/-- R408. -/ abbrev FT_TMC_EVT_CAPOVR : Fld := ⟨3, 1⟩
/-- R408. -/ abbrev FT_TMC_EVT_CAP : Fld := ⟨2, 1⟩
/-- R408. -/ abbrev FT_TMC_EVT_OVF : Fld := ⟨1, 1⟩
/-- R408. -/ abbrev FT_TMC_EVT_MATCH : Fld := ⟨0, 1⟩
/-- R408. -/ abbrev FT_TMC_MATCHES_COUNT : Fld := ⟨0, 32⟩
/-- R408. -/ abbrev FT_TMC_MISS_MISSED : Fld := ⟨16, 16⟩
/-- R408. -/ abbrev FT_TMC_MISS_CAPOVR : Fld := ⟨0, 16⟩
/-- R454. -/ abbrev SV_CTL_EN : Fld := ⟨0, 1⟩
/-- R454. -/ abbrev SV_STAT_SPAREUSED : Fld := ⟨31, 1⟩
/-- R454. -/ abbrev SV_STAT_ACTIVE : Fld := ⟨0, 17⟩
/-- R454. -/ abbrev SV_EVT_DBE : Fld := ⟨7, 1⟩
/-- R454. -/ abbrev SV_EVT_SENT : Fld := ⟨6, 1⟩
/-- R454. -/ abbrev SV_EVT_SPDROP : Fld := ⟨5, 1⟩
/-- R454. -/ abbrev SV_EVT_SNDROP : Fld := ⟨4, 1⟩
/-- R454. -/ abbrev SV_EVT_TAINT : Fld := ⟨3, 1⟩
/-- R454. -/ abbrev SV_EVT_WAKE : Fld := ⟨2, 1⟩
/-- R454. -/ abbrev SV_EVT_RETIRE : Fld := ⟨1, 1⟩
/-- R454. -/ abbrev SV_EVT_FIRE : Fld := ⟨0, 1⟩
/-- R454. -/ abbrev SV_IRQ_EN : Fld := ⟨8, 4⟩
/-- R454. -/ abbrev SV_IRQ_PEND : Fld := ⟨0, 4⟩
/-- R454. -/ abbrev SV_CNT_FIRE_COUNT : Fld := ⟨0, 32⟩
/-- R454. -/ abbrev SV_CNT_TAINT_COUNT : Fld := ⟨0, 32⟩
/-- R454. -/ abbrev SV_CNT_DBE_COUNT : Fld := ⟨0, 32⟩
/-- R454. -/ abbrev SV_CLR_CLR : Fld := ⟨0, 3⟩
/-- R455. -/ abbrev SV_ENG_STAT_STATE : Fld := ⟨30, 2⟩
/-- R455. -/ abbrev SV_ENG_STAT_TOOK : Fld := ⟨24, 5⟩
/-- R455. -/ abbrev SV_ENG_STAT_CTXS : Fld := ⟨0, 10⟩
/-- R455. -/ abbrev SV_ENG_LOAD_LOAD : Fld := ⟨0, 32⟩
/-- R455. -/ abbrev SV_ENG_CNT_COUNT : Fld := ⟨0, 32⟩
/-- R455. -/ abbrev SV_SPU_STAT_RATE : Fld := ⟨16, 16⟩
/-- R455. -/ abbrev SV_SPU_STAT_DEPTH : Fld := ⟨0, 4⟩
/-- R455. -/ abbrev SV_SPU_CNT_COUNT : Fld := ⟨0, 32⟩
/-- R455. -/ abbrev SV_SPU_DROP_COUNT : Fld := ⟨0, 32⟩
/-- R455. -/ abbrev SV_SENT_CTL_EN : Fld := ⟨31, 1⟩
/-- R455. -/ abbrev SV_SENT_CTL_WIN : Fld := ⟨16, 6⟩
/-- R455. -/ abbrev SV_SENT_CTL_RULE : Fld := ⟨9, 4⟩
/-- R455. -/ abbrev SV_SENT_CTL_CTX : Fld := ⟨0, 9⟩
/-- R455. -/ abbrev SV_SENT_PER_PER : Fld := ⟨0, 16⟩
/-- R455. -/ abbrev SV_SENT_STAT_STATE : Fld := ⟨30, 2⟩
/-- R455. -/ abbrev SV_SENT_STAT_FIRES : Fld := ⟨0, 16⟩
/-- R456. -/ abbrev SV_CX_SPCFG_EN : Fld := ⟨31, 1⟩
/-- R456. -/ abbrev SV_CX_SPCFG_CH : Fld := ⟨25, 3⟩
/-- R456. -/ abbrev SV_CX_SPCFG_WINF : Fld := ⟨23, 2⟩
/-- R456. -/ abbrev SV_CX_SPCFG_HOP : Fld := ⟨21, 2⟩
/-- R456. -/ abbrev SV_CX_SPCFG_SPEVERY : Fld := ⟨8, 8⟩
/-- R456. -/ abbrev SV_CX_SNCFG_RINGL : Fld := ⟨28, 4⟩
/-- R456. -/ abbrev SV_CX_SNCFG_PRE : Fld := ⟨16, 12⟩
/-- R456. -/ abbrev SV_CX_SNCFG_POST : Fld := ⟨0, 12⟩
/-- R456. -/ abbrev SV_CX_STAT_ASSIGNED : Fld := ⟨31, 1⟩
/-- R456. -/ abbrev SV_CX_STAT_ENG : Fld := ⟨26, 5⟩
/-- R456. -/ abbrev SV_CX_STAT_SPU : Fld := ⟨25, 1⟩
/-- R456. -/ abbrev SV_CX_STAT_SNBUSY : Fld := ⟨24, 1⟩
/-- R456. -/ abbrev SV_CX_STAT_SNAPS : Fld := ⟨0, 16⟩
/-- R456. -/ abbrev SV_CX_DROP_SNDROP : Fld := ⟨16, 16⟩
/-- R456. -/ abbrev SV_CX_DROP_SPDROP : Fld := ⟨0, 16⟩
/-- R458. -/ abbrev SVR_CFG_FEAT : Fld := ⟨28, 4⟩
/-- R458. -/ abbrev SVR_CFG_CH : Fld := ⟨25, 3⟩
/-- R458. -/ abbrev SVR_CFG_CMP : Fld := ⟨23, 2⟩
/-- R458. -/ abbrev SVR_CFG_PROF : Fld := ⟨21, 2⟩
/-- R458. -/ abbrev SVR_CFG_COMB : Fld := ⟨19, 2⟩
/-- R458. -/ abbrev SVR_CFG_PSEL : Fld := ⟨16, 3⟩
/-- R458. -/ abbrev SVR_CFG_DON : Fld := ⟨8, 8⟩
/-- R458. -/ abbrev SVR_CFG_DOFF : Fld := ⟨0, 8⟩
/-- R458. -/ abbrev SVR_WIN_P1V : Fld := ⟨31, 1⟩
/-- R458. -/ abbrev SVR_WIN_P1 : Fld := ⟨27, 4⟩
/-- R458. -/ abbrev SVR_WIN_P2V : Fld := ⟨26, 1⟩
/-- R458. -/ abbrev SVR_WIN_P2 : Fld := ⟨22, 4⟩
/-- R458. -/ abbrev SVR_WIN_P3V : Fld := ⟨21, 1⟩
/-- R458. -/ abbrev SVR_WIN_P3 : Fld := ⟨17, 4⟩
/-- R458. -/ abbrev SVR_WIN_WIN : Fld := ⟨0, 17⟩
/-- R458. -/ abbrev SVR_PAR_PAR : Fld := ⟨0, 32⟩
/-- R458. -/ abbrev SVR_T1_T1 : Fld := ⟨0, 32⟩
/-- R458. -/ abbrev SVR_T2_T2 : Fld := ⟨0, 32⟩
/-- R458. -/ abbrev SVR_HYS_HYS : Fld := ⟨0, 32⟩
/-- R458. -/ abbrev SVR_ACT_SEQT : Fld := ⟨10, 22⟩
/-- R458. -/ abbrev SVR_ACT_IRQSEL : Fld := ⟨8, 2⟩
/-- R458. -/ abbrev SVR_ACT_MASK : Fld := ⟨0, 8⟩
/-- R458. -/ abbrev SVR_STAT_STATE : Fld := ⟨30, 2⟩
/-- R458. -/ abbrev SVR_STAT_RES : Fld := ⟨29, 1⟩
/-- R458. -/ abbrev SVR_STAT_TAINT : Fld := ⟨28, 1⟩
/-- R458. -/ abbrev SVR_STAT_DCNT : Fld := ⟨20, 8⟩
/-- R458. -/ abbrev SVR_STAT_SEQJ : Fld := ⟨18, 2⟩
/-- R458. -/ abbrev SVR_STAT_RISES : Fld := ⟨0, 16⟩
/-- R505. -/ abbrev TR_STAT_RSFILL : Fld := ⟨0, 17⟩
/-- R505. -/ abbrev TR_POOL_SIZE : Fld := ⟨16, 12⟩
/-- R505. -/ abbrev TR_POOL_BASE : Fld := ⟨0, 11⟩
/-- R505. -/ abbrev TR_SPWS_SIZE : Fld := ⟨16, 12⟩
/-- R505. -/ abbrev TR_SPWS_BASE : Fld := ⟨0, 11⟩
/-- R505. -/ abbrev TR_POOLFREE_FREE : Fld := ⟨16, 12⟩
/-- R505. -/ abbrev TR_POOLFREE_RUN : Fld := ⟨0, 12⟩
/-- R505. -/ abbrev TR_EVT_CAPPED : Fld := ⟨3, 1⟩
/-- R505. -/ abbrev TR_EVT_DBE : Fld := ⟨2, 1⟩
/-- R505. -/ abbrev TR_EVT_SBE : Fld := ⟨1, 1⟩
/-- R505. -/ abbrev TR_EVT_EARLY : Fld := ⟨0, 1⟩
/-- R505. -/ abbrev TR_CNT_SBE_COUNT : Fld := ⟨0, 32⟩
/-- R505. -/ abbrev TR_CNT_DBE_COUNT : Fld := ⟨0, 32⟩
/-- R505. -/ abbrev TR_CNT_EARLY_COUNT : Fld := ⟨0, 32⟩
/-- R505. -/ abbrev TR_CLR_CLR : Fld := ⟨0, 3⟩
/-- R506. -/ abbrev Q_CFG_EN : Fld := ⟨31, 1⟩
/-- R506. -/ abbrev Q_CFG_POLICY : Fld := ⟨30, 1⟩
/-- R506. -/ abbrev Q_CFG_HWAKE : Fld := ⟨29, 1⟩
/-- R506. -/ abbrev Q_CFG_LWAKE : Fld := ⟨28, 1⟩
/-- R506. -/ abbrev Q_CFG_SUBS : Fld := ⟨24, 4⟩
/-- R506. -/ abbrev Q_CFG_SIZE : Fld := ⟨12, 12⟩
/-- R506. -/ abbrev Q_CFG_BASE : Fld := ⟨0, 11⟩
/-- R506. -/ abbrev Q_WM_HWM : Fld := ⟨16, 16⟩
/-- R506. -/ abbrev Q_WM_LWM : Fld := ⟨0, 16⟩
/-- R506. -/ abbrev Q_ORD_MODE : Fld := ⟨31, 1⟩
/-- R506. -/ abbrev Q_ORD_HOR : Fld := ⟨0, 12⟩
/-- R506. -/ abbrev Q_LAMBDA_CAPPED : Fld := ⟨31, 1⟩
/-- R506. -/ abbrev Q_LAMBDA_LAMBDA : Fld := ⟨0, 20⟩
/-- R506. -/ abbrev Q_STAT_HELD : Fld := ⟨31, 1⟩
/-- R506. -/ abbrev Q_STAT_FILL : Fld := ⟨0, 20⟩
/-- R506. -/ abbrev Q_WR_OFFS : Fld := ⟨0, 23⟩
/-- R506. -/ abbrev Q_EVT_LORD : Fld := ⟨5, 1⟩
/-- R506. -/ abbrev Q_EVT_OVW : Fld := ⟨4, 1⟩
/-- R506. -/ abbrev Q_EVT_DROP : Fld := ⟨3, 1⟩
/-- R506. -/ abbrev Q_EVT_HOLD : Fld := ⟨2, 1⟩
/-- R506. -/ abbrev Q_EVT_LWM : Fld := ⟨1, 1⟩
/-- R506. -/ abbrev Q_EVT_HWM : Fld := ⟨0, 1⟩
/-- R506. -/ abbrev Q_CNT_REC_COUNT : Fld := ⟨0, 32⟩
/-- R506. -/ abbrev Q_CNT_DROP_COUNT : Fld := ⟨0, 32⟩
/-- R506. -/ abbrev Q_CNT_OVW_COUNT : Fld := ⟨0, 32⟩
/-- R506. -/ abbrev Q_CNT_LORD_COUNT : Fld := ⟨0, 32⟩
/-- R506. -/ abbrev Q_MARKNS_NS : Fld := ⟨0, 32⟩
/-- R506. -/ abbrev Q_MARKSEC_SEC : Fld := ⟨0, 32⟩
/-- R506. -/ abbrev Q_CLR_CLR : Fld := ⟨0, 4⟩
/-- R507. -/ abbrev TR_SUB_DLV_OFFS : Fld := ⟨0, 23⟩
/-- R507. -/ abbrev TR_SUB_ACK_OFFS : Fld := ⟨0, 23⟩
/-- R572. -/ abbrev P_CTL_EN : Fld := ⟨0, 1⟩
/-- R572. -/ abbrev P_PERM_MASK : Fld := ⟨0, 15⟩
/-- R572. -/ abbrev P_KEY_KEN : Fld := ⟨8, 1⟩
/-- R572. -/ abbrev P_KEY_KSLOT : Fld := ⟨0, 3⟩
/-- R572. -/ abbrev P_STAT_OUTST : Fld := ⟨16, 6⟩
/-- R572. -/ abbrev P_STAT_RESPN : Fld := ⟨8, 6⟩
/-- R572. -/ abbrev P_STAT_UP : Fld := ⟨0, 1⟩
/-- R572. -/ abbrev P_EVT_BADSTART : Fld := ⟨11, 1⟩
/-- R572. -/ abbrev P_EVT_RACE : Fld := ⟨10, 1⟩
/-- R572. -/ abbrev P_EVT_LINKCHG : Fld := ⟨9, 1⟩
/-- R572. -/ abbrev P_EVT_LOST : Fld := ⟨8, 1⟩
/-- R572. -/ abbrev P_EVT_FRAG : Fld := ⟨7, 1⟩
/-- R572. -/ abbrev P_EVT_EXTRA : Fld := ⟨6, 1⟩
/-- R572. -/ abbrev P_EVT_SHORT : Fld := ⟨5, 1⟩
/-- R572. -/ abbrev P_EVT_TRUNC : Fld := ⟨4, 1⟩
/-- R572. -/ abbrev P_EVT_DENIED : Fld := ⟨3, 1⟩
/-- R572. -/ abbrev P_EVT_REPLAY : Fld := ⟨2, 1⟩
/-- R572. -/ abbrev P_EVT_AUTH : Fld := ⟨1, 1⟩
/-- R572. -/ abbrev P_EVT_CRC : Fld := ⟨0, 1⟩
/-- R572. -/ abbrev P_CNT_COUNT : Fld := ⟨0, 32⟩
/-- R572. -/ abbrev P_CNTCLR_CLR : Fld := ⟨0, 11⟩
/-- R573. -/ abbrev P_ETH_CTL_FWD : Fld := ⟨7, 1⟩
/-- R573. -/ abbrev P_ETH_CTL_EDWAKE : Fld := ⟨6, 1⟩
/-- R573. -/ abbrev P_ETH_CTL_VLAN : Fld := ⟨5, 1⟩
/-- R573. -/ abbrev P_ETH_CTL_PAUSETX : Fld := ⟨4, 1⟩
/-- R573. -/ abbrev P_ETH_CTL_PAUSERX : Fld := ⟨3, 1⟩
/-- R573. -/ abbrev P_ETH_CTL_AN : Fld := ⟨2, 1⟩
/-- R573. -/ abbrev P_ETH_CTL_MODE : Fld := ⟨0, 2⟩
/-- R573. -/ abbrev P_ETH_MACLO_MAC : Fld := ⟨0, 32⟩
/-- R573. -/ abbrev P_ETH_MACHI_MAC : Fld := ⟨0, 16⟩
/-- R573. -/ abbrev P_ETH_DSTLO_DST : Fld := ⟨0, 32⟩
/-- R573. -/ abbrev P_ETH_DSTHI_DST : Fld := ⟨0, 16⟩
/-- R573. -/ abbrev P_ETH_TYPE_PCP : Fld := ⟨28, 3⟩
/-- R573. -/ abbrev P_ETH_TYPE_VID : Fld := ⟨16, 12⟩
/-- R573. -/ abbrev P_ETH_TYPE_ETYPE : Fld := ⟨0, 16⟩
/-- R573. -/ abbrev P_ETH_MTU_MTU : Fld := ⟨0, 14⟩
/-- R573. -/ abbrev P_ETH_FLUSH_FLUSH : Fld := ⟨0, 16⟩
/-- R573. -/ abbrev P_ETH_PAUSE_QUANTA : Fld := ⟨0, 16⟩
/-- R573. -/ abbrev P_ETH_STAT_ENERGY : Fld := ⟨6, 1⟩
/-- R573. -/ abbrev P_ETH_STAT_PAUSED : Fld := ⟨5, 1⟩
/-- R573. -/ abbrev P_ETH_STAT_XOFF : Fld := ⟨4, 1⟩
/-- R573. -/ abbrev P_ETH_STAT_ANDONE : Fld := ⟨3, 1⟩
/-- R573. -/ abbrev P_ETH_STAT_SPEED : Fld := ⟨1, 2⟩
/-- R573. -/ abbrev P_ETH_STAT_LINK : Fld := ⟨0, 1⟩
/-- R573. -/ abbrev P_ETH_CNT_COUNT : Fld := ⟨0, 32⟩
/-- R573. -/ abbrev P_ETH_CLR_CLR : Fld := ⟨0, 7⟩
/-- R574. -/ abbrev P0_MDIO_CFG_EN : Fld := ⟨8, 1⟩
/-- R574. -/ abbrev P0_MDIO_CFG_DIV : Fld := ⟨0, 8⟩
/-- R574. -/ abbrev P0_MDIO_CMD_BUSY : Fld := ⟨31, 1⟩
/-- R574. -/ abbrev P0_MDIO_CMD_C45 : Fld := ⟨30, 1⟩
/-- R574. -/ abbrev P0_MDIO_CMD_OP : Fld := ⟨28, 2⟩
/-- R574. -/ abbrev P0_MDIO_CMD_PHYAD : Fld := ⟨23, 5⟩
/-- R574. -/ abbrev P0_MDIO_CMD_REG : Fld := ⟨18, 5⟩
/-- R574. -/ abbrev P0_MDIO_CMD_DATA : Fld := ⟨0, 16⟩
/-- R575. -/ abbrev P_SHP_CTL_IRQSEL : Fld := ⟨5, 2⟩
/-- R575. -/ abbrev P_SHP_CTL_RIRQ : Fld := ⟨4, 1⟩
/-- R575. -/ abbrev P_SHP_CTL_MODE3 : Fld := ⟨3, 1⟩
/-- R575. -/ abbrev P_SHP_CTL_DDR : Fld := ⟨2, 1⟩
/-- R575. -/ abbrev P_SHP_CTL_LANES : Fld := ⟨0, 2⟩
/-- R575. -/ abbrev P_SHP_STAT_RD : Fld := ⟨1, 1⟩
/-- R575. -/ abbrev P_SHP_STAT_SEL : Fld := ⟨0, 1⟩
/-- R576. -/ abbrev SEC_KS_STAT_LOADS : Fld := ⟨16, 16⟩
/-- R576. -/ abbrev SEC_KS_STAT_USERS : Fld := ⟨8, 4⟩
/-- R576. -/ abbrev SEC_KS_STAT_STATE : Fld := ⟨0, 2⟩
/-- R576. -/ abbrev SEC_CTR_LO_CTR : Fld := ⟨0, 32⟩
/-- R576. -/ abbrev SEC_CTR_HI_CTR : Fld := ⟨0, 32⟩
/-- R576. -/ abbrev SEC_EVT_OTPFAIL : Fld := ⟨2, 1⟩
/-- R576. -/ abbrev SEC_EVT_PROV : Fld := ⟨1, 1⟩
/-- R576. -/ abbrev SEC_EVT_NVFAIL : Fld := ⟨0, 1⟩
/-- R576. -/ abbrev SEC_OTPW_FUSE : Fld := ⟨0, 32⟩
/-- R576. -/ abbrev SEC_OTPDATA_DATA : Fld := ⟨0, 32⟩
/-- R576. -/ abbrev SEC_OTPPROG_WORD : Fld := ⟨0, 7⟩
/-- R608. -/ abbrev CL_CTL_ERRLIM : Fld := ⟨24, 8⟩
/-- R608. -/ abbrev CL_CTL_RETRY : Fld := ⟨16, 8⟩
/-- R608. -/ abbrev CL_CTL_ENB : Fld := ⟨1, 1⟩
/-- R608. -/ abbrev CL_CTL_ENA : Fld := ⟨0, 1⟩
/-- R608. -/ abbrev CL_LOSS_LOSSLIM : Fld := ⟨0, 16⟩
/-- R608. -/ abbrev CL_STAT_CAUSEB : Fld := ⟨24, 4⟩
/-- R608. -/ abbrev CL_STAT_CAUSEA : Fld := ⟨20, 4⟩
/-- R608. -/ abbrev CL_STAT_NOLANE : Fld := ⟨8, 1⟩
/-- R608. -/ abbrev CL_STAT_STB : Fld := ⟨4, 3⟩
/-- R608. -/ abbrev CL_STAT_STA : Fld := ⟨0, 3⟩
/-- R608. -/ abbrev CL_EVT_NOLANE : Fld := ⟨8, 1⟩
/-- R608. -/ abbrev CL_EVT_UNREC : Fld := ⟨7, 1⟩
/-- R608. -/ abbrev CL_EVT_BLOCK : Fld := ⟨6, 1⟩
/-- R608. -/ abbrev CL_EVT_RACE : Fld := ⟨5, 1⟩
/-- R608. -/ abbrev CL_EVT_REPLAY : Fld := ⟨4, 1⟩
/-- R608. -/ abbrev CL_EVT_UPB : Fld := ⟨3, 1⟩
/-- R608. -/ abbrev CL_EVT_UPA : Fld := ⟨2, 1⟩
/-- R608. -/ abbrev CL_EVT_DOWNB : Fld := ⟨1, 1⟩
/-- R608. -/ abbrev CL_EVT_DOWNA : Fld := ⟨0, 1⟩
/-- R608. -/ abbrev CL_CNT_BLOCK_COUNT : Fld := ⟨0, 32⟩
/-- R608. -/ abbrev CL_CNT_UNREC_COUNT : Fld := ⟨0, 32⟩
/-- R608. -/ abbrev CL_CNT_NOLANE_COUNT : Fld := ⟨0, 32⟩
/-- R608. -/ abbrev CL_CLR_CLR : Fld := ⟨0, 3⟩
/-- R609. -/ abbrev CL_LANE_DELAY_DELAY : Fld := ⟨0, 16⟩
/-- R609. -/ abbrev CL_LANE_UNACK_PEAK : Fld := ⟨16, 16⟩
/-- R609. -/ abbrev CL_LANE_UNACK_NOW : Fld := ⟨0, 16⟩
/-- R609. -/ abbrev CL_LANE_CNT_TX_COUNT : Fld := ⟨0, 32⟩
/-- R609. -/ abbrev CL_LANE_CNT_RX_COUNT : Fld := ⟨0, 32⟩
/-- R609. -/ abbrev CL_LANE_CNT_CKL_COUNT : Fld := ⟨0, 32⟩
/-- R609. -/ abbrev CL_LANE_CNT_RETX_COUNT : Fld := ⟨0, 32⟩
/-- R609. -/ abbrev CL_LANE_CNT_DOWN_COUNT : Fld := ⟨0, 32⟩
/-- R609. -/ abbrev CL_LANE_CNT_TRAINFAIL_COUNT : Fld := ⟨0, 32⟩
/-- R609. -/ abbrev CL_LANE_CLR_CLR : Fld := ⟨0, 7⟩
/-- R665. -/ abbrev GLB_BOOTSTAT_SECT : Fld := ⟨24, 8⟩
/-- R665. -/ abbrev GLB_BOOTSTAT_ERR : Fld := ⟨16, 8⟩
/-- R665. -/ abbrev GLB_BOOTSTAT_FSEQDIFF : Fld := ⟨12, 1⟩
/-- R665. -/ abbrev GLB_BOOTSTAT_FALLBACK : Fld := ⟨11, 1⟩
/-- R665. -/ abbrev GLB_BOOTSTAT_SIGOK : Fld := ⟨10, 1⟩
/-- R665. -/ abbrev GLB_BOOTSTAT_SRC : Fld := ⟨9, 1⟩
/-- R665. -/ abbrev GLB_BOOTSTAT_SLOT : Fld := ⟨8, 1⟩
/-- R665. -/ abbrev GLB_BOOTSTAT_FSIDE : Fld := ⟨4, 4⟩
/-- R665. -/ abbrev GLB_BOOTSTAT_STAGE : Fld := ⟨0, 4⟩
/-- R665. -/ abbrev GLB_IMGVER_VERSION : Fld := ⟨0, 32⟩
/-- R665. -/ abbrev GLB_IMGSEQ_SEQ : Fld := ⟨0, 32⟩
/-- R665. -/ abbrev GLB_LOADERR_STATUS : Fld := ⟨24, 8⟩
/-- R665. -/ abbrev GLB_LOADERR_ITEM : Fld := ⟨0, 24⟩
/-- R665. -/ abbrev GLB_LOADCTL_WORDS : Fld := ⟨16, 14⟩
/-- R665. -/ abbrev GLB_LOADCTL_PASS : Fld := ⟨4, 1⟩
/-- R665. -/ abbrev GLB_LOADCTL_OP : Fld := ⟨0, 2⟩
/-- R665. -/ abbrev GLB_LOADSTAT_BUSY : Fld := ⟨31, 1⟩
/-- R665. -/ abbrev GLB_LOADSTAT_PASS : Fld := ⟨30, 1⟩
/-- R665. -/ abbrev GLB_LOADSTAT_BYTES : Fld := ⟨0, 26⟩
/-- R666. -/ abbrev RST_CAUSE_SRC : Fld := ⟨0, 32⟩
/-- R666. -/ abbrev RST_CAUSEACC_SRC : Fld := ⟨0, 32⟩
/-- R666. -/ abbrev RST_LAST_ROLLBACK : Fld := ⟨17, 1⟩
/-- R666. -/ abbrev RST_LAST_DETAIL : Fld := ⟨8, 9⟩
/-- R666. -/ abbrev RST_LAST_REACH : Fld := ⟨4, 4⟩
/-- R666. -/ abbrev RST_LAST_HELDOFF : Fld := ⟨3, 1⟩
/-- R666. -/ abbrev RST_LAST_COLD : Fld := ⟨2, 1⟩
/-- R666. -/ abbrev RST_LAST_LEVEL : Fld := ⟨0, 2⟩
/-- R666. -/ abbrev RST_BOOT_ROLLBACK : Fld := ⟨20, 1⟩
/-- R666. -/ abbrev RST_BOOT_TRIAL : Fld := ⟨19, 1⟩
/-- R666. -/ abbrev RST_BOOT_FALLBACK : Fld := ⟨18, 1⟩
/-- R666. -/ abbrev RST_BOOT_SRC : Fld := ⟨17, 1⟩
/-- R666. -/ abbrev RST_BOOT_ACTIVE : Fld := ⟨16, 1⟩
/-- R666. -/ abbrev RST_BOOT_BOOTCNT : Fld := ⟨0, 16⟩
/-- R666. -/ abbrev RST_MAP_FIXED0 : Fld := ⟨2, 1⟩
/-- R666. -/ abbrev RST_MAP_FIXED1 : Fld := ⟨6, 1⟩
/-- R666. -/ abbrev RST_MAP_FIXED2 : Fld := ⟨10, 1⟩
/-- R666. -/ abbrev RST_MAP_FIXED3 : Fld := ⟨14, 1⟩
/-- R666. -/ abbrev RST_MAP_FIXED4 : Fld := ⟨18, 1⟩
/-- R666. -/ abbrev RST_MAP_FIXED5 : Fld := ⟨22, 1⟩
/-- R666. -/ abbrev RST_MAP_FIXED6 : Fld := ⟨26, 1⟩
/-- R666. -/ abbrev RST_MAP_FIXED7 : Fld := ⟨30, 1⟩
/-- R666. -/ abbrev RST_MAP_LEVEL0 : Fld := ⟨0, 2⟩
/-- R666. -/ abbrev RST_MAP_LEVEL1 : Fld := ⟨4, 2⟩
/-- R666. -/ abbrev RST_MAP_LEVEL2 : Fld := ⟨8, 2⟩
/-- R666. -/ abbrev RST_MAP_LEVEL3 : Fld := ⟨12, 2⟩
/-- R666. -/ abbrev RST_MAP_LEVEL4 : Fld := ⟨16, 2⟩
/-- R666. -/ abbrev RST_MAP_LEVEL5 : Fld := ⟨20, 2⟩
/-- R666. -/ abbrev RST_MAP_LEVEL6 : Fld := ⟨24, 2⟩
/-- R666. -/ abbrev RST_MAP_LEVEL7 : Fld := ⟨28, 2⟩
/-- R666. -/ abbrev RST_WDT_HBTMO : Fld := ⟨16, 16⟩
/-- R666. -/ abbrev RST_WDT_FHTMO : Fld := ⟨6, 10⟩
/-- R666. -/ abbrev RST_WDT_FTEN : Fld := ⟨2, 1⟩
/-- R666. -/ abbrev RST_WDT_FHEN : Fld := ⟨1, 1⟩
/-- R666. -/ abbrev RST_WDT_HBEN : Fld := ⟨0, 1⟩
/-- R666. -/ abbrev RST_CNT_HOLDOFF_COUNT : Fld := ⟨0, 32⟩
/-- R666. -/ abbrev RST_CLR_CLR : Fld := ⟨0, 1⟩
/-- R666. -/ abbrev RST_FLOG_STAT_COUNT : Fld := ⟨10, 11⟩
/-- R666. -/ abbrev RST_FLOG_STAT_HEAD : Fld := ⟨0, 10⟩
/-- R666. -/ abbrev RST_FLOG_SEL_IDX : Fld := ⟨0, 10⟩
/-- R666. -/ abbrev RST_FLOG_W_WORD : Fld := ⟨0, 32⟩
/-- R711. -/ abbrev PWR_STAT_ENTRY : Fld := ⟨19, 1⟩
/-- R711. -/ abbrev PWR_STAT_AP : Fld := ⟨16, 3⟩
/-- R711. -/ abbrev PWR_STAT_TSLP : Fld := ⟨8, 6⟩
/-- R711. -/ abbrev PWR_STAT_HPWR : Fld := ⟨4, 4⟩
/-- R711. -/ abbrev PWR_STAT_FPWR : Fld := ⟨0, 4⟩
/-- R711. -/ abbrev PWR_CFG_TIDLE : Fld := ⟨16, 16⟩
/-- R711. -/ abbrev PWR_CFG_DRAIN : Fld := ⟨8, 8⟩
/-- R711. -/ abbrev PWR_CFG_FTAUTO : Fld := ⟨0, 6⟩
/-- R711. -/ abbrev PWR_HWCFG_PWID : Fld := ⟨16, 16⟩
/-- R711. -/ abbrev PWR_HWCFG_MODE : Fld := ⟨8, 1⟩
/-- R711. -/ abbrev PWR_HWCFG_OUTMASK : Fld := ⟨0, 3⟩
/-- R711. -/ abbrev PWR_HWCLR_CLR : Fld := ⟨0, 1⟩
/-- R711. -/ abbrev PWR_BANKCFG_AUTOREL : Fld := ⟨8, 3⟩
/-- R711. -/ abbrev PWR_PADREL_REL : Fld := ⟨8, 3⟩
/-- R711. -/ abbrev PWR_PADSTAT_HELD : Fld := ⟨8, 3⟩
/-- R711. -/ abbrev PWR_AOC_ONRC : Fld := ⟨8, 1⟩
/-- R711. -/ abbrev PWR_AOC_RETRY : Fld := ⟨1, 1⟩
/-- R711. -/ abbrev PWR_AOC_XTAL : Fld := ⟨0, 1⟩
/-- R711. -/ abbrev PWR_LASTWAKE_DEEP : Fld := ⟨10, 1⟩
/-- R711. -/ abbrev PWR_LASTWAKE_HOST : Fld := ⟨9, 1⟩
/-- R711. -/ abbrev PWR_LASTWAKE_FIELD : Fld := ⟨8, 1⟩
/-- R711. -/ abbrev PWR_LASTWAKE_SRC : Fld := ⟨0, 8⟩
/-- R711. -/ abbrev PWR_LWNS_NS : Fld := ⟨0, 32⟩
/-- R711. -/ abbrev PWR_LWSEC_SEC : Fld := ⟨0, 32⟩
/-- R711. -/ abbrev PWR_ABORT_AP3 : Fld := ⟨24, 8⟩
/-- R711. -/ abbrev PWR_ABORT_AP2 : Fld := ⟨16, 8⟩
/-- R711. -/ abbrev PWR_ABORT_AP1 : Fld := ⟨8, 8⟩
/-- R711. -/ abbrev PWR_ABORT_AP0 : Fld := ⟨0, 8⟩
/-- R711. -/ abbrev PWR_EVT_SCHSKIP : Fld := ⟨7, 1⟩
/-- R711. -/ abbrev PWR_EVT_RACE : Fld := ⟨6, 1⟩
/-- R711. -/ abbrev PWR_EVT_QLOST : Fld := ⟨5, 1⟩
/-- R711. -/ abbrev PWR_EVT_WKDROP : Fld := ⟨4, 1⟩
/-- R711. -/ abbrev PWR_EVT_AOFAIL : Fld := ⟨3, 1⟩
/-- R711. -/ abbrev PWR_EVT_WFOSC : Fld := ⟨2, 1⟩
/-- R711. -/ abbrev PWR_EVT_WFREG : Fld := ⟨1, 1⟩
/-- R711. -/ abbrev PWR_EVT_ABORT : Fld := ⟨0, 1⟩
/-- R711. -/ abbrev PWR_CNT_QLOST_COUNT : Fld := ⟨0, 32⟩
/-- R711. -/ abbrev PWR_CNT_WKDROP_COUNT : Fld := ⟨0, 32⟩
/-- R711. -/ abbrev PWR_CLR_CLR : Fld := ⟨0, 3⟩
/-- R712. -/ abbrev FH_LKSTAT_RELOADS : Fld := ⟨16, 16⟩
/-- R712. -/ abbrev FH_LKSTAT_CHKPTS : Fld := ⟨0, 16⟩
/-- R741. -/ abbrev GLB_GRF_STAT_GID : Fld := ⟨16, 16⟩
/-- R741. -/ abbrev GLB_GRF_STAT_STATE : Fld := ⟨8, 4⟩
/-- R741. -/ abbrev GLB_GRF_STAT_HOLDER : Fld := ⟨4, 3⟩
/-- R741. -/ abbrev GLB_GRF_STAT_TRIAL : Fld := ⟨0, 1⟩
/-- R741. -/ abbrev GLB_GRF_ITEMS_PEND : Fld := ⟨16, 9⟩
/-- R741. -/ abbrev GLB_GRF_ITEMS_STAGED : Fld := ⟨0, 9⟩
/-- R741. -/ abbrev GLB_GRF_LAST_GID : Fld := ⟨16, 16⟩
/-- R741. -/ abbrev GLB_GRF_LAST_STATUS : Fld := ⟨8, 8⟩
/-- R741. -/ abbrev GLB_GRF_LAST_END : Fld := ⟨4, 4⟩
/-- R741. -/ abbrev GLB_GRF_FAILIDX_ITEM : Fld := ⟨0, 9⟩
/-- R741. -/ abbrev GLB_GRF_EVT_LOSTPEND : Fld := ⟨4, 1⟩
/-- R741. -/ abbrev GLB_GRF_EVT_RACE : Fld := ⟨3, 1⟩
/-- R741. -/ abbrev GLB_GRF_EVT_TMO : Fld := ⟨2, 1⟩
/-- R741. -/ abbrev GLB_GRF_EVT_DONE : Fld := ⟨1, 1⟩
/-- R741. -/ abbrev GLB_GRF_EVT_COMMIT : Fld := ⟨0, 1⟩
/-- R741. -/ abbrev GLB_GRF_CNT_ABORTS : Fld := ⟨16, 16⟩
/-- R741. -/ abbrev GLB_GRF_CNT_COMMITS : Fld := ⟨0, 16⟩
/-- R741. -/ abbrev GLB_GRF_MINSEQ_SEQ : Fld := ⟨0, 32⟩
/-- R741. -/ abbrev GLB_GRF_CLR_CLR : Fld := ⟨0, 1⟩
/-- R208. -/ abbrev TPL_WORD_STEP : Fld := ⟨0, 32⟩
/-- R457. -/ abbrev SV_RVAL_VALUE : Fld := ⟨0, 32⟩

end F

/-- Part 1 of the register map. -/
def regTable0 : List RegDesc := [
  -- R57 GLB_ID
  ⟨0x0, [], 0xffffffff, 0x0, 0x0, 0x0, 0x0, 0x4c594808, 0xffffffff, 0x4c594808⟩,
  -- R58 GLB_MAPVER
  ⟨0x4, [], 0xffffffff, 0x0, 0x0, 0x0, 0x0, 0x10000, 0xffffffff, 0x10000⟩,
  -- R59 GLB_SILREV
  ⟨0x8, [], 0xffff, 0x0, 0x0, 0x0, 0x0, 0x0, 0x0, 0x0⟩,
  -- R60 GLB_UIDLO
  ⟨0x10, [], 0xffffffff, 0x0, 0x0, 0x0, 0x0, 0x0, 0x0, 0x0⟩,
  -- R60 GLB_UIDHI
  ⟨0x14, [], 0xffffffff, 0x0, 0x0, 0x0, 0x0, 0x0, 0x0, 0x0⟩,
  -- R61 GLB_CKCNT
  ⟨0x40, [(6, 0x4)], 0xffffffff, 0x0, 0x0, 0x0, 0x0, 0x0, 0x0, 0x0⟩,
  -- R62 GLB_CKCLR
  ⟨0x58, [], 0x0, 0x0, 0x0, 0x0, 0x7f, 0x0, 0x7f, 0x0⟩,
  -- R63 GLB_RACECNT
  ⟨0x5c, [], 0xffffffff, 0x0, 0x0, 0x0, 0x0, 0x0, 0x0, 0x0⟩,
  -- R144 FP_CTL
  ⟨0x100000, [(6, 0x10000), (8, 0x800)], 0x0, 0x0, 0x37, 0x0, 0x0, 0x0, 0x0, 0x0⟩,
  -- R145 FP_WCFG
  ⟨0x100004, [(6, 0x10000), (8, 0x800)], 0x0, 0x0, 0x77ff, 0x0, 0x0, 0x80, 0x0, 0x0⟩,
  -- R146 FP_BCFG
  ⟨0x100008, [(6, 0x10000), (8, 0x800)], 0x0, 0x0, 0xf, 0x0, 0x0, 0x0, 0x0, 0x0⟩,
  -- R147 FP_CLK
  ⟨0x10000c, [(6, 0x10000), (8, 0x800)], 0x0, 0x0, 0xfff, 0x0, 0x0, 0xfa, 0x0, 0x0⟩,
  -- R148 FP_GAP
  ⟨0x100010, [(6, 0x10000), (8, 0x800)], 0x0, 0x0, 0xffffff, 0x0, 0x0, 0x40202, 0x0, 0x0⟩,
  -- R149 FP_SLEN
  ⟨0x100014, [(6, 0x10000), (8, 0x800)], 0x0, 0x0, 0x1fff, 0x0, 0x0, 0x20, 0x0, 0x0⟩,
  -- R150 FP_SS
  ⟨0x100018, [(6, 0x10000), (8, 0x800)], 0x0, 0x0, 0xf3f, 0x0, 0x0, 0x0, 0x0, 0x0⟩,
  -- R151 FP_RETRY
  ⟨0x10001c, [(6, 0x10000), (8, 0x800)], 0x0, 0x0, 0xffffff, 0x0, 0x0, 0x30064, 0x0, 0x0⟩,
  -- R152 FP_TLIM
  ⟨0x100020, [(6, 0x10000), (8, 0x800)], 0x0, 0x0, 0xffff, 0x0, 0x0, 0x3e8, 0x0, 0x0⟩,
  -- R153 FP_CLKMON
  ⟨0x100024, [(6, 0x10000), (8, 0x800)], 0x0, 0x0, 0xfff0fff, 0x0, 0x0, 0xfff0024, 0x0, 0x0⟩,
  -- R154 FP_STUCK
  ⟨0x100028, [(6, 0x10000), (8, 0x800)], 0x0, 0x0, 0xffff000f, 0x0, 0x0, 0x0, 0x0, 0x0⟩,
  -- R155 FP_STAT
  ⟨0x100040, [(6, 0x10000), (8, 0x800)], 0xfffff, 0x0, 0x0, 0x0, 0x0, 0x0, 0xfff87, 0x0⟩,
  -- R156 FP_EVT
  ⟨0x100044, [(6, 0x10000), (8, 0x800)], 0x0, 0x0, 0x0, 0x3ff, 0x0, 0x0, 0x0, 0x0⟩,
  -- R157 FP_LAST
  ⟨0x100048, [(6, 0x10000), (8, 0x800)], 0x81ffff7f, 0x0, 0x0, 0x0, 0x0, 0x0, 0x0, 0x0⟩,
  -- R158 FP_TSNS
  ⟨0x10004c, [(6, 0x10000), (8, 0x800)], 0xffffffff, 0x0, 0x0, 0x0, 0x0, 0x0, 0x0, 0x0⟩,
  -- R158 FP_TSSEC
  ⟨0x100050, [(6, 0x10000), (8, 0x800)], 0xffffffff, 0x0, 0x0, 0x0, 0x0, 0x0, 0x0, 0x0⟩,
  -- R159 FP_CNT
  ⟨0x100060, [(6, 0x10000), (8, 0x800), (6, 0x4)], 0xffffffff, 0x0, 0x0, 0x0, 0x0, 0x0, 0x0, 0x0⟩,
  -- R160 FP_CNTCLR
  ⟨0x100078, [(6, 0x10000), (8, 0x800)], 0x0, 0x0, 0x0, 0x0, 0x3f, 0x0, 0x3f, 0x0⟩,
  -- R188 CW_CTL
  ⟨0x100400, [(6, 0x10000), (8, 0x800)], 0x0, 0x0, 0x7, 0x0, 0x0, 0x0, 0x0, 0x0⟩,
  -- R188 CW_CMD
  ⟨0x100404, [(6, 0x10000), (8, 0x800)], 0x0, 0x0, 0xffffffff, 0x0, 0x0, 0x5060203, 0x0, 0x0⟩,
  -- R188 CW_CFG
  ⟨0x100408, [(6, 0x10000), (8, 0x800)], 0x0, 0x0, 0xffffffff, 0x0, 0x0, 0x80001002, 0x0, 0x0⟩,
  -- R188 CW_TLIM
  ⟨0x10040c, [(6, 0x10000), (8, 0x800)], 0x0, 0x0, 0xffffffff, 0x0, 0x0, 0x640032, 0x0, 0x0⟩,
  -- R188 CW_ID
  ⟨0x100410, [(6, 0x10000), (8, 0x800)], 0x0, 0x0, 0xffffffff, 0x0, 0x0, 0x8000000, 0x0, 0x0⟩,
  -- R188 CW_PROBE
  ⟨0x100414, [(6, 0x10000), (8, 0x800)], 0x0, 0x0, 0x1ffff, 0x0, 0x0, 0x3e8, 0x0, 0x0⟩]

/-- Part 2 of the register map. -/
def regTable1 : List RegDesc := [
  -- R188 CW_STAT
  ⟨0x100418, [(6, 0x10000), (8, 0x800)], 0x7ff, 0x0, 0x0, 0x0, 0x0, 0x0, 0x40f, 0x0⟩,
  -- R188 CW_EVT
  ⟨0x10041c, [(6, 0x10000), (8, 0x800)], 0x0, 0x0, 0x0, 0x3f, 0x0, 0x0, 0x0, 0x0⟩,
  -- R188 CW_ACCEPT
  ⟨0x100420, [(6, 0x10000), (8, 0x800)], 0x0, 0x0, 0x0, 0x0, 0x7, 0x0, 0x7, 0x0⟩,
  -- R188 CW_CNT_RD
  ⟨0x100424, [(6, 0x10000), (8, 0x800)], 0xffffffff, 0x0, 0x0, 0x0, 0x0, 0x0, 0x0, 0x0⟩,
  -- R188 CW_CNT_SWAP
  ⟨0x100428, [(6, 0x10000), (8, 0x800)], 0xffffffff, 0x0, 0x0, 0x0, 0x0, 0x0, 0x0, 0x0⟩,
  -- R188 CW_CNTCLR
  ⟨0x10042c, [(6, 0x10000), (8, 0x800)], 0x0, 0x0, 0x0, 0x0, 0x3, 0x0, 0x3, 0x0⟩,
  -- R189 CW_IDS_CTL
  ⟨0x100440, [(6, 0x10000), (8, 0x800), (3, 0x20)], 0x0, 0x0, 0xf, 0x0, 0x0, 0x0, 0x0, 0x0⟩,
  -- R189 CW_IDS_REFLO
  ⟨0x100444, [(6, 0x10000), (8, 0x800), (3, 0x20)], 0x0, 0x0, 0xffffffff, 0x0, 0x0, 0x0, 0x0, 0x0⟩,
  -- R189 CW_IDS_REFHI
  ⟨0x100448, [(6, 0x10000), (8, 0x800), (3, 0x20)], 0x0, 0x0, 0xffffffff, 0x0, 0x0, 0x0, 0x0, 0x0⟩,
  -- R189 CW_IDS_SEENLO
  ⟨0x10044c, [(6, 0x10000), (8, 0x800), (3, 0x20)], 0xffffffff, 0x0, 0x0, 0x0, 0x0, 0x0, 0x0, 0x0⟩,
  -- R189 CW_IDS_SEENHI
  ⟨0x100450, [(6, 0x10000), (8, 0x800), (3, 0x20)], 0xffffffff, 0x0, 0x0, 0x0, 0x0, 0x0, 0x0, 0x0⟩,
  -- R191 CTX_CTL
  ⟨0x210000, [(512, 0x40)], 0xf07f0, 0x0, 0x0, 0x0, 0x0, 0x0, 0x0, 0x0⟩,
  -- R191 CTX_BIND
  ⟨0x210004, [(512, 0x40)], 0x8f3ff1ff, 0x0, 0x0, 0x0, 0x0, 0x0, 0x0, 0x0⟩,
  -- R191 CTX_CPERLO
  ⟨0x210008, [(512, 0x40)], 0xffffffff, 0x0, 0x0, 0x0, 0x0, 0x0, 0x0, 0x0⟩,
  -- R191 CTX_CPERHI
  ⟨0x21000c, [(512, 0x40)], 0xff0703ff, 0x0, 0x0, 0x0, 0x0, 0x0, 0x0, 0x0⟩,
  -- R191 CTX_APERLO
  ⟨0x210010, [(512, 0x40)], 0xffffffff, 0x0, 0x0, 0x0, 0x0, 0x0, 0x0, 0x0⟩,
  -- R191 CTX_APERHI
  ⟨0x210014, [(512, 0x40)], 0xff0703ff, 0x0, 0x0, 0x0, 0x0, 0x0, 0x0, 0x0⟩,
  -- R191 CTX_PHLO
  ⟨0x210018, [(512, 0x40)], 0xffffffff, 0x0, 0x0, 0x0, 0x0, 0x0, 0x0, 0x0⟩,
  -- R191 CTX_PHHI
  ⟨0x21001c, [(512, 0x40)], 0xffbf03ff, 0x0, 0x0, 0x0, 0x0, 0xa080000, 0x0, 0x0⟩,
  -- R191 CTX_MINSP
  ⟨0x210020, [(512, 0x40)], 0xffffffff, 0x0, 0x0, 0x0, 0x0, 0x0, 0x0, 0x0⟩,
  -- R191 CTX_RULES
  ⟨0x210024, [(512, 0x40)], 0x7f7f7fff, 0x0, 0x0, 0x0, 0x0, 0x0, 0x0, 0x0⟩,
  -- R191 CTX_GAIN
  ⟨0x210028, [(512, 0x40)], 0xffffffff, 0x0, 0x0, 0x0, 0x0, 0x3f800000, 0x0, 0x0⟩,
  -- R191 CTX_OFFS
  ⟨0x21002c, [(512, 0x40)], 0xffffffff, 0x0, 0x0, 0x0, 0x0, 0x0, 0x0, 0x0⟩,
  -- R191 CTX_STAT
  ⟨0x210030, [(512, 0x40)], 0xfe00ffff, 0x0, 0x0, 0x0, 0x0, 0x0, 0xc000000, 0x0⟩,
  -- R191 CTX_LAG
  ⟨0x210034, [(512, 0x40)], 0xffffffff, 0x0, 0x0, 0x0, 0x0, 0x0, 0x0, 0x0⟩,
  -- R191 CTX_CNT
  ⟨0x210038, [(512, 0x40)], 0xffffffff, 0x0, 0x0, 0x0, 0x0, 0x0, 0x0, 0x0⟩,
  -- R191 CTX_POLLS
  ⟨0x21003c, [(512, 0x40)], 0xffffffff, 0x0, 0x0, 0x0, 0x0, 0x0, 0x0, 0x0⟩,
  -- R242 FT_SQ_CTL
  ⟨0x108000, [(6, 0x10000)], 0x0, 0x0, 0xfff, 0x0, 0x0, 0xe00, 0x0, 0x0⟩,
  -- R242 FT_SQ_EVT
  ⟨0x108004, [(6, 0x10000)], 0x0, 0x0, 0x0, 0xffff, 0x0, 0x0, 0x0, 0x0⟩,
  -- R242 FT_SQ_TPS
  ⟨0x108008, [(6, 0x10000)], 0x3fffff, 0x0, 0x0, 0x0, 0x0, 0x0, 0x3fffff, 0x0⟩,
  -- R242 SQ_DEMAND
  ⟨0x108100, [(6, 0x10000), (8, 0x20)], 0xffff, 0x0, 0x0, 0x0, 0x0, 0x0, 0x0, 0x0⟩,
  -- R242 SQ_LOAD
  ⟨0x108104, [(6, 0x10000), (8, 0x20)], 0xffff, 0x0, 0x0, 0x0, 0x0, 0x0, 0xffff, 0x0⟩]

/-- Part 3 of the register map. -/
def regTable2 : List RegDesc := [
  -- R242 SQ_PEAK
  ⟨0x108108, [(6, 0x10000), (8, 0x20)], 0xffff, 0x0, 0x0, 0x0, 0x0, 0x0, 0x0, 0x0⟩,
  -- R242 SQ_MAXLAG
  ⟨0x10810c, [(6, 0x10000), (8, 0x20)], 0xffffffff, 0x0, 0x0, 0x0, 0x0, 0x0, 0x0, 0x0⟩,
  -- R242 SQ_CNT_LATE
  ⟨0x108110, [(6, 0x10000), (8, 0x20)], 0xffffffff, 0x0, 0x0, 0x0, 0x0, 0x0, 0x0, 0x0⟩,
  -- R242 SQ_CNT_CU
  ⟨0x108114, [(6, 0x10000), (8, 0x20)], 0xffffffff, 0x0, 0x0, 0x0, 0x0, 0x0, 0x0, 0x0⟩,
  -- R242 SQ_CLR
  ⟨0x108118, [(6, 0x10000), (8, 0x20)], 0x0, 0x0, 0x0, 0x0, 0xf, 0x0, 0xf, 0x0⟩,
  -- R242 SQ_SLOT
  ⟨0x108400, [(6, 0x10000), (8, 0x20), (8, 0x4)], 0xff0001ff, 0x0, 0x0, 0x0, 0x0, 0x0, 0xff0001ff, 0x0⟩,
  -- R243 FH_CTXUSE
  ⟨0x200100, [], 0x3ff03ff, 0x0, 0x0, 0x0, 0x0, 0x0, 0x0, 0x0⟩,
  -- R243 FH_CTXREF
  ⟨0x200104, [], 0xffffffff, 0x0, 0x0, 0x0, 0x0, 0x0, 0x0, 0x0⟩,
  -- R243 FH_CONFREF
  ⟨0x200108, [], 0xffffffff, 0x0, 0x0, 0x0, 0x0, 0x0, 0x0, 0x0⟩,
  -- R243 FH_CTXCLR
  ⟨0x20010c, [], 0x0, 0x0, 0x0, 0x0, 0x3, 0x0, 0x3, 0x0⟩,
  -- R292 FT_FLT_CTL
  ⟨0x104000, [(6, 0x10000)], 0x0, 0x0, 0x1, 0x0, 0x0, 0x0, 0x0, 0x0⟩,
  -- R292 FT_FLT_STAT
  ⟨0x104004, [(6, 0x10000)], 0xffff, 0x0, 0x0, 0x0, 0x0, 0x0, 0x0, 0x0⟩,
  -- R292 FT_FLT_EVT
  ⟨0x104008, [(6, 0x10000)], 0x0, 0x0, 0x0, 0x1f, 0x0, 0x0, 0x0, 0x0⟩,
  -- R292 FT_FLT_BANK
  ⟨0x10400c, [(6, 0x10000)], 0x1, 0x0, 0x2, 0x0, 0x0, 0x0, 0x2, 0x0⟩,
  -- R292 FT_FLT_LOAD
  ⟨0x104010, [(6, 0x10000)], 0xfff, 0x0, 0x0, 0x0, 0x0, 0x0, 0xfff, 0x0⟩,
  -- R292 FT_FLT_CNT_CKA
  ⟨0x104014, [(6, 0x10000)], 0xffffffff, 0x0, 0x0, 0x0, 0x0, 0x0, 0x0, 0x0⟩,
  -- R292 FT_FLT_CNT_SBE
  ⟨0x104018, [(6, 0x10000)], 0xffffffff, 0x0, 0x0, 0x0, 0x0, 0x0, 0x0, 0x0⟩,
  -- R292 FT_FLT_CNT_DBE
  ⟨0x10401c, [(6, 0x10000)], 0xffffffff, 0x0, 0x0, 0x0, 0x0, 0x0, 0x0, 0x0⟩,
  -- R292 FT_FLT_CNTCLR
  ⟨0x104020, [(6, 0x10000)], 0x0, 0x0, 0x0, 0x0, 0x7, 0x0, 0x7, 0x0⟩,
  -- R292 FT_FLT_COEF
  ⟨0x105000, [(6, 0x10000), (97, 0x4)], 0x0, 0x0, 0xffffffff, 0x0, 0x0, 0x0, 0x0, 0x0⟩,
  -- R292 FT_FLT_ACOEF
  ⟨0x105400, [(6, 0x10000), (97, 0x4)], 0xffffffff, 0x0, 0x0, 0x0, 0x0, 0x0, 0x0, 0x0⟩,
  -- R293 FT_SLOT
  ⟨0x104100, [(6, 0x10000), (16, 0x20)], 0x0, 0x0, 0xf1b, 0x0, 0x0, 0x0, 0x0, 0x0⟩,
  -- R293 FT_SLOT_BIND
  ⟨0x104104, [(6, 0x10000), (16, 0x20)], 0xddff001f, 0x0, 0x0, 0x0, 0x0, 0x0, 0x0, 0x0⟩,
  -- R293 FT_SLOT_STAT
  ⟨0x104108, [(6, 0x10000), (16, 0x20)], 0xff00ff07, 0x0, 0x0, 0x0, 0x0, 0x0, 0xff03, 0x0⟩,
  -- R293 FT_SLOT_OUT
  ⟨0x10410c, [(6, 0x10000), (16, 0x20)], 0xffffffff, 0x0, 0x0, 0x0, 0x0, 0x0, 0x0, 0x0⟩,
  -- R293 FT_SLOT_MARK
  ⟨0x104110, [(6, 0x10000), (16, 0x20)], 0xffffffff, 0x0, 0x0, 0x0, 0x0, 0x0, 0x0, 0x0⟩,
  -- R293 FT_SLOT_INSNS
  ⟨0x104114, [(6, 0x10000), (16, 0x20)], 0xffffffff, 0x0, 0x0, 0x0, 0x0, 0x0, 0x0, 0x0⟩,
  -- R293 FT_SLOT_INSSEC
  ⟨0x104118, [(6, 0x10000), (16, 0x20)], 0xffffffff, 0x0, 0x0, 0x0, 0x0, 0x0, 0x0, 0x0⟩,
  -- R293 FT_SLOT_CLR
  ⟨0x10411c, [(6, 0x10000), (16, 0x20)], 0x0, 0x0, 0x0, 0x0, 0x3, 0x0, 0x3, 0x0⟩,
  -- R364 TB_CTL
  ⟨0x40000, [], 0x0, 0x0, 0x6f, 0x0, 0x0, 0x60, 0x0, 0x0⟩,
  -- R364 TB_STAT
  ⟨0x40004, [], 0xffff, 0x0, 0x0, 0x0, 0x0, 0x0, 0x0, 0x0⟩,
  -- R364 TB_EVT
  ⟨0x40008, [], 0x0, 0x0, 0x0, 0x3ff, 0x0, 0x0, 0x0, 0x0⟩]

/-- Part 4 of the register map. -/
def regTable3 : List RegDesc := [
  -- R364 TB_STEP_LIM
  ⟨0x4000c, [], 0x0, 0x0, 0xffffffff, 0x0, 0x0, 0x186a0, 0x0, 0x0⟩,
  -- R364 TB_KP
  ⟨0x40010, [], 0x0, 0x0, 0xffffffff, 0x0, 0x0, 0x800000, 0x0, 0x0⟩,
  -- R364 TB_KI
  ⟨0x40014, [], 0x0, 0x0, 0xffffffff, 0x0, 0x0, 0x200000, 0x0, 0x0⟩,
  -- R364 TB_LOCK
  ⟨0x40018, [], 0x0, 0x0, 0xffffffff, 0x0, 0x0, 0x80003e8, 0x0, 0x0⟩,
  -- R364 TB_HOLD
  ⟨0x4001c, [], 0x0, 0x0, 0xff00ffff, 0x0, 0x0, 0x4000bb8, 0x0, 0x0⟩,
  -- R364 TB_NOWNS
  ⟨0x40020, [], 0xffffffff, 0x0, 0x0, 0x0, 0x0, 0x0, 0x0, 0x0⟩,
  -- R364 TB_NOWFRAC
  ⟨0x40024, [], 0xffff, 0x0, 0x0, 0x0, 0x0, 0x0, 0x0, 0x0⟩,
  -- R364 TB_NOWSECLO
  ⟨0x40028, [], 0xffffffff, 0x0, 0x0, 0x0, 0x0, 0x0, 0x0, 0x0⟩,
  -- R364 TB_NOWSECHI
  ⟨0x4002c, [], 0xffffffff, 0x0, 0x0, 0x0, 0x0, 0x0, 0x0, 0x0⟩,
  -- R364 TB_FREQ
  ⟨0x40030, [], 0xffffffff, 0x0, 0x0, 0x0, 0x0, 0x0, 0x0, 0x0⟩,
  -- R364 TB_OFFS
  ⟨0x40034, [], 0xffffffff, 0x0, 0x0, 0x0, 0x0, 0x0, 0x0, 0x0⟩,
  -- R364 TB_FOFFS
  ⟨0x40038, [], 0xffff, 0x0, 0x0, 0x0, 0x0, 0x0, 0xffff, 0x0⟩,
  -- R364 TB_CNT_REF
  ⟨0x4003c, [], 0xffffffff, 0x0, 0x0, 0x0, 0x0, 0x0, 0x0, 0x0⟩,
  -- R364 TB_CNT_STEP
  ⟨0x40040, [], 0xffffffff, 0x0, 0x0, 0x0, 0x0, 0x0, 0x0, 0x0⟩,
  -- R364 TB_CNT_PPSREJ
  ⟨0x40044, [], 0xffffffff, 0x0, 0x0, 0x0, 0x0, 0x0, 0x0, 0x0⟩,
  -- R364 TB_CLR
  ⟨0x40048, [], 0x0, 0x0, 0x0, 0x0, 0x7, 0x0, 0x7, 0x0⟩,
  -- R364 TB_CLK
  ⟨0x4004c, [], 0x0, 0x0, 0x3, 0x0, 0x0, 0x0, 0x3, 0x0⟩,
  -- R364 TB_PPSIN
  ⟨0x40050, [], 0x0, 0x0, 0x3ffff, 0x0, 0x0, 0x0, 0x0, 0x0⟩,
  -- R364 TB_PPSNS
  ⟨0x40054, [], 0xffffffff, 0x0, 0x0, 0x0, 0x0, 0x0, 0x0, 0x0⟩,
  -- R364 TB_PPSSEC
  ⟨0x40058, [], 0xffffffff, 0x0, 0x0, 0x0, 0x0, 0x0, 0x0, 0x0⟩,
  -- R364 TB_AOC_RATIO
  ⟨0x4005c, [], 0xffffffff, 0x0, 0x0, 0x0, 0x0, 0x77359400, 0x0, 0x0⟩,
  -- R364 TB_AOCLO
  ⟨0x40060, [], 0xffffffff, 0x0, 0x0, 0x0, 0x0, 0x0, 0x0, 0x0⟩,
  -- R364 TB_AOCHI
  ⟨0x40064, [], 0xffff, 0x0, 0x0, 0x0, 0x0, 0x0, 0x0, 0x0⟩,
  -- R364 TB_LASTSLP
  ⟨0x40068, [], 0xffffffff, 0x0, 0x0, 0x0, 0x0, 0x0, 0x0, 0x0⟩,
  -- R365 TB_PTP_CTL
  ⟨0x40100, [], 0x0, 0x0, 0xff003f, 0x0, 0x0, 0x0, 0x0, 0x0⟩,
  -- R365 TB_PTP_INT
  ⟨0x40104, [], 0x0, 0x0, 0xffffffff, 0x0, 0x0, 0x3010000, 0x0, 0x0⟩,
  -- R365 TB_PTP_DS
  ⟨0x40108, [], 0x0, 0x0, 0xffffffff, 0x0, 0x0, 0x8080f8fe, 0x0, 0x0⟩,
  -- R365 TB_PTP_VAR
  ⟨0x4010c, [], 0x0, 0x0, 0xffff, 0x0, 0x0, 0xffff, 0x0, 0x0⟩,
  -- R365 TB_PTP_ASYM
  ⟨0x40110, [], 0x0, 0x0, 0xffffffff, 0x0, 0x0, 0x0, 0x0, 0x0⟩,
  -- R365 TB_PTP_LAT
  ⟨0x40114, [(2, 0x4)], 0x0, 0x0, 0xffffffff, 0x0, 0x0, 0x0, 0x0, 0x0⟩,
  -- R365 TB_PTP_STAT
  ⟨0x4011c, [], 0xffff001f, 0x0, 0x0, 0x0, 0x0, 0x0, 0x0, 0x0⟩,
  -- R365 TB_PTP_GMLO
  ⟨0x40120, [], 0xffffffff, 0x0, 0x0, 0x0, 0x0, 0x0, 0x0, 0x0⟩]

/-- Part 5 of the register map. -/
def regTable4 : List RegDesc := [
  -- R365 TB_PTP_GMHI
  ⟨0x40124, [], 0xffffffff, 0x0, 0x0, 0x0, 0x0, 0x0, 0x0, 0x0⟩,
  -- R365 TB_PTP_IDLO
  ⟨0x40128, [], 0xffffffff, 0x0, 0x0, 0x0, 0x0, 0x0, 0x0, 0x0⟩,
  -- R365 TB_PTP_IDHI
  ⟨0x4012c, [], 0xffffffff, 0x0, 0x0, 0x0, 0x0, 0x0, 0x0, 0x0⟩,
  -- R365 TB_PTP_MPD
  ⟨0x40130, [], 0xffffffff, 0x0, 0x0, 0x0, 0x0, 0x0, 0x0, 0x0⟩,
  -- R365 TB_PTP_CNT
  ⟨0x40134, [(4, 0x4)], 0xffffffff, 0x0, 0x0, 0x0, 0x0, 0x0, 0x0, 0x0⟩,
  -- R365 TB_PTP_CLR
  ⟨0x40144, [], 0x0, 0x0, 0x0, 0x0, 0xf, 0x0, 0xf, 0x0⟩,
  -- R366 TB_PLS_CTL
  ⟨0x40200, [(5, 0x40)], 0x0, 0x0, 0xf, 0x0, 0x0, 0x0, 0x0, 0x0⟩,
  -- R366 TB_PLS_SECLO
  ⟨0x40204, [(5, 0x40)], 0x0, 0x0, 0xffffffff, 0x0, 0x0, 0x0, 0x0, 0x0⟩,
  -- R366 TB_PLS_SECHI
  ⟨0x40208, [(5, 0x40)], 0x0, 0x0, 0xffffffff, 0x0, 0x0, 0x0, 0x0, 0x0⟩,
  -- R366 TB_PLS_NS
  ⟨0x4020c, [(5, 0x40)], 0x0, 0x0, 0xffffffff, 0x0, 0x0, 0x0, 0x0, 0x0⟩,
  -- R366 TB_PLS_PERLO
  ⟨0x40210, [(5, 0x40)], 0x0, 0x0, 0xffffffff, 0x0, 0x0, 0x3b9aca00, 0x0, 0x0⟩,
  -- R366 TB_PLS_PERHI
  ⟨0x40214, [(5, 0x40)], 0x0, 0x0, 0x3ff, 0x0, 0x0, 0x0, 0x0, 0x0⟩,
  -- R366 TB_PLS_WIDTH
  ⟨0x40218, [(5, 0x40)], 0x0, 0x0, 0xffffffff, 0x0, 0x0, 0x5f5e100, 0x0, 0x0⟩,
  -- R366 TB_PLS_LASTNS
  ⟨0x4021c, [(5, 0x40)], 0xffffffff, 0x0, 0x0, 0x0, 0x0, 0x0, 0x0, 0x0⟩,
  -- R366 TB_PLS_LASTSEC
  ⟨0x40220, [(5, 0x40)], 0xffffffff, 0x0, 0x0, 0x0, 0x0, 0x0, 0x0, 0x0⟩,
  -- R366 TB_PLS_CNT
  ⟨0x40224, [(5, 0x40)], 0xffffffff, 0x0, 0x0, 0x0, 0x0, 0x0, 0x0, 0x0⟩,
  -- R366 TB_PLS_CLR
  ⟨0x40228, [(5, 0x40)], 0x0, 0x0, 0x0, 0x0, 0x1, 0x0, 0x1, 0x0⟩,
  -- R407 FT_TM_SNAP
  ⟨0x106000, [(6, 0x10000)], 0x0, 0x0, 0x0, 0x0, 0xff, 0x0, 0xff, 0x0⟩,
  -- R407 FT_TM_SNAPNS
  ⟨0x106004, [(6, 0x10000)], 0xffffffff, 0x0, 0x0, 0x0, 0x0, 0x0, 0x0, 0x0⟩,
  -- R407 FT_TM_SNAPSEC
  ⟨0x106008, [(6, 0x10000)], 0xffffffff, 0x0, 0x0, 0x0, 0x0, 0x0, 0x0, 0x0⟩,
  -- R407 FT_TM_CLR
  ⟨0x10600c, [(6, 0x10000)], 0x0, 0x0, 0x0, 0x0, 0xff, 0x0, 0xff, 0x0⟩,
  -- R408 FT_TMC_CTL
  ⟨0x106100, [(6, 0x10000), (8, 0x40)], 0x0, 0x0, 0x7bfff, 0x0, 0x0, 0x0, 0x0, 0x0⟩,
  -- R408 FT_TMC_PRESC
  ⟨0x106104, [(6, 0x10000), (8, 0x40)], 0x0, 0x0, 0xffff, 0x0, 0x0, 0x0, 0x0, 0x0⟩,
  -- R408 FT_TMC_INCFG
  ⟨0x106108, [(6, 0x10000), (8, 0x40)], 0x0, 0x0, 0xff0f, 0x0, 0x0, 0x3, 0x0, 0x0⟩,
  -- R408 FT_TMC_PWID
  ⟨0x10610c, [(6, 0x10000), (8, 0x40)], 0x0, 0x0, 0xffff, 0x0, 0x0, 0x14, 0x0, 0x0⟩,
  -- R408 FT_TMC_CNT
  ⟨0x106110, [(6, 0x10000), (8, 0x40)], 0x0, 0x0, 0xffffffff, 0x0, 0x0, 0x0, 0x0, 0x0⟩,
  -- R408 FT_TMC_CMP
  ⟨0x106114, [(6, 0x10000), (8, 0x40)], 0x0, 0x0, 0xffffffff, 0x0, 0x0, 0x0, 0x0, 0x0⟩,
  -- R408 FT_TMC_CMPSH
  ⟨0x106118, [(6, 0x10000), (8, 0x40)], 0xffffffff, 0x0, 0x0, 0x0, 0x0, 0x0, 0x0, 0x0⟩,
  -- R408 FT_TMC_INTV
  ⟨0x10611c, [(6, 0x10000), (8, 0x40)], 0x0, 0x0, 0xffffffff, 0x0, 0x0, 0x0, 0x0, 0x0⟩,
  -- R408 FT_TMC_CAP
  ⟨0x106120, [(6, 0x10000), (8, 0x40)], 0xffffffff, 0x0, 0x0, 0x0, 0x0, 0x0, 0x0, 0x0⟩,
  -- R408 FT_TMC_CAPNS
  ⟨0x106124, [(6, 0x10000), (8, 0x40)], 0xffffffff, 0x0, 0x0, 0x0, 0x0, 0x0, 0x0, 0x0⟩,
  -- R408 FT_TMC_CAPSEC
  ⟨0x106128, [(6, 0x10000), (8, 0x40)], 0xffffffff, 0x0, 0x0, 0x0, 0x0, 0x0, 0x0, 0x0⟩]

/-- Part 6 of the register map. -/
def regTable5 : List RegDesc := [
  -- R408 FT_TMC_SNAP
  ⟨0x10612c, [(6, 0x10000), (8, 0x40)], 0xffffffff, 0x0, 0x0, 0x0, 0x0, 0x0, 0x0, 0x0⟩,
  -- R408 FT_TMC_STAT
  ⟨0x106130, [(6, 0x10000), (8, 0x40)], 0x7f, 0x0, 0x0, 0x0, 0x0, 0x0, 0x4, 0x0⟩,
  -- R408 FT_TMC_EVT
  ⟨0x106134, [(6, 0x10000), (8, 0x40)], 0x0, 0x0, 0x0, 0x3f, 0x0, 0x0, 0x0, 0x0⟩,
  -- R408 FT_TMC_MATCHES
  ⟨0x106138, [(6, 0x10000), (8, 0x40)], 0xffffffff, 0x0, 0x0, 0x0, 0x0, 0x0, 0x0, 0x0⟩,
  -- R408 FT_TMC_MISS
  ⟨0x10613c, [(6, 0x10000), (8, 0x40)], 0xffffffff, 0x0, 0x0, 0x0, 0x0, 0x0, 0x0, 0x0⟩,
  -- R454 SV_CTL
  ⟨0x240000, [], 0x0, 0x0, 0x1, 0x0, 0x0, 0x0, 0x0, 0x0⟩,
  -- R454 SV_STAT
  ⟨0x240004, [], 0x8001ffff, 0x0, 0x0, 0x0, 0x0, 0xffff, 0x0, 0x0⟩,
  -- R454 SV_EVT
  ⟨0x240008, [], 0x0, 0x0, 0x0, 0xff, 0x0, 0x0, 0x0, 0x0⟩,
  -- R454 SV_IRQ
  ⟨0x24000c, [], 0x0, 0x0, 0xf00, 0xf, 0x0, 0x0, 0x0, 0x0⟩,
  -- R454 SV_CNT_FIRE
  ⟨0x240010, [], 0xffffffff, 0x0, 0x0, 0x0, 0x0, 0x0, 0x0, 0x0⟩,
  -- R454 SV_CNT_TAINT
  ⟨0x240014, [], 0xffffffff, 0x0, 0x0, 0x0, 0x0, 0x0, 0x0, 0x0⟩,
  -- R454 SV_CNT_DBE
  ⟨0x240018, [], 0xffffffff, 0x0, 0x0, 0x0, 0x0, 0x0, 0x0, 0x0⟩,
  -- R454 SV_CLR
  ⟨0x24001c, [], 0x0, 0x0, 0x0, 0x0, 0x7, 0x0, 0x7, 0x0⟩,
  -- R455 SV_ENG_STAT
  ⟨0x240100, [(17, 0x10)], 0xdf0003ff, 0x0, 0x0, 0x0, 0x0, 0x0, 0x0, 0x0⟩,
  -- R455 SV_ENG_LOAD
  ⟨0x240104, [(17, 0x10)], 0xffffffff, 0x0, 0x0, 0x0, 0x0, 0x0, 0x0, 0x0⟩,
  -- R455 SV_ENG_CNT
  ⟨0x240108, [(17, 0x10)], 0xffffffff, 0x0, 0x0, 0x0, 0x0, 0x0, 0x0, 0x0⟩,
  -- R455 SV_SPU_STAT
  ⟨0x240300, [(2, 0x10)], 0xffff000f, 0x0, 0x0, 0x0, 0x0, 0x0, 0xf, 0x0⟩,
  -- R455 SV_SPU_CNT
  ⟨0x240304, [(2, 0x10)], 0xffffffff, 0x0, 0x0, 0x0, 0x0, 0x0, 0x0, 0x0⟩,
  -- R455 SV_SPU_DROP
  ⟨0x240308, [(2, 0x10)], 0xffffffff, 0x0, 0x0, 0x0, 0x0, 0x0, 0x0, 0x0⟩,
  -- R455 SV_SENT_CTL
  ⟨0x240400, [(8, 0x10)], 0x0, 0x0, 0x803f1fff, 0x0, 0x0, 0x0, 0x0, 0x0⟩,
  -- R455 SV_SENT_PER
  ⟨0x240404, [(8, 0x10)], 0x0, 0x0, 0xffff, 0x0, 0x0, 0x3e8, 0x0, 0x0⟩,
  -- R455 SV_SENT_STAT
  ⟨0x240408, [(8, 0x10)], 0xc000ffff, 0x0, 0x0, 0x0, 0x0, 0x0, 0x0, 0x0⟩,
  -- R456 SV_CX_SPCFG
  ⟨0x242000, [(512, 0x10)], 0x0, 0x0, 0x8fe0ff00, 0x0, 0x0, 0x0, 0x0, 0x0⟩,
  -- R456 SV_CX_SNCFG
  ⟨0x242004, [(512, 0x10)], 0x0, 0x0, 0xffff0fff, 0x0, 0x0, 0x0, 0x0, 0x0⟩,
  -- R456 SV_CX_STAT
  ⟨0x242008, [(512, 0x10)], 0xff00ffff, 0x0, 0x0, 0x0, 0x0, 0x0, 0x1000000, 0x0⟩,
  -- R456 SV_CX_DROP
  ⟨0x24200c, [(512, 0x10)], 0xffffffff, 0x0, 0x0, 0x0, 0x0, 0x0, 0x0, 0x0⟩,
  -- R458 SVR_CFG
  ⟨0x248000, [(1024, 0x20)], 0x0, 0x0, 0xffffffff, 0x0, 0x0, 0x0, 0x0, 0x0⟩,
  -- R458 SVR_WIN
  ⟨0x248004, [(1024, 0x20)], 0x0, 0x0, 0xffffffff, 0x0, 0x0, 0x0, 0x0, 0x0⟩,
  -- R458 SVR_PAR
  ⟨0x248008, [(1024, 0x20)], 0x0, 0x0, 0xffffffff, 0x0, 0x0, 0x0, 0x0, 0x0⟩,
  -- R458 SVR_T1
  ⟨0x24800c, [(1024, 0x20)], 0x0, 0x0, 0xffffffff, 0x0, 0x0, 0x0, 0x0, 0x0⟩,
  -- R458 SVR_T2
  ⟨0x248010, [(1024, 0x20)], 0x0, 0x0, 0xffffffff, 0x0, 0x0, 0x0, 0x0, 0x0⟩,
  -- R458 SVR_HYS
  ⟨0x248014, [(1024, 0x20)], 0x0, 0x0, 0xffffffff, 0x0, 0x0, 0x0, 0x0, 0x0⟩]

/-- Part 7 of the register map. -/
def regTable6 : List RegDesc := [
  -- R458 SVR_ACT
  ⟨0x248018, [(1024, 0x20)], 0x0, 0x0, 0xffffffff, 0x0, 0x0, 0x0, 0x0, 0x0⟩,
  -- R458 SVR_STAT
  ⟨0x24801c, [(1024, 0x20)], 0xfffcffff, 0x0, 0x0, 0x0, 0x0, 0x0, 0x0, 0x0⟩,
  -- R505 TR_STAT
  ⟨0x250000, [], 0x1ffff, 0x0, 0x0, 0x0, 0x0, 0x0, 0x0, 0x0⟩,
  -- R505 TR_POOL
  ⟨0x250004, [], 0x0, 0x0, 0xfff07ff, 0x0, 0x0, 0x0, 0x0, 0x0⟩,
  -- R505 TR_SPWS
  ⟨0x250008, [], 0x0, 0x0, 0xfff07ff, 0x0, 0x0, 0x0, 0x0, 0x0⟩,
  -- R505 TR_POOLFREE
  ⟨0x25000c, [], 0xfff0fff, 0x0, 0x0, 0x0, 0x0, 0x0, 0x0, 0x0⟩,
  -- R505 TR_EVT
  ⟨0x250010, [], 0x0, 0x0, 0x0, 0xf, 0x0, 0x0, 0x0, 0x0⟩,
  -- R505 TR_CNT_SBE
  ⟨0x250014, [], 0xffffffff, 0x0, 0x0, 0x0, 0x0, 0x0, 0x0, 0x0⟩,
  -- R505 TR_CNT_DBE
  ⟨0x250018, [], 0xffffffff, 0x0, 0x0, 0x0, 0x0, 0x0, 0x0, 0x0⟩,
  -- R505 TR_CNT_EARLY
  ⟨0x25001c, [], 0xffffffff, 0x0, 0x0, 0x0, 0x0, 0x0, 0x0, 0x0⟩,
  -- R505 TR_CLR
  ⟨0x250020, [], 0x0, 0x0, 0x0, 0x0, 0x7, 0x0, 0x7, 0x0⟩,
  -- R506 Q_CFG
  ⟨0x251000, [(128, 0x40)], 0xf000000, 0x0, 0xf0fff7ff, 0x0, 0x0, 0x0, 0x0, 0x0⟩,
  -- R506 Q_WM
  ⟨0x251004, [(128, 0x40)], 0x0, 0x0, 0xffffffff, 0x0, 0x0, 0x0, 0x0, 0x0⟩,
  -- R506 Q_ORD
  ⟨0x251008, [(128, 0x40)], 0x0, 0x0, 0x80000fff, 0x0, 0x0, 0x0, 0x0, 0x0⟩,
  -- R506 Q_LAMBDA
  ⟨0x25100c, [(128, 0x40)], 0x800fffff, 0x0, 0x0, 0x0, 0x0, 0x0, 0x0, 0x0⟩,
  -- R506 Q_STAT
  ⟨0x251010, [(128, 0x40)], 0x800fffff, 0x0, 0x0, 0x0, 0x0, 0x0, 0x0, 0x0⟩,
  -- R506 Q_WR
  ⟨0x251014, [(128, 0x40)], 0x7fffff, 0x0, 0x0, 0x0, 0x0, 0x0, 0x0, 0x0⟩,
  -- R506 Q_EVT
  ⟨0x251018, [(128, 0x40)], 0x0, 0x0, 0x0, 0x3f, 0x0, 0x0, 0x0, 0x0⟩,
  -- R506 Q_CNT_REC
  ⟨0x25101c, [(128, 0x40)], 0xffffffff, 0x0, 0x0, 0x0, 0x0, 0x0, 0x0, 0x0⟩,
  -- R506 Q_CNT_DROP
  ⟨0x251020, [(128, 0x40)], 0xffffffff, 0x0, 0x0, 0x0, 0x0, 0x0, 0x0, 0x0⟩,
  -- R506 Q_CNT_OVW
  ⟨0x251024, [(128, 0x40)], 0xffffffff, 0x0, 0x0, 0x0, 0x0, 0x0, 0x0, 0x0⟩,
  -- R506 Q_CNT_LORD
  ⟨0x251028, [(128, 0x40)], 0xffffffff, 0x0, 0x0, 0x0, 0x0, 0x0, 0x0, 0x0⟩,
  -- R506 Q_MARKNS
  ⟨0x25102c, [(128, 0x40)], 0xffffffff, 0x0, 0x0, 0x0, 0x0, 0x0, 0x0, 0x0⟩,
  -- R506 Q_MARKSEC
  ⟨0x251030, [(128, 0x40)], 0xffffffff, 0x0, 0x0, 0x0, 0x0, 0x0, 0x0, 0x0⟩,
  -- R506 Q_CLR
  ⟨0x251034, [(128, 0x40)], 0x0, 0x0, 0x0, 0x0, 0xf, 0x0, 0xf, 0x0⟩,
  -- R507 TR_SUB_DLV
  ⟨0x254000, [(128, 0x20), (4, 0x8)], 0x7fffff, 0x0, 0x0, 0x0, 0x0, 0x0, 0x0, 0x0⟩,
  -- R507 TR_SUB_ACK
  ⟨0x254004, [(128, 0x20), (4, 0x8)], 0x7fffff, 0x0, 0x0, 0x0, 0x0, 0x0, 0x0, 0x0⟩,
  -- R572 P_CTL
  ⟨0x10000, [(4, 0x1000)], 0x0, 0x0, 0x1, 0x0, 0x0, 0x0, 0x0, 0x0⟩,
  -- R572 P_PERM
  ⟨0x10004, [(4, 0x1000)], 0x0, 0x0, 0x7fff, 0x0, 0x0, 0x0, 0x0, 0x0⟩,
  -- R572 P_KEY
  ⟨0x10008, [(4, 0x1000)], 0x0, 0x0, 0x107, 0x0, 0x0, 0x0, 0x0, 0x0⟩,
  -- R572 P_STAT
  ⟨0x10040, [(4, 0x1000)], 0x3f3f01, 0x0, 0x0, 0x0, 0x0, 0x0, 0x3f3f00, 0x0⟩,
  -- R572 P_EVT
  ⟨0x10044, [(4, 0x1000)], 0x0, 0x0, 0x0, 0xfff, 0x0, 0x0, 0x0, 0x0⟩]

/-- Part 8 of the register map. -/
def regTable7 : List RegDesc := [
  -- R572 P_CNT
  ⟨0x10060, [(4, 0x1000), (11, 0x4)], 0xffffffff, 0x0, 0x0, 0x0, 0x0, 0x0, 0x0, 0x0⟩,
  -- R572 P_CNTCLR
  ⟨0x1008c, [(4, 0x1000)], 0x0, 0x0, 0x0, 0x0, 0x7ff, 0x0, 0x7ff, 0x0⟩,
  -- R573 P_ETH_CTL
  ⟨0x10100, [(2, 0x1000)], 0x0, 0x0, 0xff, 0x0, 0x0, 0x0, 0x0, 0x0⟩,
  -- R573 P_ETH_MACLO
  ⟨0x10104, [(2, 0x1000)], 0x0, 0x0, 0xffffffff, 0x0, 0x0, 0x0, 0x0, 0x0⟩,
  -- R573 P_ETH_MACHI
  ⟨0x10108, [(2, 0x1000)], 0x0, 0x0, 0xffff, 0x0, 0x0, 0x0, 0x0, 0x0⟩,
  -- R573 P_ETH_DSTLO
  ⟨0x1010c, [(2, 0x1000)], 0x0, 0x0, 0xffffffff, 0x0, 0x0, 0x0, 0x0, 0x0⟩,
  -- R573 P_ETH_DSTHI
  ⟨0x10110, [(2, 0x1000)], 0x0, 0x0, 0xffff, 0x0, 0x0, 0x0, 0x0, 0x0⟩,
  -- R573 P_ETH_TYPE
  ⟨0x10114, [(2, 0x1000)], 0x0, 0x0, 0x7fffffff, 0x0, 0x0, 0x88b5, 0x0, 0x0⟩,
  -- R573 P_ETH_MTU
  ⟨0x10118, [(2, 0x1000)], 0x0, 0x0, 0x3fff, 0x0, 0x0, 0x5dc, 0x0, 0x0⟩,
  -- R573 P_ETH_FLUSH
  ⟨0x1011c, [(2, 0x1000)], 0x0, 0x0, 0xffff, 0x0, 0x0, 0x64, 0x0, 0x0⟩,
  -- R573 P_ETH_PAUSE
  ⟨0x10120, [(2, 0x1000)], 0x0, 0x0, 0xffff, 0x0, 0x0, 0xffff, 0x0, 0x0⟩,
  -- R573 P_ETH_STAT
  ⟨0x10140, [(2, 0x1000)], 0x7f, 0x0, 0x0, 0x0, 0x0, 0x0, 0x30, 0x0⟩,
  -- R573 P_ETH_CNT
  ⟨0x10160, [(2, 0x1000), (7, 0x4)], 0xffffffff, 0x0, 0x0, 0x0, 0x0, 0x0, 0x0, 0x0⟩,
  -- R573 P_ETH_CLR
  ⟨0x1017c, [(2, 0x1000)], 0x0, 0x0, 0x0, 0x0, 0x7f, 0x0, 0x7f, 0x0⟩,
  -- R574 P0_MDIO_CFG
  ⟨0x10300, [], 0x0, 0x0, 0x1ff, 0x0, 0x0, 0x63, 0x0, 0x0⟩,
  -- R574 P0_MDIO_CMD
  ⟨0x10304, [], 0x80000000, 0x0, 0x7ffcffff, 0x0, 0x0, 0x0, 0x80000000, 0x0⟩,
  -- R575 P_SHP_CTL
  ⟨0x12200, [(2, 0x1000)], 0x0, 0x0, 0x7f, 0x0, 0x0, 0x0, 0x0, 0x0⟩,
  -- R575 P_SHP_STAT
  ⟨0x12240, [(2, 0x1000)], 0x3, 0x0, 0x0, 0x0, 0x0, 0x0, 0x3, 0x0⟩,
  -- R576 SEC_KS_STAT
  ⟨0x20000, [(8, 0x4)], 0xffff0f03, 0x0, 0x0, 0x0, 0x0, 0x0, 0x0, 0x0⟩,
  -- R576 SEC_CTR_LO
  ⟨0x20040, [(4, 0x8)], 0xffffffff, 0x0, 0x0, 0x0, 0x0, 0x0, 0x0, 0x0⟩,
  -- R576 SEC_CTR_HI
  ⟨0x20044, [(4, 0x8)], 0xffffffff, 0x0, 0x0, 0x0, 0x0, 0x0, 0x0, 0x0⟩,
  -- R576 SEC_EVT
  ⟨0x20080, [], 0x0, 0x0, 0x0, 0x7, 0x0, 0x0, 0x0, 0x0⟩,
  -- R576 SEC_OTPW
  ⟨0x20100, [(128, 0x4)], 0xffffffff, 0x0, 0x0, 0x0, 0x0, 0x0, 0x0, 0x0⟩,
  -- R576 SEC_OTPDATA
  ⟨0x20300, [], 0x0, 0x0, 0xffffffff, 0x0, 0x0, 0x0, 0x0, 0x0⟩,
  -- R576 SEC_OTPPROG
  ⟨0x20304, [], 0x0, 0x0, 0x7f, 0x0, 0x0, 0x0, 0x0, 0x0⟩,
  -- R608 CL_CTL
  ⟨0x50000, [], 0x0, 0x0, 0xffff0003, 0x0, 0x0, 0x100a0000, 0x0, 0x0⟩,
  -- R608 CL_LOSS
  ⟨0x50004, [], 0x0, 0x0, 0xffff, 0x0, 0x0, 0x32, 0x0, 0x0⟩,
  -- R608 CL_STAT
  ⟨0x50008, [], 0xff00177, 0x0, 0x0, 0x0, 0x0, 0x100, 0x177, 0x100⟩,
  -- R608 CL_EVT
  ⟨0x5000c, [], 0x0, 0x0, 0x0, 0x1ff, 0x0, 0x0, 0x0, 0x0⟩,
  -- R608 CL_CNT_BLOCK
  ⟨0x50010, [], 0xffffffff, 0x0, 0x0, 0x0, 0x0, 0x0, 0x0, 0x0⟩,
  -- R608 CL_CNT_UNREC
  ⟨0x50014, [], 0xffffffff, 0x0, 0x0, 0x0, 0x0, 0x0, 0x0, 0x0⟩,
  -- R608 CL_CNT_NOLANE
  ⟨0x50018, [], 0xffffffff, 0x0, 0x0, 0x0, 0x0, 0x0, 0x0, 0x0⟩]

/-- Part 9 of the register map. -/
def regTable8 : List RegDesc := [
  -- R608 CL_CLR
  ⟨0x5001c, [], 0x0, 0x0, 0x0, 0x0, 0x7, 0x0, 0x7, 0x0⟩,
  -- R609 CL_LANE_DELAY
  ⟨0x50100, [(2, 0x40)], 0xffff, 0x0, 0x0, 0x0, 0x0, 0x0, 0x0, 0x0⟩,
  -- R609 CL_LANE_UNACK
  ⟨0x50104, [(2, 0x40)], 0xffffffff, 0x0, 0x0, 0x0, 0x0, 0x0, 0xffff, 0x0⟩,
  -- R609 CL_LANE_CNT_TX
  ⟨0x50108, [(2, 0x40)], 0xffffffff, 0x0, 0x0, 0x0, 0x0, 0x0, 0x0, 0x0⟩,
  -- R609 CL_LANE_CNT_RX
  ⟨0x5010c, [(2, 0x40)], 0xffffffff, 0x0, 0x0, 0x0, 0x0, 0x0, 0x0, 0x0⟩,
  -- R609 CL_LANE_CNT_CKL
  ⟨0x50110, [(2, 0x40)], 0xffffffff, 0x0, 0x0, 0x0, 0x0, 0x0, 0x0, 0x0⟩,
  -- R609 CL_LANE_CNT_RETX
  ⟨0x50114, [(2, 0x40)], 0xffffffff, 0x0, 0x0, 0x0, 0x0, 0x0, 0x0, 0x0⟩,
  -- R609 CL_LANE_CNT_DOWN
  ⟨0x50118, [(2, 0x40)], 0xffffffff, 0x0, 0x0, 0x0, 0x0, 0x0, 0x0, 0x0⟩,
  -- R609 CL_LANE_CNT_TRAINFAIL
  ⟨0x5011c, [(2, 0x40)], 0xffffffff, 0x0, 0x0, 0x0, 0x0, 0x0, 0x0, 0x0⟩,
  -- R609 CL_LANE_CLR
  ⟨0x50120, [(2, 0x40)], 0x0, 0x0, 0x0, 0x0, 0x7f, 0x0, 0x7f, 0x0⟩,
  -- R665 GLB_BOOTSTAT
  ⟨0x20, [], 0xffff1fff, 0x0, 0x0, 0x0, 0x0, 0x0, 0x0, 0x0⟩,
  -- R665 GLB_IMGVER
  ⟨0x24, [], 0xffffffff, 0x0, 0x0, 0x0, 0x0, 0x0, 0x0, 0x0⟩,
  -- R665 GLB_IMGSEQ
  ⟨0x28, [], 0xffffffff, 0x0, 0x0, 0x0, 0x0, 0x0, 0x0, 0x0⟩,
  -- R665 GLB_LOADERR
  ⟨0x2c, [], 0xffffffff, 0x0, 0x0, 0x0, 0x0, 0x0, 0x0, 0x0⟩,
  -- R665 GLB_LOADCTL
  ⟨0x30, [], 0x0, 0x0, 0x0, 0x0, 0x3fff0013, 0x0, 0x3fff0013, 0x0⟩,
  -- R665 GLB_LOADSTAT
  ⟨0x34, [], 0xc3ffffff, 0x0, 0x0, 0x0, 0x0, 0x0, 0xc3ffffff, 0x0⟩,
  -- R666 RST_CAUSE
  ⟨0x30800, [], 0xffffffff, 0x0, 0x0, 0x0, 0x0, 0x0, 0x0, 0x0⟩,
  -- R666 RST_CAUSEACC
  ⟨0x30804, [], 0x0, 0x0, 0x0, 0xffffffff, 0x0, 0x0, 0x0, 0x0⟩,
  -- R666 RST_LAST
  ⟨0x30808, [], 0x3ffff, 0x0, 0x0, 0x0, 0x0, 0xf4, 0x0, 0x0⟩,
  -- R666 RST_BOOT
  ⟨0x3080c, [], 0x1fffff, 0x0, 0x0, 0x0, 0x0, 0x0, 0x0, 0x0⟩,
  -- R666 RST_MAP
  ⟨0x30810, [(4, 0x4)], 0x77777777, 0x0, 0x0, 0x0, 0x0, 0x0, 0x0, 0x0⟩,
  -- R666 RST_WDT
  ⟨0x30820, [], 0x0, 0x0, 0xffffffc7, 0x0, 0x0, 0x3e81900, 0x0, 0x0⟩,
  -- R666 RST_CNT_HOLDOFF
  ⟨0x30828, [], 0xffffffff, 0x0, 0x0, 0x0, 0x0, 0x0, 0x0, 0x0⟩,
  -- R666 RST_CLR
  ⟨0x3082c, [], 0x0, 0x0, 0x0, 0x0, 0x1, 0x0, 0x1, 0x0⟩,
  -- R666 RST_FLOG_STAT
  ⟨0x30830, [], 0x1fffff, 0x0, 0x0, 0x0, 0x0, 0x0, 0x0, 0x0⟩,
  -- R666 RST_FLOG_SEL
  ⟨0x30834, [], 0x0, 0x3ff, 0x0, 0x0, 0x0, 0x0, 0x0, 0x0⟩,
  -- R666 RST_FLOG_W
  ⟨0x30838, [(4, 0x4)], 0xffffffff, 0x0, 0x0, 0x0, 0x0, 0x0, 0x0, 0x0⟩,
  -- R711 PWR_STAT
  ⟨0x30000, [], 0xf3fff, 0x0, 0x0, 0x0, 0x0, 0xf, 0x0, 0x0⟩,
  -- R711 PWR_CFG
  ⟨0x30004, [], 0x0, 0x0, 0xffffff3f, 0x0, 0x0, 0x3e81400, 0x0, 0x0⟩,
  -- R711 PWR_HWCFG
  ⟨0x30008, [], 0x0, 0x0, 0xffff0107, 0x0, 0x0, 0xa0000, 0x0, 0x0⟩,
  -- R711 PWR_HWCLR
  ⟨0x3000c, [], 0x0, 0x0, 0x0, 0x0, 0x1, 0x0, 0x1, 0x0⟩,
  -- R711 PWR_BANKCFG
  ⟨0x30010, [], 0x0, 0x0, 0x73f, 0x0, 0x0, 0x0, 0x0, 0x0⟩]

/-- Part 10 of the register map. -/
def regTable9 : List RegDesc := [
  -- R711 PWR_PADREL
  ⟨0x30014, [], 0x0, 0x0, 0x73f, 0x0, 0x0, 0x0, 0x73f, 0x0⟩,
  -- R711 PWR_PADSTAT
  ⟨0x30018, [], 0x73f, 0x0, 0x0, 0x0, 0x0, 0x0, 0x0, 0x0⟩,
  -- R711 PWR_AOC
  ⟨0x3001c, [], 0x100, 0x0, 0x3, 0x0, 0x0, 0x100, 0x2, 0x0⟩,
  -- R711 PWR_LASTWAKE
  ⟨0x30020, [], 0x7ff, 0x0, 0x0, 0x0, 0x0, 0x0, 0x0, 0x0⟩,
  -- R711 PWR_LWNS
  ⟨0x30024, [], 0xffffffff, 0x0, 0x0, 0x0, 0x0, 0x0, 0x0, 0x0⟩,
  -- R711 PWR_LWSEC
  ⟨0x30028, [], 0xffffffff, 0x0, 0x0, 0x0, 0x0, 0x0, 0x0, 0x0⟩,
  -- R711 PWR_ABORT
  ⟨0x3002c, [], 0xffffffff, 0x0, 0x0, 0x0, 0x0, 0x0, 0x0, 0x0⟩,
  -- R711 PWR_EVT
  ⟨0x30030, [], 0x0, 0x0, 0x0, 0xff, 0x0, 0x0, 0x0, 0x0⟩,
  -- R711 PWR_CNT_QLOST
  ⟨0x30034, [], 0xffffffff, 0x0, 0x0, 0x0, 0x0, 0x0, 0x0, 0x0⟩,
  -- R711 PWR_CNT_WKDROP
  ⟨0x30038, [], 0xffffffff, 0x0, 0x0, 0x0, 0x0, 0x0, 0x0, 0x0⟩,
  -- R711 PWR_CLR
  ⟨0x3003c, [], 0x0, 0x0, 0x0, 0x0, 0x7, 0x0, 0x7, 0x0⟩,
  -- R712 FH_LKSTAT
  ⟨0x200200, [], 0xffffffff, 0x0, 0x0, 0x0, 0x0, 0x0, 0x0, 0x0⟩,
  -- R741 GLB_GRF_STAT
  ⟨0x100, [], 0xffff0f71, 0x0, 0x0, 0x0, 0x0, 0x0, 0xf70, 0x0⟩,
  -- R741 GLB_GRF_ITEMS
  ⟨0x104, [], 0x1ff01ff, 0x0, 0x0, 0x0, 0x0, 0x0, 0x1ff, 0x0⟩,
  -- R741 GLB_GRF_LAST
  ⟨0x108, [], 0xfffffff0, 0x0, 0x0, 0x0, 0x0, 0x0, 0x0, 0x0⟩,
  -- R741 GLB_GRF_FAILIDX
  ⟨0x10c, [], 0x1ff, 0x0, 0x0, 0x0, 0x0, 0x0, 0x0, 0x0⟩,
  -- R741 GLB_GRF_EVT
  ⟨0x110, [], 0x0, 0x0, 0x0, 0x1f, 0x0, 0x0, 0x0, 0x0⟩,
  -- R741 GLB_GRF_CNT
  ⟨0x114, [], 0xffffffff, 0x0, 0x0, 0x0, 0x0, 0x0, 0x0, 0x0⟩,
  -- R741 GLB_GRF_MINSEQ
  ⟨0x118, [], 0xffffffff, 0x0, 0x0, 0x0, 0x0, 0x0, 0x0, 0x0⟩,
  -- R741 GLB_GRF_CLR
  ⟨0x11c, [], 0x0, 0x0, 0x0, 0x0, 0x1, 0x0, 0x1, 0x0⟩,
  -- R208 TPL_WORD
  ⟨0x220000, [(1024, 0x80), (32, 0x4)], 0x0, 0x0, 0xffffffff, 0x0, 0x0, 0x0, 0x0, 0x0⟩,
  -- R457 SV_RVAL
  ⟨0x244000, [(1024, 0x4)], 0xffffffff, 0x0, 0x0, 0x0, 0x0, 0x0, 0x0, 0x0⟩]

/-- The register map of R797. -/
def regTable : List RegDesc :=
  regTable0 ++ regTable1 ++ regTable2 ++ regTable3 ++ regTable4 ++ regTable5 ++ regTable6 ++ regTable7 ++ regTable8 ++ regTable9

/-- Whether an offset is a sum of strides, each index below its count (the address formulas of R797). -/
def dimsMatch : List (Nat × Nat) → Nat → Bool
  | [], off => off == 0
  | (n, stride) :: rest, off => decide (off / stride < n) && dimsMatch rest (off % stride)

/-- Whether an address is one of a descriptor's registers. -/
def RegDesc.covers (d : RegDesc) (a : Nat) : Bool :=
  decide (d.base ≤ a) && dimsMatch d.dims (a - d.base)

/-- The descriptor of an address, or none where the address is reserved (R18, R798). -/
def regDesc? (a : Nat) : Option RegDesc := regTable.find? (fun d => d.covers a)

end Sys2Proof.Machine
end

