-- ==== Sys2Proof/Machine/State.lean ====
section
/-! DEFINITION. The state of the YG4808 as plain data, its faults and refusals, and the state right after a cold reset.
Every register of the map is held in `regs` under its address, with its Cold value for one that nothing has changed;
what the registers do not show is held in the parts below, one per chapter. -/

namespace Sys2Proof.Machine

-- ---------------------------------------------------------------- Trellis, queues and records

/-- A record on its way to Trellis (R490 to R492). Times are full device times in nanoseconds. -/
structure Rec where
  q : Nat
  kind : Nat
  ctx : Nat
  flags : Nat
  seq : Nat
  ts : Nat
  payload : List Byte
  /-- The record's key (R479). -/
  key : Nat
  /-- Made by Sieve and not by the record builder (R477). -/
  sieve : Bool
  /-- It was on its way to Trellis at a step instant (R487). -/
  old : Bool := false
  deriving DecidableEq, Repr

/-- One record in a ring: what the boundary map and the record's header hold of it (R504). -/
structure Ent where
  /-- First line in the ring, and the lines it takes. -/
  off : Nat
  lines : Nat
  kind : Nat
  ctx : Nat
  ts : Nat
  key : Nat
  /-- The COUNT of an OVERWRITE GAP record (R475). -/
  ovw : Option Nat
  /-- The elapsed time at which it was written (R556). -/
  wrote : Nat
  deriving DecidableEq, Repr

/-- Records a context lost in a held queue and not yet reported (R473). -/
structure DropGap where
  ctx : Nat
  count : Nat
  first : Nat
  last : Nat
  deriving DecidableEq, Repr

/-- What a queue's registers do not show. -/
structure QueueS where
  /-- The records in the ring, oldest first (R465, R504). -/
  ents : List Ent := []
  /-- The SECHI of the last EPOCH record (R502). -/
  secHi : Option Nat := none
  /-- The reason of an EPOCH record due before the next record (R502). -/
  epochDue : Option Nat := none
  /-- The mark, a full device time (R482). -/
  mark : Nat := 0
  drops : List DropGap := []
  deriving DecidableEq, Repr

/-- A sample handed on by a context (R493, R494): each value as the record's word of its format. -/
structure Sample where
  seq : Nat
  /-- The instant, a full device time in ns. -/
  ts : Nat
  flags : Nat
  vals : List Word
  deriving DecidableEq, Repr

/-- An open SAMPLES record (R497). -/
structure OpenRec where
  samples : List Sample
  flags : Nat
  fmt : Nat
  preset : Nat
  filt : Bool
  deriving DecidableEq, Repr

/-- A snapshot ring in the pool (R463). -/
structure SnapRing where
  ctx : Nat
  page : Nat
  pages : Nat
  /-- The RINGL, V and FMT that it was placed for. -/
  ringl : Nat
  vals : Nat
  fmt : Nat
  deriving DecidableEq, Repr

structure TrellisS where
  /-- Records on their way, in arrival order (R477). -/
  path : List Rec := []
  /-- The reorder store, in arrival order (R482, R486). -/
  held : List Rec := []
  queues : Tab QueueS := []
  /-- Open SAMPLES records by context. -/
  openRecs : Tab (Option OpenRec) := []
  rings : List SnapRing := []
  deriving DecidableEq, Repr

-- ---------------------------------------------------------------- partner ports and security

/-- A command in a port's store (R518). -/
structure Cmd where
  op : Nat
  flags : BitVec 8
  tag : BitVec 16
  addr : Word
  ctr : Option Nat
  payload : List Word
  src : BitVec 48
  msg : BitVec 16
  /-- What its reads of queue memory meet (R503). -/
  mem : MemErr := {}
  /-- The elapsed time at which it began to wait for its owner (R33, R171). -/
  since : Option Nat := none
  deriving DecidableEq, Repr

/-- A response waiting on a port (R511). -/
structure Resp where
  cmd : Cmd
  status : Nat
  race : Bool
  payload : List Word
  /-- Its command counts as outstanding until it leaves; a request refused with BUSY found no room in the store (R516, R518). -/
  kept : Bool := true
  deriving DecidableEq, Repr

/-- A request being reassembled on an Ethernet port (R553). -/
structure Reasm where
  src : BitVec 48
  msg : BitVec 16
  next : Nat
  bytes : List Byte
  /-- The elapsed time of the first fragment. -/
  since : Nat
  deriving DecidableEq, Repr

/-- What has left the device on a ball or a port since reset, for the reader of a run. -/
inductive Sent where
  /-- A response, and on an Ethernet port the frames it goes in, from the destination address to the last byte before the FCS. -/
  | response (p : Partner) (r : Resp) (frames : List (List Byte))
  | stream (e : EthNo) (q : Nat) (bytes : List Byte)
  | forwarded (e : EthNo) (f : EthFrame)
  | pause (e : EthNo) (quanta : Nat)
  | ptp (e : EthNo) (kind seq : Nat) (bytes : List Byte)
  | mdio (cmd : Word)
  | claspNotice (x : Lane)
  deriving DecidableEq, Repr

/-- What a partner port's registers do not show. -/
structure PartnerS where
  /-- Commands whose response has not been sent or discarded (R518). -/
  outst : List Cmd := []
  /-- Responses waiting, oldest first. -/
  resp : List Resp := []
  /-- The last accepted counter (R523). -/
  lastCtr : Nat := 0
  reasm : List Reasm := []
  /-- Queues whose stream is on (R544), and the number of the next stream frame of each (R554). -/
  streams : List Nat := []
  sseq : Tab Nat := []
  /-- Bytes of the front record already sent in PART frames, by queue (R555). -/
  part : Tab Nat := []
  /-- The queue served last (R556); before the first frame, the one before queue 0. -/
  lastQ : Nat := 127
  /-- The elapsed time at which the pause in force ends (R559). -/
  pauseEnd : Nat := 0
  /-- Records of coming stream frames that an unrecoverable Clasp frame carried (R50). -/
  badRecs : Nat := 0
  /-- Frames from the other port that wait to leave here, and their bytes (R557). -/
  fwd : List EthFrame := []
  /-- Bytes in the 16 KiB receive buffer (R559). -/
  rxFill : Nat := 0
  /-- Forwarded and stream frames take turns (R558): the last one sent was a stream frame. -/
  turn : Bool := false
  /-- PTP messages that wait for a pause to end: kind, number, bytes (R559). -/
  ptpOut : List (Nat × Nat × List Byte) := []
  deriving DecidableEq, Repr

/-- A key slot: the key's bytes, none while EMPTY, and how many keys it has taken (R527, R576). -/
structure KeySlot where
  key : Option (List Byte) := none
  loads : Nat := 0
  deriving DecidableEq, Repr

/-- One entry of the fault log (R664). -/
structure FlogEntry where
  w0 : Word := 0
  w1 : Word := 0
  w2 : Word := 0
  w3 : Word := 0
  deriving DecidableEq, Repr

/-- Host NV memory and the fuses. -/
structure NvS where
  keys : Tab KeySlot := []
  /-- The counter bound H of each port (R524). -/
  bound : Tab Nat := []
  /-- The boot record (R648): true is slot B. -/
  active : Bool := false
  trial : Bool := false
  bootcnt : BitVec 16 := 0
  /-- The minimum image sequence (R643). -/
  minSeq : Nat := 0
  flog : Tab FlogEntry := []
  flogHead : Nat := 0
  flogCount : Nat := 0
  /-- Fuse words 8 to 127 (R626). -/
  otp : Tab Word := []
  /-- The elapsed time at which the last NV write pulse or fuse programming ends (R633). -/
  busyUntil : Nat := 0
  deriving DecidableEq, Repr

-- ---------------------------------------------------------------- Clasp

/-- A frame the sender keeps until it is acknowledged (R586). -/
structure ClaspOut where
  seq : Nat
  lane : Nat
  bytes : Nat
  cls : ClaspClass
  port : Partner
  tag : BitVec 16
  deriving DecidableEq, Repr

/-- One direction of Clasp traffic (R584, R585). -/
structure ClaspDir where
  nextTx : Nat := 0
  nextRx : Nat := 0
  unacked : List ClaspOut := []
  /-- Frames received ahead of the sequence; one whose CK-L does not hold is unrecoverable (R593). -/
  early : List ClaspFrame := []
  /-- Copies of the awaited frame that failed CK-L, by sequence number (R593). -/
  bad : Tab Nat := []
  deriving DecidableEq, Repr

structure ClaspS where
  /-- HB to FH, and FH to HB. -/
  down : ClaspDir := {}
  up : ClaspDir := {}
  /-- The elapsed times of CK-L failures at each end of each lane within the last millisecond (R588); the end of lane x that takes
  frames to the field side is 2x + 1, the other 2x. -/
  errs : Tab (List Nat) := []
  /-- The elapsed times at which each lane took its state (R582, R583, R605), and of the last valid frame at each of its ends (R588). -/
  laneAt : Tab Nat := []
  rxAt : Tab Nat := []
  /-- A lane has entered SERVICE since the side's last start (R601). -/
  been : Bool := false
  /-- The lanes train for the first time since a wake from Deep sleep (R601). -/
  first : Bool := false
  /-- An episode of R601 is running on the host side and on the field side (R622). -/
  epHost : Bool := false
  epField : Bool := false
  /-- The elapsed times at which each side's episode began, and the LOSSLIM that FH was last sent, in ms (R603, R622). -/
  epHostAt : Nat := 0
  epFieldAt : Nat := 0
  fhLim : Nat := 0
  /-- FH's own declaration waits for a lane (R622). -/
  fhReport : Bool := false
  /-- Field device time of that declaration, in ns. -/
  fhAt : Nat := 0
  /-- Field-side counts that wait for a lane: the six GLB_CKCNT and GLB_RACECNT (R63). -/
  waiting : Tab Nat := []
  deriving DecidableEq, Repr

-- ---------------------------------------------------------------- start-up, reset and power

/-- The dies (R610): HB, FH and the tiles. -/
inductive Die where
  | hb
  | fh
  | tile (t : TileNo)
  deriving DecidableEq, Repr

/-- What a source's reset reaches (R610). -/
inductive Reach where
  | device
  | side (x : Side)
  | die (d : Die)
  | port (n : PortNo)
  | filter (t : TileNo)
  | engine (e : Fin 17)
  | hbCore
  | fhCtl
  | lanes (x : Side)
  deriving DecidableEq, Repr

/-- A source of the running episode: its number of R618, level, reach, and whether it is still asserted. -/
structure SrcOn where
  no : Nat
  level : Nat
  reach : Reach
  on : Bool
  detail : Nat
  /-- It starts the sides it reaches cold (R611, R638, R659). -/
  cold : Bool := false
  deriving DecidableEq, Repr

/-- A reset episode (R630 to R632). -/
structure Episode where
  srcs : List SrcOn := []
  heldOff : Bool := false
  /-- Device time in ns at the first assertion (R664). -/
  began : Nat := 0
  deriving DecidableEq, Repr

/-- The image load in progress (R644, R656). -/
structure LoadS where
  /-- The bytes of the pass so far, and of pass 1. -/
  bytes : List Byte := []
  pass1 : Option (List Byte) := none
  /-- The load is a partner's. -/
  partner : Bool := false
  /-- Between BEGIN and END. -/
  inPass : Bool := false
  /-- The load window (R656), by word. -/
  window : Tab Word := []
  deriving DecidableEq, Repr

/-- One entry of the power schedule (R709). -/
structure SchedE where
  req : Word
  period : Nat
  start : Nat
  deriving DecidableEq, Repr

/-- A RESET command answered OK: its port, its tag, its word, and the elapsed time at which its response left (R637). -/
structure ResetReq where
  port : Nat
  tag : BitVec 16
  word : Word
  leftAt : Option Nat := none
  deriving DecidableEq, Repr

structure BootS where
  /-- The episodes that run, oldest first: no two share a die (R630). -/
  episodes : List Episode := []
  /-- The dies in reset: every die from its reset's assertion to the run of its episode's release sequence. -/
  inReset : List Die := []
  /-- Sources held off until an NV write ends (R633). -/
  heldSrcs : List SrcOn := []
  load : LoadS := {}
  bootsel : Bool := false
  /-- The fuses are loaded (R625). -/
  fused : Bool := false
  /-- A source FUSE, WAKEFAILH or an image failure holds the host side (R623, R624, R651). -/
  hostHeld : Bool := false
  wakeFailF : Bool := false
  /-- The start that follows an IMAGE reset goes to LOADWAIT (R651). -/
  imageFail : Bool := false
  /-- The sequence number of the image the field side was loaded from (R662). -/
  fieldSeq : Option Nat := none
  /-- The RESET commands that wait for their 20 µs (R637). -/
  resets : List ResetReq := []
  /-- The elapsed time of the last fuse load that failed (R624). -/
  fuseAt : Nat := 0
  /-- Reset pins held low (R620). -/
  hrst : Bool := false
  frst : Bool := false
  schedule : List SchedE := []
  /-- The second from which the next occurrence of each entry is taken (R710). -/
  schedAt : Tab Nat := []
  /-- The configuration flash (R639): what differs from erased bytes, its size, and the sectors a Graft has erased (R731). -/
  flash : Tab Byte := []
  flashBytes : Nat := 0x8000000
  /-- The smallest erase size that its SFDP table declares (R731). -/
  flashSector : Nat := 4096
  flashErased : List Nat := []
  /-- The running firmware (R641, R733). -/
  firmware : List Byte := []
  /-- The COMMIT that a hand-over of the firmware will answer: its port, the command and the status (R733). -/
  handover : Option (Nat × Cmd × Nat) := none
  deriving DecidableEq, Repr

/-- The states of a side (R667, R669). -/
inductive PowState where
  | run
  | sleep
  | deep
  | off
  | entering
  | waking
  | wakefail
  deriving DecidableEq, Repr

/-- The power state of one side. -/
structure SideS where
  st : PowState := .run
  /-- The state an entry leads to, and the last abort point reached (R679). -/
  target : PowState := .run
  ap : Nat := 0
  qret : Bool := false
  /-- The state the running wake left, its source (R687) and the retries used (R694). -/
  from_ : PowState := .run
  src : Nat := 0
  regRetry : Bool := false
  oscRetry : Bool := false
  /-- The elapsed times of AP0 of the entry, and of the start of the regulator's and the oscillator's wake step (R681, R694). -/
  apAt : Nat := 0
  regAt : Nat := 0
  oscAt : Nat := 0
  /-- The side runs on the internal RC until its oscillator is good (R692). -/
  onRc : Bool := true
  /-- The register values saved at AP2 (R683, R686). -/
  saved : Tab Word := []
  deriving DecidableEq, Repr

structure PowS where
  host : SideS := {}
  field : SideS := {}
  /-- The field state as HB last received it; none is UNKNOWN (R669). -/
  fieldSeen : Option PowState := none
  /-- Tiles in automatic and in commanded Sleep (R672). -/
  autoSleep : List TileNo := []
  cmdSleep : List TileNo := []
  /-- Banks held (R697) and banks whose supply is absent. -/
  held : List Nat := []
  noSupply : List Nat := []
  /-- Bank releases written while their side sleeps (R761). -/
  relDue : List Nat := []
  hwakeOut : Bool := false
  /-- The elapsed time at which HWAKE_OUT rose (R690). -/
  hwakeAt : Nat := 0
  /-- A request to drive HWAKE_OUT that waits for the VHIO bank (R690). -/
  hwakeDue : Bool := false
  /-- The classes of host wake requests waiting for the host side to reach Run (R689, R690). -/
  hostReqs : List Nat := []
  wkdrop : Nat := 0
  /-- The seconds of the last wake, which a read of PWR_LWNS copies (R711). -/
  lwSec : Nat := 0
  /-- The compare value of the power schedule on the always-on counter (R683, R710). -/
  compare : Option Nat := none
  deriving DecidableEq, Repr

-- ---------------------------------------------------------------- device time

/-- What a step does at its instant (R322, R329). -/
inductive StepAmt where
  /-- Add this many 2^-48 ns. -/
  | add (d : Int)
  /-- Device time becomes this value in 2^-48 ns. -/
  | set (v : Nat)
  deriving DecidableEq, Repr

/-- A step that waits for its instant (R322). -/
structure StepReq where
  amt : StepAmt
  /-- The instant in master time before the step, 2^-48 ns. -/
  at_ : Nat
  /-- The command to answer (R331). -/
  cmd : Option (Partner × Cmd)
  deriving DecidableEq, Repr

/-- What a pulse channel's registers do not show. -/
structure PulseS where
  /-- The next instant, ns of device time. -/
  next : Option Nat := none
  /-- A pulse is in progress since this elapsed time. -/
  active : Option Nat := none
  /-- The pin drives a level, and which (R351, R358). -/
  driven : Bool := false
  level : Bool := false
  /-- The seconds of the last leading edge (R366). -/
  lastSec : Word := 0
  deriving DecidableEq, Repr

/-- A foreign master's data set (R340, the default data set comparison). -/
structure Foreign where
  srcId : Nat
  srcPort : Nat
  prio1 : Nat
  cls : Nat
  acc : Nat
  var : Nat
  prio2 : Nat
  gmId : Nat
  steps : Nat
  utcOff : BitVec 16
  utcValid : Bool
  /-- Announce messages heard. -/
  heard : Nat
  deriving DecidableEq, Repr

/-- The PTP engine (R340 to R345). Stamps are in 2^-16 ns. -/
structure PtpS where
  foreign : List Foreign := []
  parent : Option Foreign := none
  /-- A two-step Sync that waits for its Follow_Up: its number, receive stamp and correction. -/
  sync : Option (Nat × Nat × Int) := none
  /-- The last Sync's t1 and t2, correction applied. -/
  t1t2 : Option (Int × Int) := none
  /-- A Delay_Req or Pdelay_Req in flight: its number and departure stamp. -/
  dreq : Option (Nat × Nat) := none
  /-- A peer's two-step response: t2 and t4. -/
  presp : Option (Int × Int) := none
  mpd : Int := 0
  mpdValid : Bool := false
  seqSync : Nat := 0
  seqDreq : Nat := 0
  seqAnn : Nat := 0
  /-- The elapsed time of the parent's last Announce message, or from which one is awaited (R340). -/
  annAt : Nat := 0
  deriving DecidableEq, Repr

structure TimeS where
  /-- Master and field device time in 2^-48 ns (R301, R303). -/
  master : Nat := 0
  field : Nat := 0
  /-- The servo's integral term, 0.001 ppb, and the time of the last accepted sample (R315). -/
  integ : Int := 0
  last : Option Nat := none
  firstSinceWake : Bool := false
  /-- Θ of the most recent refused sample, ns, and the refusals in a row (R315). -/
  refused : Int := 0
  refcnt : Nat := 0
  step : List StepReq := []
  /-- Steps of the field timebase alone that wait for their instants, and the amount pending without a lane (R323). -/
  fieldStep : List StepReq := []
  fieldPend : Int := 0
  /-- All steps the field timebase has taken, 2^-48 ns (R402 excludes them). -/
  stepSum : Int := 0
  /-- The latest step of the field timebase: the elapsed time, the instant in the old time and the amount, ns (R326, R381). -/
  lastStep : Option (Nat × Nat × Int) := none
  /-- Exchanges in a row within 2 ns, and the elapsed time of the last exchange (R307). -/
  good : Nat := 0
  exAt : Nat := 0
  /-- The rate the exchange last gave the field timebase, 0.001 ppb (R304, R308). -/
  frate : Int := 0
  /-- The master timebase has started and takes field time at the next exchange (R311). -/
  fromField : Bool := false
  /-- The elapsed time of the previous PPS_IN edge, and the seconds of the latest stamp (R347, R349). -/
  ppsLast : Option Nat := none
  ppsSec : Word := 0
  pulses : Tab PulseS := []
  /-- The always-on counter, its fraction in 1/1,000,000,000 tick, the latched time V0 and the counter then (R360). -/
  aoc : Nat := 0
  aocFrac : Nat := 0
  v0 : Nat := 0
  aoc0 : Nat := 0
  ptp : PtpS := {}
  deriving DecidableEq, Repr

/-- Why the machine stops. No command of this model stops it: every outcome the specification describes is a next
state. Safe. -/
inductive Fault where
  /-- Raised by nothing; a machine that reached it would have stopped outside the specification. Safe. -/
  | outsideSpec
  deriving DecidableEq, Repr

/-- Why a command has no meaning. -/
inductive Refusal where
  /-- Raised by an arm of exec whose command has not been given its meaning. Safe. -/
  | notModelled (mnemonic : String)
  deriving DecidableEq, Repr

-- ---------------------------------------------------------------- contexts and the schedule

/-- An action that waits for a context's period boundary (R203, R726). -/
inductive CtxAct where
  | change (words : List Word)
  | remove
  | start
  | stop
  /-- A write of a bound slot (R295), by slot. -/
  | slotWrite (t : TileNo) (s : FSlot) (v : Word)
  /-- A changed calibration: GAIN and OFFS (Graft CAL). -/
  | cal (gain offs : Word)
  /-- The context goes over to the changed steps of a template (Graft), by number. -/
  | template (j : Nat)
  deriving DecidableEq, Repr

/-- A GAP record that waits for the first output after a restart (R282). -/
structure GapDue where
  cause : Nat
  start : Nat
  deriving DecidableEq, Repr

/-- What a context's entry in the table does not show. Times are field device time in ns. -/
structure CtxS where
  /-- The number of the context's next sample (R493). -/
  nextSample : Nat := 0
  /-- The next nominal time N and due time D, once it is scheduled (R222). -/
  sched : Option (Nat × Nat) := none
  /-- The next poll ends a shortened period (R226). -/
  cuNext : Bool := false
  /-- The last start's elapsed time (R230). -/
  lastStart : Option Nat := none
  /-- The first nominal time of the alert profile (R231). -/
  altBase : Nat := 0
  /-- A pending profile request: true is alert (R438). -/
  profReq : Option Bool := none
  /-- Actions that wait for the boundary, in order, each with the Graft item it answers. -/
  acts : List CtxAct := []
  /-- Nominal times not polled while the identity slot is ABSENT: first, last, count (R183). -/
  absent : Option (Nat × Nat × Nat) := none
  /-- The schedule resumes after an absence, a wake or a reset: the next poll carries no flag; the first nominal time not
  polled (R183, R613, R693). -/
  gapFrom : Option Nat := none
  gapDue : Option GapDue := none
  /-- The instant of the last output handed on since the context was added or started (R282). -/
  lastInst : Option Nat := none
  /-- The number of the next output of a bitstream context (R493). -/
  outNo : Nat := 0
  /-- The QUARANTINE flag that records keep until the next boundary after an accept (R185). -/
  quarKeep : Bool := false
  /-- The words of its template that it runs until its boundary, after a Graft changed the template (R724). -/
  oldTpl : Option (List Word) := none
  /-- A CHANGE has given the context a new grid: the nominal time after the next poll's is taken from it (R204, R207, R222). -/
  regrid : Bool := false
  deriving DecidableEq, Repr

/-- A transaction in a slot (R125, R218 to R221). -/
structure TxnS where
  ctx : Nat
  tn : Nat
  /-- Nominal and due time, and the flags of the poll (R224, R226). -/
  nom : Nat
  due : Nat
  cu : Bool
  late : Bool := false
  alert : Bool := false
  /-- The start S (R223), and the elapsed time of the first step of the first attempt (R111). -/
  start : Option Nat := none
  began : Option Nat := none
  lag : Nat := 0
  attempts : Nat := 1
  step : Nat := 0
  /-- Passes left of the LOOP at a step (R216). -/
  loopLeft : Option Nat := none
  frame : List Bool := []
  lastRx : List Bool := []
  /-- SCK edges driven and read back (R114). -/
  drove : Nat := 0
  read : Nat := 0
  /-- An earlier attempt read back too few edges, or too many (R114, R129). -/
  few : Bool := false
  many : Bool := false
  /-- Over all its attempts: a bit has been received, and one of them was 0 (R117). -/
  bits : Bool := false
  zeros : Bool := false
  /-- An attempt has held the wire (R501). -/
  wired : Bool := false
  /-- The elapsed time of the last SCK edge of the present attempt (R92, R103). -/
  lastEdge : Option Nat := none
  /-- The level of a WAITDR on DI has been seen while the slot waits for the wire (R133). -/
  seen : Bool := false
  /-- The stamps, each with whether it was taken in a state of R320. -/
  tsFrame : Option (Nat × Bool) := none
  tsDr : Option (Nat × Bool) := none
  tsTrig : Option (Nat × Bool) := none
  /-- The line its last WAITDR step watched: 0 DI, 1 to 3 SS0 to SS2. -/
  watched : Option Nat := none
  stores : List Int := []
  race : Bool := false
  ckp : Bool := false
  sel : Bool := false
  /-- SQn_SLOTi.WAIT (R242), and the elapsed time at which the present step or wait began. -/
  wait : Nat := 0
  stepAt : Nat := 0
  /-- A TRIG pulse of the present step is in progress (R131). -/
  pulse : Bool := false
  /-- The target of that pulse: 0 to 3 a TRIG pin, 4 to 6 SS0 to SS2 (R209). -/
  pulseOn : Option Nat := none
  /-- The transaction has ended with an outcome and a cause, and its completion is on its way (R125, R126). -/
  fin : Option (Nat × Nat) := none
  /-- GAP, SLEN, RETRY, TLIM and STUCK as they stood when the transaction began (R78). -/
  gap : Word := 0
  slen : Nat := 0
  retry : Word := 0
  tlim : Nat := 0
  stuck : Nat := 0
  /-- A sentinel's poll (R704). -/
  sentinel : Bool := false
  deriving DecidableEq, Repr

/-- What waits in a tile's outbound buffer: the completion of a slot of a port with the transaction, its outcome and cause, the number of
its STORE fields that fail CK-A and its time; or an output of a filter slot, whose value waits in the slot (R67, R612). -/
inductive OutItem where
  | completion (n i : Nat) (t : TxnS) (o c cka at_ : Nat)
  | output (f : Nat)
  deriving DecidableEq, Repr

/-- What a tile sequencer keeps beside its registers. -/
structure TileS where
  /-- Elapsed time of the last transaction issued (R220). -/
  lastIssue : Option Nat := none
  /-- The present second of device time and the transactions started in it (R242). -/
  sec : Nat := 0
  started : Nat := 0
  /-- The tile sleeps or is in reset: field device time less the steps so far at that moment, 2^-48 ns (R402). -/
  slept : Option Int := none
  /-- The idle levels of the TRIG pins that contexts claim, by pin, and the pins on which a pulse is in progress (R237). -/
  trigIdle : Tab (Option Bool) := []
  trigPulse : List Nat := []
  /-- Completions and filter outputs in the tile's outbound buffer while FH is in reset, oldest first (R67, R612). -/
  outbox : List OutItem := []
  deriving DecidableEq, Repr

/-- One window command of a port (R161, R173). -/
structure WinCmd where
  port : Partner
  cmd : Cmd
  write : Bool
  addr : Nat
  bytes : List Byte
  /-- Bytes to read in all; bytes received. -/
  want : Nat
  got : List Byte
  /-- The phase of a WRITE: 0 WEOP, 1 WROP, 2 the first SROP, 3 the repeats (R175). -/
  phase : Nat := 0
  /-- Words of a READ that lie past the window's end (R56). -/
  past : Nat := 0
  /-- The elapsed time at which it reached the port (R171), and that of a WRITE's command 3, or of its last status read, once there
  is one (R175, R176). -/
  since : Nat := 0
  wlim : Option Nat := none
  srop : Nat := 0
  deriving DecidableEq, Repr

/-- What a port's registers do not show. -/
structure PortS where
  slots : List (Option TxnS) := [none, none, none, none, none, none, none, none]
  /-- The slot that holds the wire. -/
  wire : Option Nat := none
  /-- Contexts that wait for a slot, in order (R219). -/
  waiters : List Nat := []
  /-- The most recent edge into the active level of DI, SS0, SS1, SS2 (R109), and whether the level is taken as active. -/
  drEdge : Tab (Option (Nat × Bool)) := []
  drOn : Tab Bool := []
  /-- All-ones runs by select or code (R117), the selects in a stuck condition, and the streams in one (R118, R119). -/
  ones : Tab Nat := []
  stuckSel : List Nat := []
  stuckStreams : List Nat := []
  /-- The level of each stream at the end of its last block, and for how many sampling edges it has lasted (R118). -/
  lastLvl : Tab (Option (Bool × Nat)) := []
  /-- FPn_STUCK.RUN as it stood at the last block boundary (R78). -/
  runLim : Nat := 0
  /-- A disable waits for the transaction on the wire, which is that of this slot (R79). -/
  disabling : Option Nat := none
  /-- The outputs are driven (R75); after a disable, until this elapsed time (R79). -/
  driven : Bool := false
  offAt : Nat := 0
  /-- The last select release: the slot that held the wire, none for a window command; the select or code; and the elapsed time at
  which the hold gap ends and the select is released (R91, R131). -/
  relSlot : Option Nat := none
  relSel : Option Nat := none
  relAt : Nat := 0
  /-- The elapsed time at which the idle gap after the last select release ends (R91, R132). -/
  freeAt : Nat := 0
  /-- What the XFER step or serial command that last took the wire sends, in wire order, and the select or code it is sent to (R87,
  R161, R175, R212). -/
  txBits : List Bool := []
  txSel : Nat := 0
  /-- How many window commands, from the front, end with LINK_DOWN once the wire is free (R177). -/
  endWin : Nat := 0
  /-- A select was active when a warm reset asserted (R140). -/
  selHeld : Bool := false
  /-- The elapsed time at which the 8 SCK periods of R140 end. -/
  relseq : Option Nat := none
  /-- Blocks are taken in (R98). -/
  blk : Bool := false
  /-- Good SCK periods in a row, and whether CLKOK was 0 at a period of the block in progress (R97, R99). -/
  clkRun : Nat := 0
  blkBad : Bool := false
  /-- The clock was lost, or the bank or a reset stopped it, so that the slots restart when CLKOK returns: the GAP cause and
  the time of the event (R100, R141, R143, R282). -/
  clkGap : Option (Nat × Nat) := none
  /-- Since when a slot has held the wire, and for how long in the present 1 ms window (R242). -/
  wireSince : Nat := 0
  wireAcc : Nat := 0
  /-- The elapsed time at which the 1 ms window of SQn_LOAD began (R242). -/
  loadAt : Nat := 0
  winQ : List WinCmd := []
  /-- Identity slots whose read is waiting (R180). -/
  idDue : List Nat := []
  /-- The first identity read of a slot has ended (R181). -/
  idDone : List Nat := []
  /-- Slots whose read ended without bytes and is to be repeated, and the elapsed time from which the probe period of each slot counts
  (R179, R180). -/
  idRetry : List Nat := []
  idAt : Tab Nat := []
  /-- 0 none, 1 1.8 V, 2 2.5 V, 3 3.3 V (R73). -/
  bankV : Nat := 3
  bankOk : Bool := true
  /-- The seconds of the latest stamp (R158). -/
  lastSec : Word := 0
  deriving DecidableEq, Repr

-- ---------------------------------------------------------------- the filter engine

/-- An input of a word slot: its value and the stamp, number and flags of its sample (R271, R274). -/
structure WordIn where
  val : Int
  ts : Nat
  tn : Nat
  flags : Nat
  deriving DecidableEq, Repr

/-- An input of a bitstream slot: one block with its BLOCK stamp (R247, R273). -/
structure BlockIn where
  /-- Bit i is the i-th bit sampled. -/
  bits : BitVec 256
  ts : Nat
  hold : Bool
  /-- Steps of device time since the stamp: the instant in the old time and the amount (R326). -/
  steps : List (Nat × Int) := []
  deriving DecidableEq, Repr

/-- An output that waits for the other slots of its context (R275), with its CK-F as it reaches the record builder (R269). -/
structure OutVal where
  val : Int
  ckf : Nat := 0
  ts : Nat
  seq : Nat
  flags : Nat
  deriving DecidableEq, Repr

/-- What a filter slot's registers do not show. -/
structure FiltS where
  /-- The inputs since the restart, newest first, as far as they are needed; how many there have been. -/
  words : List WordIn := []
  blocks : List BlockIn := []
  count : Nat := 0
  /-- Outputs computed since the restart. -/
  outs : Nat := 0
  /-- Ranges of output indexes to mark, from and to (R265). -/
  marks : List (Nat × Nat) := []
  ready : List OutVal := []
  /-- The slot changes bank at its next output (R285). -/
  swapDue : Bool := false
  /-- The seconds of the last instant (R294). -/
  lastSec : Word := 0
  deriving DecidableEq, Repr

-- ---------------------------------------------------------------- Sieve

/-- A sample as Sieve sees it (R414). -/
structure SvSample where
  seq : Nat
  ts : Nat
  flags : Nat
  vals : List Word
  taint : Bool
  /-- The snapshot pool and the spectral workspace still hold it (R671). -/
  pool : Bool := true
  deriving DecidableEq, Repr

/-- What waits in an engine's input buffer: samples, and the marks between them. -/
inductive SvItem where
  | smp (x : SvSample)
  /-- The windows restart (R420). -/
  | restart
  /-- A context starts or its rule set changes: the states clear too (R421). -/
  | clear
  /-- A profile switch: true is alert (R439). -/
  | prof (alert : Bool)
  deriving DecidableEq, Repr

/-- A spectral block in a unit's queue (R426). -/
structure SpBlock where
  ctx : Nat
  /-- The sample number since the restart at which it ends, and the restart it belongs to. -/
  endN : Nat
  epoch : Nat
  first : Nat
  seq : Nat
  ts : Nat
  flags : Nat
  taint : Bool
  /-- The 1,024 values of its channel, oldest first (R426). -/
  vals : List Word := []
  deriving DecidableEq, Repr

/-- A sample whose leaves have been judged but for its BAND rules: whether a snapshot was collecting before it, the rules judged with their
values, and the rules whose leaf was 1 before (R428, R433, R444). -/
structure SvHold where
  sample : SvSample
  busy : Bool
  judged : List (Nat × Word)
  before : List Nat
  deriving DecidableEq, Repr

/-- A BAND window that waits for its transforms (R428). -/
structure BandWin where
  rule : Nat
  lo : Nat
  hi : Nat
  epoch : Nat
  sample : SvSample
  taint : Bool
  deriving DecidableEq, Repr

/-- A snapshot that is collecting (R441). -/
structure SnapS where
  rule : Nat
  trig : Nat
  flags : Nat
  pre : List SvSample
  post : List SvSample
  want : Nat
  deriving DecidableEq, Repr

/-- What Sieve keeps of a context. -/
structure SvCtx where
  waiting : List SvItem := []
  /-- Samples since the last restart, newest first, as far as they are needed; how many there have been. -/
  hist : List SvSample := []
  n : Nat := 0
  /-- How many restarts there have been: it tells the blocks of one stretch from those of another. -/
  epoch : Nat := 0
  /-- Sums of the transforms completed, by rule: block end and sum (R428). -/
  bands : List (Nat × Nat × Rat) := []
  bandWins : List BandWin := []
  /-- The sample that waits for its BAND windows: the context's later samples and marks wait behind it (R428, R433, R444). -/
  held : Option SvHold := none
  snap : Option SnapS := none
  /-- Transforms completed for the context, and since the last SPECTRUM record (R500, R429). -/
  tno : Nat := 0
  /-- A rule-set change that waits for the window of the rule at RBASE (R446). -/
  ruleSet : Option (List (Nat × Word)) := none
  /-- The window that change waited for has ended: it takes effect before the next sample (R446). -/
  ruleDue : Bool := false
  deriving DecidableEq, Repr

/-- A sentinel's samples and window (R451, R706): stamp, value word, number. -/
structure SentS where
  kept : List Sample := []
  win : List Word := []
  /-- A rise waits for the field side to reach Run (R452): value and sample. -/
  rose : Option (Word × Sample) := none
  /-- The always-on counter at its next poll (R703). -/
  next : Nat := 0
  deriving DecidableEq, Repr

structure SieveS where
  ctxs : Tab SvCtx := []
  /-- The start instants of SEQ sequences, by rule (R434). -/
  seqT0 : Tab Nat := []
  spu : Tab (List SpBlock) := []
  sents : Tab SentS := []
  /-- PULSE actions on their way to HB (R354). -/
  pulses : List Nat := []
  deriving DecidableEq, Repr

-- ---------------------------------------------------------------- tile timers

/-- What a timer channel's registers do not show. -/
structure TmrS where
  /-- The channel runs: its EN is 1. -/
  on : Bool := false
  /-- The prescaler count, and the remainder of a nanosecond (R369, R370). -/
  phase : Nat := 0
  rem : Nat := 0
  /-- The low half of a linked pair's CMP and INTV that waits for the high half (R391). -/
  heldCmp : Option Word := none
  heldIntv : Option Word := none
  /-- Accepted edges since EN became 1 (R380). -/
  edges : Nat := 0
  /-- The seconds and the odd half that a read of CAP copies (R383). -/
  capSec : Word := 0
  capNs : Word := 0
  capHi : Word := 0
  /-- A pulse in progress: tile cycles left; the pin's level, where the channel drives it (R394, R395). -/
  pulse : Option Nat := none
  level : Option Bool := none
  deriving DecidableEq, Repr

-- ---------------------------------------------------------------- Graft

/-- A staged item (R719 to R721): its header word, or the kind of a staged command, and its words. -/
structure GraftItem where
  kind : Nat
  words : List Word
  deriving DecidableEq, Repr

/-- A committed item that waits for a later boundary (R726): the actions it left with contexts, and the rule-set words it left,
by context and by the rule or configuration word they belong to. -/
structure WaitItem where
  acts : List (Nat × CtxAct)
  rules : List (Nat × Nat)
  deriving DecidableEq, Repr

/-- The open Graft (R713). -/
structure GraftS where
  gid : Nat
  holder : Partner
  tmo : Nat
  /-- Elapsed time of the holder's last answered step (R716). -/
  since : Nat
  items : List GraftItem
  /-- The end of the latest FLASH (R731). -/
  flashEnd : Nat := 0
  deriving DecidableEq, Repr

/-- What a ball does: high impedance with its weak pull, or driven low or high. -/
inductive Ball where
  | hiz
  | low
  | high
  deriving DecidableEq, Repr

/-- The output balls of a field port: SCK, DO and SS0 to SS2 (R72). -/
structure PortBalls where
  sck : Ball := .hiz
  dout : Ball := .hiz
  ss0 : Ball := .hiz
  ss1 : Ball := .hiz
  ss2 : Ball := .hiz
  deriving DecidableEq, Repr

/-- The lines the device drives, each from the state of its sources (R72, R237, R617, R658, R758). -/
structure PinsS where
  /-- The balls of the field ports, and the TRIG pins by 4t + p. -/
  ports : Tab PortBalls := []
  trig : Tab Ball := []
  /-- UART_TX, whether the CFG balls are driven, and whether the transmit lanes of P0 and P1 are active: they are in electrical idle
  otherwise (R658). -/
  uart : Ball := .hiz
  cfg : Bool := false
  lanes : Tab Bool := []
  /-- HPULSE0 to HPULSE3 and PPS_OUT by channel, HWAKE_OUT high, and whether MDC and MDIO are driven (R351, R574, R690, R755). -/
  pulses : Tab Ball := []
  hwake : Bool := false
  mdio : Bool := false
  /-- HIRQ0_N to HIRQ3_N driven low. -/
  hirq : BitVec 4 := 0
  /-- HFAULT_N and FFAULT_N driven low. -/
  hfault : Bool := true
  ffault : Bool := true
  deriving DecidableEq, Repr

/-- The canonical form of an addressed memory: byte offsets strictly rising, and no entry equal to the zero that an unlisted byte
reads as (notes/assumptions/4.md). -/
def Memory.wf (m : List Host.Cell) : Bool := tabWf (fun _ => (0 : Byte)) m

/-- The state of the YG4808. -/
structure State where
  /-- Commands and events that wait, first in first out: the model's own queue. -/
  pending : List Instr := []
  /-- The model's own counter: how many free values have been used (DESIGN CHOICE, notes/assumptions/2.md). -/
  fresh : Nat := 0
  /-- Time elapsed since reset in ns: what the device's limits are measured in. -/
  elapsed : Nat := 0
  /-- Every register of R797 that the other fields do not hold, by address. -/
  regs : Tab Word := []
  /-- The 8 MiB queue memory, by byte offset (R459, R800). -/
  qmem : List Host.Cell := []
  tm : TimeS := {}
  tr : TrellisS := {}
  ctxs : Tab CtxS := []
  ports : Tab PortS := []
  tiles : Tab TileS := []
  /-- Filter slots by 16t + s, timer channels by 8t + c. -/
  filt : Tab FiltS := []
  sv : SieveS := {}
  tmrs : Tab TmrS := []
  /-- The elapsed time up to which the tile timers have run, and whether the debugger halts them (R398). -/
  tmrAt : Nat := 0
  frozen : Bool := false
  /-- The seconds of each tile's last snapshot (R407). -/
  snapSec : Tab Word := []
  graft : Option GraftS := none
  /-- Committed items that wait (R726). -/
  waits : List WaitItem := []
  part : Tab PartnerS := []
  /-- Commands in command order that wait for a sleeping or resetting domain, each with its port (R31, R612, R691). -/
  stalled : List (Nat × Cmd) := []
  nv : NvS := {}
  /-- NV memory as it was before the write in progress: what a write torn by a loss of power leaves (R635). -/
  nvOld : NvS := {}
  cl : ClaspS := {}
  boot : BootS := {}
  pow : PowS := {}
  pins : PinsS := {}
  /-- What has left the device since reset: the model's own record for the reader of a run (notes/assumptions/3.md). -/
  sent : List Sent := []
  deriving DecidableEq, Repr

/-- The dies of the part (R24). -/
def allDies : List Die := .hb :: .fh :: (List.finRange 6).map Die.tile

/-- Fuse words 8 to 11 as shipped: the safe levels of R618 in the coding of R627. (DESIGN CHOICE, notes/assumptions/4.md.) -/
def safeMap : Tab Word := [(8, 0x22000000), (9, 0x21101111), (10, 0x00010011), (11, 0x00000044)]

/-- The reset episode of a device whose sides are powered together (R618, R631): both power-on sources have released and
every die waits for the release sequence. (DESIGN CHOICE, notes/assumptions/4.md.) -/
def powerOnEpisode : Episode :=
  { srcs := [{ no := 0, level := 0, reach := .side .host, on := false, detail := 0, cold := true },
             { no := 3, level := 0, reach := .side .field, on := false, detail := 0, cold := true }]
    heldOff := false, began := 0 }

/-- The machine right after power-on of both sides: every register at its Cold value (R12), RST_CAUSE and RST_CAUSEACC
showing the two power-on sources (R632, R666), a new device's NV memory and fuses (R527, R627, R643, R648), and the
release sequence still to run (the row RESET_RELEASE). Values that the specification leaves open are zero
(DESIGN CHOICE, notes/assumptions/4.md). -/
def State.reset : State :=
  { regs := [(R.RST_CAUSE, 9), (R.RST_CAUSEACC, 9)]
    nv := { otp := safeMap }
    boot := { episodes := [powerOnEpisode], inReset := allDies } }

end Sys2Proof.Machine
end

