-- ==== Sys2Proof/Machine/Ops.lean ====
section
/-! DEFINITION. The named operations over registers, counters, device time and shared lines that every chapter uses. -/

namespace Sys2Proof.Machine

-- ---------------------------------------------------------------- registers

/-- The Cold value of an address (R12); a reserved address reads zero (R18). Engine 16 is the spare (R454). -/
def regCold (a : Nat) : Word :=
  if a = R.SV_ENG_STAT 16 then 0x40000000
  else match regDesc? a with
  | some d => BitVec.ofNat 32 d.cold
  | none => 0

/-- The stored value of a register. -/
def reg (s : State) (a : Nat) : Word := tabGet regCold s.regs a

/-- A register given a value by the device. -/
def setReg (a : Nat) (v : Word) (s : State) : State := { s with regs := tabSet regCold s.regs a v }

/-- The value of a field of a register. -/
def fld (s : State) (a : Nat) (f : Fld) : Nat := getFld (reg s a) f

/-- A one-bit field read as a Bool. -/
def flag (s : State) (a : Nat) (f : Fld) : Bool := fld s a f == 1

/-- A field of a register given a value by the device. -/
def setFld (a : Nat) (f : Fld) (x : Nat) (s : State) : State := setReg a (putFld (reg s a) f x) s

/-- A one-bit field given a Bool. -/
def setFlag (a : Nat) (f : Fld) (b : Bool) (s : State) : State := setFld a f (b2n b) s

/-- A latched event bit is set (R40). -/
def evt (a : Nat) (f : Fld) (s : State) : State := setFld a f 1 s

/-- A 32-bit counter counts n, saturating at 0xFFFF_FFFF. -/
def cntAdd (a n : Nat) (s : State) : State := setReg a (BitVec.ofNat 32 (satAdd 32 (reg s a).toNat n)) s

/-- A 32-bit counter counts once. -/
def cnt (a : Nat) (s : State) : State := cntAdd a 1 s

/-- A counter field counts once, saturating at its width. -/
def cntFld (a : Nat) (f : Fld) (n : Nat) (s : State) : State := setFld a f (satAdd f.w (fld s a f) n) s

/-- The i-th register of a group is zeroed for each set bit of a CLR word (R40, R41). -/
def clrBits (addrs : List Nat) (v : Word) (s : State) : State :=
  addrs.zipIdx.foldl (fun st (p : Nat × Nat) => if bitOf v.toNat p.2 then setReg p.1 0 st else st) s

/-- What the condition does where it holds. (DESIGN CHOICE, notes/assumptions/6.md.) -/
def onlyIf (b : Bool) (f : State → State) (s : State) : State := if b then f s else s

/-- A list of updates in order. -/
def eachOf {α : Type} (l : List α) (f : α → State → State) (s : State) : State := l.foldl (fun st x => f x st) s

/-- The next free value (the k-th value the specification leaves open). (DESIGN CHOICE, notes/assumptions/2.md.) (DEDUCED, notes/assumptions/14.md.) -/
def takeFree (s : State) : Nat × State := (Config.freeNat s.fresh, { s with fresh := s.fresh + 1 })

-- ---------------------------------------------------------------- device time

/-- 2^48: the units of device time in a nanosecond (R301). -/
def nsU : Nat := 2 ^ 48

/-- 10^9. -/
def secNs : Nat := 1000000000

/-- Field device time in whole nanoseconds. -/
def fieldNs (s : State) : Nat := s.tm.field / nsU

/-- The stamp of an instant `age` ns ago, with the step it precedes: an instant before the latest step of device time keeps
the time of before that step (R326, R381). (DEDUCED, notes/assumptions/24.md.) -/
def stampBack (s : State) (age : Nat) : Nat × List (Nat × Int) :=
  match s.tm.lastStep with
  | some (e, at_, amt) => if s.elapsed < e + age then (((fieldNs s : Int) - amt - age).toNat, [(at_, amt)]) else (fieldNs s - age, [])
  | none => (fieldNs s - age, [])

/-- Master device time in whole nanoseconds. -/
def masterNs (s : State) : Nat := s.tm.master / nsU

/-- The nanoseconds and the seconds [31:0] and [63:32] of a device time in ns (R296). -/
def tNs (t : Nat) : Nat := t % secNs
def tSecLo (t : Nat) : Nat := t / secNs % 2 ^ 32
def tSecHi (t : Nat) : Nat := t / secNs / 2 ^ 32 % 2 ^ 32

def wordOf (n : Nat) : Word := BitVec.ofNat 32 n

/-- TB_FREQ as a signed number of 0.001 ppb (R364). -/
def freqNow (s : State) : Int := (reg s R.TB_FREQ).toInt

/-- What one 2 ns tick adds at a rate of r × 0.001 ppb, in 2^-48 ns (R301). (DEDUCED, notes/assumptions/23.md.) -/
def tickAmt (r : Int) : Nat := (((2 * nsU : Nat) : Int) * (1000000000000 + r) / 1000000000000).toNat

/-- A source starts side x cold (R611, R638, R659). -/
def SrcOn.startsCold (c : SrcOn) (x : Side) : Bool :=
  c.cold && (match c.reach with
    | .device => true
    | .side y => y == x
    | .die .hb => x == .host
    | _ => false)

/-- A side is in the reset of a cold start, in which device time does not run (R298, R611). -/
def coldReset (s : State) (x : Side) : Bool := s.boot.episodes.any (fun e => e.srcs.any (fun c => c.startsCold x))

/-- The master timebase runs in the host states Run and Idle (R302), and through a host entry until its clocks stop at
AP3 (R679). -/
def masterRuns (s : State) : Bool :=
  !coldReset s .host &&
  match s.pow.host.st with
  | .run => !s.boot.hostHeld
  | .entering => decide (s.pow.host.ap < 3)
  | _ => false

/-- The field timebase runs while the field side is in Run and its time is known (R307, R360). -/
def fieldRuns (s : State) : Bool :=
  !coldReset s .field && fld s R.TB_STAT F.TB_STAT_FSTATE != 0 &&
  (match s.pow.field.st with
   | .run => true
   | .entering => decide (s.pow.field.ap < 3)
   | _ => false)

-- ---------------------------------------------------------------- Clasp lanes and the reach of a command

/-- The state field of a lane in CL_STAT (R608). -/
def laneFld (x : Nat) : Fld := if x = 0 then F.CL_STAT_STA else F.CL_STAT_STB

/-- The state of a lane (R580). -/
def laneSt (s : State) (x : Nat) : Nat := fld s R.CL_STAT (laneFld x)

/-- A lane is in SERVICE. -/
def laneUp (s : State) (x : Nat) : Bool := laneSt s x == 2

/-- Some lane is in SERVICE. -/
def anyLane (s : State) : Bool := laneUp s 0 || laneUp s 1

/-- A lane counts as in service for R34: SERVICE, PARKED (R599), or OFF for Deep sleep of a side (R691). -/
def laneAvail (s : State) : Bool :=
  anyLane s || laneSt s 0 == 3 || laneSt s 1 == 3 ||
  (s.cl.been && (s.pow.field.st = .deep || s.pow.field.st = .waking))

/-- A host-side count that the field side raises: it waits in the field blocks while no lane is in service (R63). Index
6 is GLB_RACECNT. -/
def hubCount (i n : Nat) (s : State) : State :=
  if anyLane s then cntAdd (if i = 6 then R.GLB_RACECNT else R.GLB_CKCNT i) n s
  else { s with cl := { s.cl with waiting := tabSet (fun _ => 0) s.cl.waiting i (tabGet (fun _ => 0) s.cl.waiting i + n) } }

/-- One failed verification of check i: 0 P, 1 A, 2 F, 3 Q, 4 L, 5 E (R48, R61). -/
def ckFail (i : Nat) (s : State) : State := hubCount i 1 s

/-- One operation completed under R37 on the field side (R63). -/
def raceField (s : State) : State := hubCount 6 1 s

/-- One operation completed under R37 on the host side. -/
def raceHost (s : State) : State := cnt R.GLB_RACECNT s

-- ---------------------------------------------------------------- units

def partGet (s : State) (p : Nat) : PartnerS := tabGet (fun _ => {}) s.part p

def partMod (p : Nat) (f : PartnerS → PartnerS) (s : State) : State :=
  { s with part := tabSet (fun _ => ({} : PartnerS)) s.part p (f (partGet s p)) }

def queueGet (s : State) (q : Nat) : QueueS := tabGet (fun _ => {}) s.tr.queues q

def queueMod (q : Nat) (f : QueueS → QueueS) (s : State) : State :=
  { s with tr := { s.tr with queues := tabSet (fun _ => ({} : QueueS)) s.tr.queues q (f (queueGet s q)) } }

def ctxGet (s : State) (k : Nat) : CtxS := tabGet (fun _ => {}) s.ctxs k

def ctxMod (k : Nat) (f : CtxS → CtxS) (s : State) : State :=
  { s with ctxs := tabSet (fun _ => ({} : CtxS)) s.ctxs k (f (ctxGet s k)) }

def portGet (s : State) (n : Nat) : PortS := tabGet (fun _ => {}) s.ports n

def portMod (n : Nat) (f : PortS → PortS) (s : State) : State :=
  { s with ports := tabSet (fun _ => ({} : PortS)) s.ports n (f (portGet s n)) }

/-- Slot i of port n. -/
def slotGet (s : State) (n i : Nat) : Option TxnS := ((portGet s n).slots[i]?).getD none

def slotSet (n i : Nat) (x : Option TxnS) (s : State) : State :=
  portMod n (fun p => { p with slots := p.slots.set i x }) s

/-- The transaction of a slot changed, where there is one. -/
def slotMod (n i : Nat) (f : TxnS → TxnS) (s : State) : State :=
  match slotGet s n i with
  | some x => slotSet n i (some (f x)) s
  | none => s

def tileGet (s : State) (t : Nat) : TileS := tabGet (fun _ => {}) s.tiles t

def tileMod (t : Nat) (f : TileS → TileS) (s : State) : State :=
  { s with tiles := tabSet (fun _ => ({} : TileS)) s.tiles t (f (tileGet s t)) }

def filtGet (s : State) (j : Nat) : FiltS := tabGet (fun _ => {}) s.filt j

def filtMod (j : Nat) (f : FiltS → FiltS) (s : State) : State :=
  { s with filt := tabSet (fun _ => ({} : FiltS)) s.filt j (f (filtGet s j)) }

def tmrGet (s : State) (j : Nat) : TmrS := tabGet (fun _ => {}) s.tmrs j

def tmrMod (j : Nat) (f : TmrS → TmrS) (s : State) : State :=
  { s with tmrs := tabSet (fun _ => ({} : TmrS)) s.tmrs j (f (tmrGet s j)) }

def svGet (s : State) (k : Nat) : SvCtx := tabGet (fun _ => {}) s.sv.ctxs k

def svMod (k : Nat) (f : SvCtx → SvCtx) (s : State) : State :=
  { s with sv := { s.sv with ctxs := tabSet (fun _ => ({} : SvCtx)) s.sv.ctxs k (f (svGet s k)) } }

def sentGet (s : State) (i : Nat) : SentS := tabGet (fun _ => {}) s.sv.sents i

def sentMod (i : Nat) (f : SentS → SentS) (s : State) : State :=
  { s with sv := { s.sv with sents := tabSet (fun _ => ({} : SentS)) s.sv.sents i (f (sentGet s i)) } }

def pulseGet (s : State) (i : Nat) : PulseS := tabGet (fun _ => {}) s.tm.pulses i

def pulseMod (i : Nat) (f : PulseS → PulseS) (s : State) : State :=
  { s with tm := { s.tm with pulses := tabSet (fun _ => ({} : PulseS)) s.tm.pulses i (f (pulseGet s i)) } }

def addSent (x : Sent) (s : State) : State := { s with sent := s.sent ++ [x] }

/-- The link of Ethernet port e is up. -/
def linkIsUp (s : State) (e : Nat) : Bool := flag s (R.P_STAT e) F.P_STAT_UP

/-- A received pause is in force, so that the port sends nothing (R559). -/
def paused (s : State) (e : Nat) : Bool := flag s (R.P_ETH_STAT e) F.P_ETH_STAT_PAUSED

/-- A PTP message leaves port e; while a pause is in force it waits (R559, R573). (PRESUMED, notes/assumptions/22.md.) -/
def sendPtp (e : EthNo) (kind seq : Nat) (b : List Byte) (s : State) : State :=
  if paused s e.val then partMod e.val (fun u => { u with ptpOut := u.ptpOut ++ [(kind, seq, b)] }) s
  else addSent (.ptp e kind seq b) (cnt (R.P_ETH_CNT e.val 1) s)

/-- The PTP messages that waited for the end of a pause leave first (R558, R559). -/
def ptpFlush (e : EthNo) (s : State) : State :=
  if paused s e.val then s
  else eachOf (partGet s e.val).ptpOut (fun x s => sendPtp e x.1 x.2.1 x.2.2 s) (partMod e.val (fun u => { u with ptpOut := [] }) s)

/-- Partner port p is enabled (R509). (DEDUCED, notes/assumptions/58.md.) -/
def portEn (s : State) (p : Nat) : Bool := flag s (R.P_CTL p) F.P_CTL_EN

-- ---------------------------------------------------------------- status codes (R19)

def stOK : Nat := 0x00
def stACCEPTED : Nat := 0x01
def stRANGE : Nat := 0x10
def stOVERRUN : Nat := 0x11
def stCONFLICT : Nat := 0x12
def stCTX_FULL : Nat := 0x13
def stQUEUE_FULL : Nat := 0x14
def stAUTH_FAIL : Nat := 0x20
def stREPLAY : Nat := 0x21
def stDENIED : Nat := 0x22
def stLOCKED : Nat := 0x23
def stBUSY : Nat := 0x30
def stTIMEOUT : Nat := 0x31
def stLINK_DOWN : Nat := 0x32
def stINTERNAL : Nat := 0x40

-- ---------------------------------------------------------------- answers

/-- The list without its first occurrence of a command. -/
def dropCmd (c : Cmd) : List Cmd → List Cmd
  | [] => []
  | x :: rest => if x = c then rest else x :: dropCmd c rest

/-- The counters and events of a port that record a refusal (R21, R572). (DEDUCED, notes/assumptions/32.md.) -/
def noteRefusal (p st : Nat) (s : State) : State :=
  if st = stAUTH_FAIL then evt (R.P_EVT p) F.P_EVT_AUTH (cnt (R.P_CNT p 3) s)
  else if st = stREPLAY then evt (R.P_EVT p) F.P_EVT_REPLAY (cnt (R.P_CNT p 4) s)
  else if st = stDENIED then evt (R.P_EVT p) F.P_EVT_DENIED (cnt (R.P_CNT p 5) s)
  else s

/-- The answers after which a counter is accepted (R523). -/
def countsFor (st : Nat) : Bool := st == stOK || st == stACCEPTED || st == stOVERRUN

def nvBound (s : State) (p : Nat) : Nat := tabGet (fun _ => 0) s.nv.bound p

/-- An NV write pulse of host NV memory takes at most this many ns (R633). (DEDUCED, notes/assumptions/9.md.) -/
def nvPulse (old : NvS) (ns : Nat) (s : State) : State :=
  { s with nvOld := old, nv := { s.nv with busyUntil := max s.nv.busyUntil (s.elapsed + ns) } }

/-- A counter at or above the bound of its port raises the bound to the next multiple of 1,024 above it (R524). (DEDUCED, notes/assumptions/8.md.) -/
def raiseBound (p c : Nat) (s : State) : State :=
  if c < nvBound s p then s
  else nvPulse s.nv 50000 { s with nv := { s.nv with bound := tabSet (fun _ => 0) s.nv.bound p ((c / 1024 + 1) * 1024) } }

/-- The counter of an executed command is accepted (R523, R524). (DEDUCED, notes/assumptions/8.md.) -/
def acceptCtr (p : Nat) (ctr : Option Nat) (s : State) : State :=
  match ctr with
  | some c => partMod p (fun u => { u with lastCtr := max u.lastCtr c }) (raiseBound p c s)
  | none => s

/-- An outstanding command of port p is answered: its response waits at the port (R511, R518, R519). A command that a reset has
discarded has no answer (R571). (DEDUCED, notes/assumptions/8.md.) -/
def answerCmd (p : Nat) (c : Cmd) (st : Nat) (race : Bool) (payload : List Word) (s : State) : State :=
  if (partGet s p).outst.contains c then
    let s := onlyIf (countsFor st) (acceptCtr p c.ctr) (noteRefusal p st s)
    partMod p (fun u => { u with resp := u.resp ++ [{ cmd := c, status := st, race := race, payload := payload }] }) s
  else s

-- ---------------------------------------------------------------- shared lines

/-- HIRQn_N's sources assert: the Sieve interrupt of line n, or a serial host port whose RIRQ names it while a response
waits (R437, R758, R565). -/
def hirqLine (s : State) (n : Nat) : Bool :=
  (bitOf (reg s R.SV_IRQ).toNat n && bitOf (reg s R.SV_IRQ).toNat (8 + n)) ||
  [2, 3].any (fun p => flag s (R.P_SHP_CTL p) F.P_SHP_CTL_RIRQ && fld s (R.P_SHP_CTL p) F.P_SHP_CTL_IRQSEL == n &&
    !(partGet s p).resp.isEmpty)

/-- The four HIRQ lines. -/
def hirqLines (s : State) : BitVec 4 :=
  BitVec.ofNat 4 (b2n (hirqLine s 0) + 2 * b2n (hirqLine s 1) + 4 * b2n (hirqLine s 2) + 8 * b2n (hirqLine s 3))

/-- HFAULT_N is low: until the image runs, while a source holds the host side, and in a reset that reaches HB (R617,
R623, R624, R646, R651, R658). -/
def hfaultLow (s : State) : Bool :=
  s.boot.hostHeld || fld s R.GLB_BOOTSTAT F.GLB_BOOTSTAT_STAGE != 6 || s.boot.inReset.contains .hb

/-- FFAULT_N is low: until the field side is READY, while a wake failure holds it, and in a reset of a field die. -/
def ffaultLow (s : State) : Bool :=
  s.boot.wakeFailF || fld s R.GLB_BOOTSTAT F.GLB_BOOTSTAT_FSIDE != 3 || s.boot.inReset.any (fun d => d != .hb)

/-- A ball of the host side in bank b: high impedance in a cold reset of the side and without the bank's supply, kept in a warm reset and
while the bank is held (R658, R697, R700, R762), else as its function has it. -/
def hostBall {α : Type} (s : State) (b : Nat) (cold held now : α) : α :=
  if coldReset s .host || s.pow.noSupply.contains b then cold
  else if s.pow.held.contains b || s.boot.inReset.contains .hb then held
  else now

/-- The HIRQ lines: high impedance in a cold reset of the host side, kept while the VHIO bank is held or HB is in reset
(R658, R697, R755), else as their sources say. -/
def hirqPins (s : State) : BitVec 4 := hostBall s 8 0 s.pins.hirq (hirqLines s)

/-- The port is in a warm reset, or its tile or side is. -/
def portInReset (s : State) (n : Nat) : Bool :=
  s.boot.inReset.any (fun d => match d with | .tile t => t.val == n / 8 | _ => false) ||
  s.boot.episodes.any (fun e => e.srcs.any (fun x => match x.reach with | .port m => m.val == n | _ => false))

/-- The port's bank is held or has no supply through a pad hold (R697, R699). -/
def bankHeld (s : State) (n : Nat) : Bool := s.pow.held.contains (n / 8)

/-- The port selects with decoded codes (R89). -/
def portDec (s : State) (n : Nat) : Bool := flag s (R.FP_WCFG n) F.FP_WCFG_SSDEC

/-- The function of select line i: 0 unused, 1 select output, 2 data-ready input (R150). -/
def ssFn (s : State) (n i : Nat) : Nat := bitsOf (reg s (R.FP_SS n)).toNat (2 * i + 1) (2 * i)

/-- The select line, or the code, that port n asserts: that of the transaction on the wire, that of its TRIG pulse, or that of a
transaction or command in its select hold (R91, R131, R211, R237). -/
def selAsserted (s : State) (n : Nat) : Option Nat :=
  let p := portGet s n
  let own := match p.wire with
    | some i => match slotGet s n i with
      | some t => if t.sel then some (fld s (R.CTX_BIND t.ctx) F.CTX_BIND_SEL) else t.pulseOn.bind (fun g => if g < 4 then none else some (g - 4))
      | none => none
    | none => none
  match own with
  | some x => some x
  | none => if s.elapsed < p.relAt then p.relSel else none

/-- A driven level. -/
def ballOf (b : Bool) : Ball := if b then .high else .low

/-- What the output balls of an enabled field port do (R72, R75, R76, R82, R83, R88, R89, R93, R94). -/
def ballsOn (s : State) (n : Nat) : PortBalls :=
  if fld s (R.FP_CTL n) F.FP_CTL_MODE == 2 then { sck := if flag s (R.FP_BCFG n) F.FP_BCFG_CLKSRC then .hiz else .low }
  else
    let a := selAsserted s n
    let line (i : Nat) : Ball :=
      if portDec s n then ballOf (bitOf (a.getD 7) i)
      else if ssFn s n i == 1 then ballOf (a != some i)
      else .hiz
    { sck := ballOf (decide (fld s (R.FP_WCFG n) F.FP_WCFG_SPIMODE ≥ 2)), dout := .low, ss0 := line 0, ss1 := line 1, ss2 := line 2 }

/-- What the output balls of a field port do: high impedance in a cold reset and without the bank's supply (R142), kept in a warm reset
and while the bank is held (R138, R697), as the port drives them while it is enabled and until a disable has ended (R75, R79), and
high impedance otherwise. -/
def portBalls (s : State) (n : Nat) : PortBalls :=
  let p := portGet s n
  if coldReset s .field || !p.bankOk then {}
  else if bankHeld s n || portInReset s n then tabGet (fun _ => {}) s.pins.ports n
  else if p.driven || decide (s.elapsed < p.offAt) then ballsOn s n
  else {}

/-- The level that a timer channel of tile t drives on a TRIG pin (R395). -/
def timerPin (s : State) (t p : Nat) : Option Bool :=
  (s.tmrs.find? (fun e => e.1 / 8 == t && e.2.level.isSome && fld s (R.FT_TMC_CTL t (e.1 % 8)) F.FT_TMC_CTL_PIN == p)).bind (fun e => e.2.level)

/-- What TRIG pin p of tile t does (R237, R395, R658, R697). -/
def trigBall (s : State) (t p : Nat) : Ball :=
  let x := tileGet s t
  if coldReset s .field || !(portGet s (8 * t)).bankOk then .hiz
  else if bankHeld s (8 * t) || s.boot.inReset.any (fun d => match d with | .tile u => u.val == t | _ => false) then
    tabGet (fun _ => .hiz) s.pins.trig (4 * t + p)
  else match tabGet (fun _ => none) x.trigIdle p with
    | some lvl => ballOf (if x.trigPulse.contains p then !lvl else lvl)
    | none => match timerPin s t p with
      | some lvl => ballOf lvl
      | none => .hiz

/-- The TRIG pins that anything drives, or may hold. -/
def trigPins (s : State) : List Nat := if s.tiles.isEmpty && s.tmrs.isEmpty then [] else List.range 24

/-- The host clocks have moved to the 25 MHz reference, or start-up has gone past that (R654, step 3). -/
def pastStep3 (s : State) : Bool :=
  let st := fld s R.GLB_BOOTSTAT F.GLB_BOOTSTAT_STAGE
  decide (st ≥ 4) || (st != 0 && !s.pow.host.onRc)

/-- Bit 4 of fuse word 12 is programmed: NOUART (R626, R629). -/
def noUart (s : State) : Bool := s.boot.fused && bitOf (tabGet (fun _ => 0) s.nv.otp 12).toNat 4

/-- A transmit lane of P0 or P1 leaves electrical idle: its port is enabled, and its side is not cold, in Deep sleep or Off, or past AP3
of an entry into Sleep (R4, R658, R755, R756). -/
def laneActive (s : State) (e : Nat) : Bool :=
  flag s (R.P_CTL e) F.P_CTL_EN && !coldReset s .host &&
  (match s.pow.host.st with
   | .run => true
   | .entering => decide (s.pow.host.ap < 3)
   | _ => false)

/-- What a pulse pin does: its level while its channel drives it (R351, R358). -/
def pulseBalls (s : State) : Tab Ball := (s.tm.pulses.filter (fun e => e.2.driven)).map (fun e => (e.1, ballOf e.2.level))

/-- Every line as its sources say. -/
def pinsOf (s : State) : PinsS :=
  { ports := (s.ports.map (fun e => (e.1, portBalls s e.1))).filter (fun e => e.2 != {})
    trig := ((trigPins s).map (fun j => (j, trigBall s (j / 4) (j % 4)))).filter (fun e => e.2 != .hiz)
    uart := hostBall s 8 .hiz s.pins.uart (if pastStep3 s && !noUart s then .high else .hiz)
    cfg := hostBall s 10 false s.pins.cfg (pastStep3 s)
    lanes := ([0, 1].map (fun e => (e, laneActive s e))).filter (fun e => e.2)
    pulses := hostBall s 8 [] s.pins.pulses (pulseBalls s)
    hwake := hostBall s 8 false s.pins.hwake s.pow.hwakeOut
    mdio := hostBall s 8 false s.pins.mdio (flag s R.P0_MDIO_CFG F.P0_MDIO_CFG_EN)
    hirq := hirqPins s, hfault := hfaultLow s, ffault := ffaultLow s }

/-- The lines follow their sources. (DESIGN CHOICE, notes/assumptions/60.md.) -/
def settle (s : State) : State := { s with pins := pinsOf s }

/-- What a word of a rule set belongs to: its rule, by the rule's first address, or itself (R446, R727). -/
def ruleTarget (a : Nat) : Nat := if 0x248000 ≤ a then a / 0x20 * 0x20 else a

/-- A word of rule-set target x waits for context k. -/
def ruleWaits (s : State) (k x : Nat) : Bool :=
  match (svGet s k).ruleSet with
  | some ws => ws.any (fun w => ruleTarget w.1 == x)
  | none => false

/-- A committed item still waits: a context holds one of its actions, or a rule-set change of it waits (R726). -/
def stillWaits (s : State) (w : WaitItem) : Bool :=
  w.acts.any (fun a => (ctxGet s a.1).acts.contains a.2) || w.rules.any (fun x => ruleWaits s x.1 x.2)

/-- GLB_GRF_ITEMS.PEND counts the waiting items; DONE when it falls to 0 (R726). (DEDUCED, notes/assumptions/49.md.) -/
def pendFollow (s : State) : State :=
  if s.waits.isEmpty then s
  else
    let l := s.waits.filter (stillWaits s)
    let s := setFld R.GLB_GRF_ITEMS F.GLB_GRF_ITEMS_PEND l.length { s with waits := l }
    if l.isEmpty then evt R.GLB_GRF_EVT F.GLB_GRF_EVT_DONE s else s

/-- Every command's outcome: the waiting items counted, the shared lines settled. -/
def done (s : State) : Host.Outcome State Fault Refusal := .next (settle (pendFollow s))

end Sys2Proof.Machine
end

