-- ==== Sys2Proof/Machine/Clock.lean ====
section
/-! DEFINITION. The passage of time: both timebases, the always-on counter and the tile timers (R299 to R303, R360, R367
to R373, R386 to R395, R398 to R405). -/

namespace Sys2Proof.Machine

-- ---------------------------------------------------------------- one channel of a tile (R367 to R373)

/-- Channel c of tile t is the even channel of a linked pair (R373). -/
def tmLinked (s : State) (t c : Nat) : Bool := c % 2 == 0 && flag s (R.FT_TMC_CTL t c) F.FT_TMC_CTL_LINK

/-- Channel c of tile t is the odd channel of a linked pair (R374). -/
def tmOddOfPair (s : State) (t c : Nat) : Bool := c % 2 == 1 && tmLinked s t (c - 1)

/-- 2^w of R371. -/
def tmMod (s : State) (t c : Nat) : Nat := if tmLinked s t c then 2 ^ 64 else 2 ^ 32

/-- A channel's CNT, CMP, CMPSH or INTV, both halves for a linked pair. -/
def tmRd (s : State) (a : Nat → Nat → Nat) (t c : Nat) : Nat :=
  (reg s (a t c)).toNat + (if tmLinked s t c then 2 ^ 32 * (reg s (a t (c + 1))).toNat else 0)

/-- The same written. -/
def tmWr (a : Nat → Nat → Nat) (t c v : Nat) (s : State) : State :=
  let l := tmLinked s t c
  let s := setReg (a t c) (wordOf v) s
  if l then setReg (a t (c + 1)) (wordOf (v / 2 ^ 32)) s else s

def tmCtl (s : State) (t c : Nat) (f : Fld) : Nat := fld s (R.FT_TMC_CTL t c) f

/-- The level a channel drives for its active level (R394). -/
def tmActive (s : State) (t c : Nat) : Bool := tmCtl s t c F.FT_TMC_CTL_POL == 0

/-- A compare value is updated on a match or an overflow (R388, R389). -/
def tmUpdate (t c : Nat) (m ov : Bool) (s : State) : State :=
  let add := tmCtl s t c F.FT_TMC_CTL_ADDON
  if flag s (R.FT_TMC_STAT t c) F.FT_TMC_STAT_PEND then
    setFlag (R.FT_TMC_STAT t c) F.FT_TMC_STAT_PEND false (tmWr R.FT_TMC_CMP t c (tmRd s R.FT_TMC_CMPSH t c) s)
  else if (add == 1 && m) || (add == 2 && ov) then
    tmWr R.FT_TMC_CMP t c ((tmRd s R.FT_TMC_CMP t c + tmRd s R.FT_TMC_INTV t c) % tmMod s t c) s
  else s

/-- The output action of a match (R394). -/
def tmOutput (t c : Nat) (s : State) : State :=
  let hi := tmActive s t c
  let drive (b : Bool) (s : State) : State := tmrMod (8 * t + c) (fun x => { x with level := some b }) s
  match tmCtl s t c F.FT_TMC_CTL_OUTACT with
  | 1 => drive hi s
  | 2 => drive (!hi) s
  | 3 => drive (!((tmrGet s (8 * t + c)).level.getD (!hi))) s
  | 4 => tmrMod (8 * t + c) (fun x => { x with level := some hi, pulse := some (fld s (R.FT_TMC_PWID t c) F.FT_TMC_PWID_PWID) }) s
  | _ => s

/-- Counts from a to a value, stepping at least once: 1 to 2^w. -/
def tmDist (md a v : Nat) : Nat := (v + md - a % md - 1) % md + 1

/-- A tile cycle with a count step of d, at least 1 (R371, R388, R394). -/
def tmStep (t c d : Nat) (s : State) : State :=
  let md := tmMod s t c
  let a := tmRd s R.FT_TMC_CNT t c
  let m := decide (tmDist md a (tmRd s R.FT_TMC_CMP t c) ≤ d)
  let ov := decide (tmDist md a 0 ≤ d)
  let s := tmWr R.FT_TMC_CNT t c ((a + d) % md) s
  let s := onlyIf (m || ov) (tmUpdate t c m ov) s
  let s := onlyIf ov (evt (R.FT_TMC_EVT t c) F.FT_TMC_EVT_OVF) s
  onlyIf m (fun s => tmOutput t c (cnt (R.FT_TMC_MATCHES t c) (evt (R.FT_TMC_EVT t c) F.FT_TMC_EVT_MATCH s))) s

/-- n tile cycles of a pulse in progress pass (R394, R395). -/
def tmPulse (t c n : Nat) (s : State) : State :=
  match (tmrGet s (8 * t + c)).pulse with
  | none => s
  | some p =>
    if p ≤ n then
      let lv := if (tmrGet s (8 * t + c)).on then some (!tmActive s t c) else none
      tmrMod (8 * t + c) (fun x => { x with pulse := none, level := lv }) s
    else tmrMod (8 * t + c) (fun x => { x with pulse := some (p - n) }) s

/-- What a tile cycle adds to a channel's accumulator, and the accumulator that makes one count (R368, R369): prescaler
cycles, or field device time in 2^-48 ns. -/
def tmRate (s : State) (t c : Nat) : Nat × Nat :=
  match tmCtl s t c F.FT_TMC_CTL_SRC with
  | 0 => (1, fld s (R.FT_TMC_PRESC t c) F.FT_TMC_PRESC_PRESC + 1)
  | 1 => (if fieldRuns s then tickAmt s.tm.frate * 5 / 2 else 0, nsU)
  | _ => (0, 1)

/-- The accumulator: the prescaler count, or the remainder of a nanosecond. -/
def tmAcc (s : State) (t c : Nat) : Nat :=
  if tmCtl s t c F.FT_TMC_CTL_SRC == 0 then (tmrGet s (8 * t + c)).phase else (tmrGet s (8 * t + c)).rem

def tmSetAcc (t c v : Nat) (s : State) : State :=
  if tmCtl s t c F.FT_TMC_CTL_SRC == 0 then tmrMod (8 * t + c) (fun x => { x with phase := v }) s
  else tmrMod (8 * t + c) (fun x => { x with rem := v }) s

/-- n cycles without a match or an overflow. (DEDUCED, notes/assumptions/41.md.) -/
def tmGlide (t c n : Nat) (s : State) : State :=
  let (inc, unit) := tmRate s t c
  let x := tmAcc s t c + n * inc
  let s := if x / unit = 0 then s else tmWr R.FT_TMC_CNT t c ((tmRd s R.FT_TMC_CNT t c + x / unit) % tmMod s t c) s
  tmPulse t c n (tmSetAcc t c (x % unit) s)

/-- One cycle with the count step it brings. -/
def tmCycle (t c : Nat) (s : State) : State :=
  let (inc, unit) := tmRate s t c
  let x := tmAcc s t c + inc
  let s := tmPulse t c 1 (tmSetAcc t c (x % unit) s)
  if x / unit = 0 then s else tmStep t c (x / unit) s

/-- n tile cycles of a running channel, from one match or overflow to the next; the first argument bounds how many there
are, and n is enough. -/
def tmCycles (t c : Nat) : Nat → Nat → State → State
  | 0, _, s => s
  | fuel + 1, n, s =>
    let (inc, unit) := tmRate s t c
    let md := tmMod s t c
    let a := tmRd s R.FT_TMC_CNT t c
    let next := min (tmDist md a (tmRd s R.FT_TMC_CMP t c)) (tmDist md a 0)
    let j := if inc = 0 then n + 1 else max 1 (ceilDiv (next * unit - tmAcc s t c) inc)
    if n < j then tmGlide t c n s
    else tmCycles t c fuel (n - j) (tmCycle t c (tmGlide t c (j - 1) s))

/-- Tile t's clock runs: the field side runs, and the tile neither sleeps nor is in reset (R401, R405). -/
def tileAwake (s : State) (t : Nat) : Bool :=
  (match s.pow.field.st with
   | .run => true
   | .entering => decide (s.pow.field.ap < 3)
   | _ => false) &&
  !(s.pow.autoSleep ++ s.pow.cmdSleep).any (fun x => x.val == t) &&
  !s.boot.inReset.any (fun d => match d with | .tile x => x.val == t | _ => false)

/-- Channel c of tile t is frozen: the debugger halts the core, the halt reaches the tiles, and DBGRUN is 0 (R398, R399). -/
def tmFrozen (s : State) (t c : Nat) : Bool :=
  s.frozen && anyLane s && tmCtl s t (if tmOddOfPair s t c then c - 1 else c) F.FT_TMC_CTL_DBGRUN == 0

/-- n tile cycles of one channel. -/
def tmAdvance (t c n : Nat) (s : State) : State :=
  if !tileAwake s t || tmFrozen s t c then s
  else if (tmrGet s (8 * t + c)).on then tmCycles t c (n + 1) n s
  else tmPulse t c n s

/-- The tile timers run up to the elapsed time, in whole cycles of 5 ns (R367). -/
def runTimers (s : State) : State :=
  let n := (s.elapsed - s.tmrAt) / 5
  if n = 0 then s
  else
    let s := { s with tmrAt := s.tmrAt + 5 * n }
    eachOf ((s.tmrs.filter (fun e => decide (e.1 < 48) && (e.2.on || e.2.pulse.isSome))).map (·.1))
      (fun j s => tmAdvance (j / 8) (j % 8) n s) s

-- ---------------------------------------------------------------- sleep and reset of a tile (R401 to R405)

/-- Counts passed over in sleep, from one match or overflow to the next (R402, R403). -/
def tmOwed (t c : Nat) : Nat → Nat → State → State
  | 0, _, s => s
  | fuel + 1, n, s =>
    let md := tmMod s t c
    let a := tmRd s R.FT_TMC_CNT t c
    let dm := tmDist md a (tmRd s R.FT_TMC_CMP t c)
    let dz := tmDist md a 0
    let j := min dm dz
    if n < j then tmWr R.FT_TMC_CNT t c ((a + n) % md) s
    else
      let s := tmWr R.FT_TMC_CNT t c ((a + j) % md) s
      let s := onlyIf (dz == j) (evt (R.FT_TMC_EVT t c) F.FT_TMC_EVT_OVF) s
      let s := onlyIf (dm == j) (fun s => cntFld (R.FT_TMC_MISS t c) F.FT_TMC_MISS_MISSED 1
        (evt (R.FT_TMC_EVT t c) F.FT_TMC_EVT_MISSED_ASLEEP s)) s
      tmOwed t c fuel (n - j) (tmUpdate t c (dm == j) (dz == j) s)

/-- A channel with SLPACC = 1 is brought forward by e of device time, in 2^-48 ns (R402). -/
def tmForward (t c e : Nat) (s : State) : State :=
  if !(tmrGet s (8 * t + c)).on || tmCtl s t c F.FT_TMC_CTL_SLPACC == 0 then s
  else
    match tmCtl s t c F.FT_TMC_CTL_SRC with
    | 0 =>
      let u := fld s (R.FT_TMC_PRESC t c) F.FT_TMC_PRESC_PRESC + 1
      let n := e / (5 * nsU)
      tmOwed t c (n / u + 1) (n / u) (tmrMod (8 * t + c) (fun x => { x with phase := x.phase + n % u }) s)
    | 1 => tmOwed t c (e / nsU + 1) (e / nsU) (tmrMod (8 * t + c) (fun x => { x with rem := x.rem + e % nsU }) s)
    | _ => s

/-- Tile t's clock stops (R401, R405). -/
def tilePause (t : Nat) (s : State) : State :=
  if (tileGet s t).slept.isSome then s
  else tileMod t (fun x => { x with slept := some ((s.tm.field : Int) - s.tm.stepSum) }) s

/-- Tile t's clock runs again, once its state lets it: its channels come forward (R401, R402, R405). -/
def tileResume (t : Nat) (s : State) : State :=
  match (tileGet s t).slept with
  | none => s
  | some f0 =>
    if !tileAwake s t then s
    else
      let e := ((s.tm.field : Int) - s.tm.stepSum - f0).toNat
      let s := tileMod t (fun x => { x with slept := none }) s
      eachOf (List.range 8) (fun c s => tmForward t c e s) s

/-- Every tile's clock follows the state of its side, its sleep and its resets. -/
def tilesFollow (s : State) : State :=
  eachOf (List.range 6) (fun t s => if tileAwake s t then tileResume t s else tilePause t s) s

-- ---------------------------------------------------------------- time passes

/-- n ticks of 2 ns of elapsed time, both timebases and the always-on counter (R299, R301, R303, R360). -/
def clockTicks (n : Nat) (s : State) : State :=
  let frac := s.tm.aocFrac + n * 2 * 32768
  { s with
    elapsed := s.elapsed + 2 * n
    tm := { s.tm with
      master := if masterRuns s then s.tm.master + n * tickAmt (freqNow s) else s.tm.master
      field := if fieldRuns s then s.tm.field + n * tickAmt s.tm.frate else s.tm.field
      aoc := if s.pow.field.st = .off then s.tm.aoc else (s.tm.aoc + frac / secNs) % 2 ^ 48
      aocFrac := if s.pow.field.st = .off then s.tm.aocFrac else frac % secNs } }

/-- n ticks of 2 ns pass. (DESIGN CHOICE, notes/assumptions/5.md.) -/
def passTicks (n : Nat) (s : State) : State := runTimers (clockTicks n s)

/-- Time passes until the elapsed time is at least t ns. (DESIGN CHOICE, notes/assumptions/5.md.) -/
def toElapsed (t : Nat) (s : State) : State := if t ≤ s.elapsed then s else passTicks (ceilDiv (t - s.elapsed) 2) s

/-- Time passes until field device time is at least t ns. (DESIGN CHOICE, notes/assumptions/5.md.) -/
def toField (t : Nat) (s : State) : State :=
  if fieldRuns s && decide (s.tm.field < t * nsU) then passTicks (ceilDiv (t * nsU - s.tm.field) (tickAmt s.tm.frate)) s else s

/-- Time passes until master device time is at least t (2^-48 ns). (DESIGN CHOICE, notes/assumptions/5.md.) -/
def toMaster (t : Nat) (s : State) : State :=
  if masterRuns s && decide (s.tm.master < t) then passTicks (ceilDiv (t - s.tm.master) (tickAmt (freqNow s))) s else s

/-- What a step does with no command waiting: one 2 ns tick passes (R299; DESIGN CHOICE, notes/assumptions/5.md). -/
def idleTick (s : State) : Host.Outcome State Fault Refusal := done (passTicks 1 s)

end Sys2Proof.Machine
end

