-- ==== Sys2Proof/Machine/Crc.lean ====
section
/-! DEFINITION. The check codes: the CRC-8 of a CRC8 step (R215), the CRC-16 of CK-A and CK-F (R43, R269) and the
CRC-32C of records and Glaeve frames (R495). -/

namespace Sys2Proof.Machine

/-- One bit of a non-reflected CRC of width w with generator `poly`: shift the register left, take the bit in, and
subtract the generator when a one leaves. -/
def crcBit (w poly reg : Nat) (b : Bool) : Nat :=
  let top := reg / 2 ^ (w - 1) % 2 == 1
  let sh := reg * 2 % 2 ^ w
  if top != b then Nat.xor sh poly else sh

/-- A non-reflected CRC over bits, most significant first. -/
def crcBits (w poly init : Nat) (l : List Bool) : Nat := l.foldl (crcBit w poly) init

/-- R215: the CRC-8 of a CRC8 step. -/
def crc8 (poly init xorout : Nat) (l : List Bool) : Nat := Nat.xor (crcBits 8 poly init l) xorout

/-- The bits of bytes, each most significant first (R269). -/
def bytesBits (l : List Byte) : List Bool := l.flatMap (fun b => natBits 8 b.toNat)

/-- R43: the CRC-16 of CK-A and CK-F: polynomial 0x1021, initial value 0xFFFF. -/
def crc16 (l : List Bool) : Nat := crcBits 16 0x1021 0xFFFF l

/-- One bit step of the reflected CRC-32C; 0x82F63B78 is 0x1EDC6F41 reflected (R495). -/
def crc32cStep (r : Nat) : Nat := if r % 2 = 1 then Nat.xor (r / 2) 0x82F63B78 else r / 2

/-- One byte of the CRC-32C. -/
def crc32cByte (r : Nat) (b : Byte) : Nat :=
  let s := crc32cStep
  s (s (s (s (s (s (s (s (Nat.xor r b.toNat))))))))

/-- R495: the CRC-32C of bytes. -/
def crc32c (l : List Byte) : Word :=
  BitVec.ofNat 32 (Nat.xor (l.foldl crc32cByte 0xFFFFFFFF) 0xFFFFFFFF)

end Sys2Proof.Machine
end

