-- ==== Sys2Proof/Machine/Wake.lean ====
section
/-! DEFINITION. The parts of power that other chapters use: starting a wake, unwinding an entry, host wake requests and
HWAKE_OUT (R680, R687 to R690, R707). -/

namespace Sys2Proof.Machine

def sideGet (s : State) : Side → SideS
  | .host => s.pow.host
  | .field => s.pow.field

def sideMod (x : Side) (f : SideS → SideS) (s : State) : State :=
  match x with
  | .host => { s with pow := { s.pow with host := f s.pow.host } }
  | .field => { s with pow := { s.pow with field := f s.pow.field } }

/-- The FSTATE of the field timebase becomes FHOLD (R307), with its event bit. -/
def enterFhold (s : State) : State :=
  let s := if fld s R.TB_STAT F.TB_STAT_FSTATE == 2 then s else evt R.TB_EVT F.TB_EVT_FHOLD s
  setFld R.TB_STAT F.TB_STAT_FSTATE 2 { s with tm := { s.tm with good := 0 } }

/-- STATE leaves LOCKED for HOLDOVER (R319); other states stay. -/
def enterHoldover (s : State) : State :=
  if fld s R.TB_STAT F.TB_STAT_STATE == 2 then
    evt R.TB_EVT F.TB_EVT_HOLDOVER (setFld R.TB_STAT F.TB_STAT_STATE 3 s)
  else s

/-- The field timebase resumes at a tick edge with V0 + ticks × TB_AOC_RATIO (R360). -/
def fieldTimeResume (s : State) : State :=
  let ticks := (s.tm.aoc + 2 ^ 48 - s.tm.aoc0) % 2 ^ 48
  let ratio := (reg s R.TB_AOC_RATIO).toNat
  { s with tm := { s.tm with field := s.tm.v0 + ticks * ratio * 2 ^ 32 } }

/-- Lane x has taken its state now. -/
def laneMark (x : Nat) (s : State) : State := { s with cl := { s.cl with laneAt := tabSet (fun _ => 0) s.cl.laneAt x s.elapsed } }

/-- A lane in PARKED or OFF for a power state goes back towards service: a parked lane stays PARKED until its resume
completes, an enabled OFF lane trains (R598). (DEDUCED, notes/assumptions/25.md.) -/
def laneRestart (x : Nat) (s : State) : State :=
  let en := flag s R.CL_CTL (if x = 0 then F.CL_CTL_ENA else F.CL_CTL_ENB)
  if laneSt s x == 0 && en then laneMark x (setFld R.CL_STAT (laneFld x) 1 { s with cl := { s.cl with first := true } }) else s

/-- NOLANE follows the lanes (R601). -/
def noLane (s : State) : State :=
  let up (x : Nat) : Bool := laneSt s x == 2 || laneSt s x == 3
  setFlag R.CL_STAT F.CL_STAT_NOLANE (!(up 0 || up 1)) s

/-- Both lanes restart after a sleep. -/
def lanesRestart (s : State) : State := noLane (laneRestart 1 (laneRestart 0 s))

-- ---------------------------------------------------------------- HWAKE_OUT

/-- HWAKE_OUT rises, or waits for the release of the VHIO bank (R690). -/
def driveHwake (s : State) : State :=
  if s.pow.hwakeOut then s
  else if s.pow.held.contains 8 then { s with pow := { s.pow with hwakeDue := true } }
  else { s with pow := { s.pow with hwakeOut := true, hwakeAt := s.elapsed } }

/-- A request of class c arrives with the host side in Run (R690). -/
def hwakeClass (c : Nat) (s : State) : State :=
  onlyIf (bitOf (fld s R.PWR_HWCFG F.PWR_HWCFG_OUTMASK) c) driveHwake s

/-- The requests that brought the host side to Run act (R690). -/
def serveHostReqs (s : State) : State :=
  let l := s.pow.hostReqs
  eachOf l hwakeClass { s with pow := { s.pow with hostReqs := [] } }

-- ---------------------------------------------------------------- unwinding and starting a wake

/-- The PWR_ABORT field of an abort point (R711). -/
def abortFld (ap : Nat) : Fld :=
  match ap with
  | 0 => F.PWR_ABORT_AP0
  | 1 => F.PWR_ABORT_AP1
  | 2 => F.PWR_ABORT_AP2
  | _ => F.PWR_ABORT_AP3

/-- HB learns the field side's state, once it has reported since the host side's start (R669). -/
def seeField (s : State) : State :=
  if s.pow.fieldSeen.isSome then { s with pow := { s.pow with fieldSeen := some s.pow.field.st } } else s

/-- The clocks of a side come back from AP3: its lanes, and on the field side its time from the counter (R360, R680). (DEDUCED,
notes/assumptions/30.md.) -/
def clocksBack (x : Side) (s : State) : State :=
  let s := if x = .field then (if fld s R.TB_STAT F.TB_STAT_FSTATE == 0 then s else enterFhold (fieldTimeResume s)) else s
  lanesRestart s

/-- An entry unwinds: the side returns to Run through the steps it has passed (R680). (DEDUCED, notes/assumptions/30.md.) -/
def unwind (x : Side) (s : State) : State :=
  let ap := (sideGet s x).ap
  let s := cntFld R.PWR_ABORT (abortFld ap) 1 (evt R.PWR_EVT F.PWR_EVT_ABORT s)
  let s := if ap ≥ 3 then clocksBack x s else s
  let s := sideMod x (fun d => { d with st := .run, ap := 0, saved := [] }) s
  if x = .host then serveHostReqs s
  else
    let s := if anyLane s then seeField s else s
    if ap ≥ 3 then tilesFollow s else s

/-- A wake of a side with a source of R687: an entry before AP4 unwinds, a sleeping side begins to wake, a running or
waking side stays as it is. (DEDUCED, notes/assumptions/30.md.) -/
def startWake (x : Side) (src : Nat) (s : State) : State :=
  match (sideGet s x).st with
  | .entering => unwind x s
  | .sleep => sideMod x (fun d => { d with st := .waking, from_ := .sleep, src := src, regRetry := false, oscRetry := false, regAt := s.elapsed, oscAt := s.elapsed }) s
  | .deep => sideMod x (fun d => { d with st := .waking, from_ := .deep, src := src, regRetry := false, oscRetry := false, regAt := s.elapsed, oscAt := s.elapsed }) s
  | _ => s

/-- A host wake request of a class of R690 with its code of R687. -/
def hostRequest (cls src : Nat) (s : State) : State :=
  match s.pow.host.st with
  | .run => hwakeClass cls s
  | .off => { s with pow := { s.pow with wkdrop := s.pow.wkdrop + 1 } }
  | .wakefail => s
  | _ => startWake .host src { s with pow := { s.pow with hostReqs := s.pow.hostReqs ++ [cls] } }

end Sys2Proof.Machine
end

