-- ==== Sys2Proof/Machine/Trellis.lean ====
section
/-! DEFINITION. Trellis: queue memory, rings, pointers, watermarks, full policies, merge order and the record format
(R459 to R507). -/

namespace Sys2Proof.Machine

-- ---------------------------------------------------------------- the record (R490 to R501)

def kSamples : Nat := 1
def kEvent : Nat := 2
def kSnapshot : Nat := 3
def kSpectrum : Nat := 4
def kStatus : Nat := 5
def kEpoch : Nat := 6
def kGap : Nat := 7
def kFill : Nat := 15

/-- The record flag CORRUPT (R494). -/
def flCorrupt : Nat := 1

/-- The length in bytes of a record with this payload length (R490). -/
def recLen (len : Nat) : Nat := 16 * ceilDiv (len + 20) 16

/-- The lines of a record. -/
def recLines (r : Rec) : Nat := recLen r.payload.length / 16

/-- The header of a record (R491). -/
def recHeader (kind ctx len flags seq ts : Nat) : List Byte :=
  leBytes 4 (kind * 2 ^ 28 + ctx % 512 * 2 ^ 16 + len % 2 ^ 16) ++ leBytes 4 (flags % 2 ^ 16 * 2 ^ 16 + seq % 2 ^ 16) ++
  leBytes 4 (tNs ts) ++ leBytes 4 (tSecLo ts)

/-- The bytes of a record: header, payload, padding, CRC-32C (R490, R495). -/
def recBytes (r : Rec) : List Byte :=
  let body := recHeader r.kind r.ctx r.payload.length r.flags r.seq r.ts ++ r.payload
  let padded := body ++ List.replicate (recLen r.payload.length - 4 - body.length) 0
  padded ++ wordBytes (crc32c padded)

/-- The bytes of a FILL record of n lines (R501). -/
def fillBytes (n : Nat) : List Byte := leBytes 4 (kFill * 2 ^ 28 + (16 * n - 16) % 2 ^ 16) ++ List.replicate (16 * n - 4) 0

/-- A record from its payload: not keyed elsewhere than at its own timestamp. -/
def mkRec (q kind ctx flags seq ts : Nat) (payload : List Byte) (key : Nat) (sieve : Bool) : Rec :=
  { q := q, kind := kind, ctx := ctx, flags := flags, seq := seq, ts := ts, payload := payload, key := key, sieve := sieve }

/-- A GAP payload (R501). -/
def gapPayload (cause endT count : Nat) : List Byte :=
  leBytes 4 cause ++ leBytes 4 (tNs endT) ++ leBytes 4 (tSecLo endT) ++ leBytes 4 count

/-- A GAP record of a context from start to end (R492, R501). -/
def gapRec (q k cause seq start endT count : Nat) : Rec :=
  mkRec q kGap k 0 seq start (gapPayload cause endT count) endT false

/-- An EPOCH payload (R501). -/
def epochPayload (s : State) (secHi reason : Nat) : List Byte :=
  leBytes 4 secHi ++
  leBytes 4 (fld s R.TB_PTP_STAT F.TB_PTP_STAT_UTCOFF + fld s R.TB_PTP_STAT F.TB_PTP_STAT_UTCVALID * 2 ^ 16 +
    fld s R.TB_STAT F.TB_STAT_STATE * 2 ^ 17 + fld s R.TB_STAT F.TB_STAT_FSTATE * 2 ^ 19 + reason * 2 ^ 24)

/-- An EPOCH record for queue q with the SECHI of the records that follow (R502). -/
def epochRec (s : State) (q secHi reason : Nat) : Rec :=
  mkRec q kEpoch 0 0 0 (fieldNs s) (epochPayload s secHi reason) (fieldNs s) false

-- ---------------------------------------------------------------- the ring (R459 to R468)

/-- Bytes of queue memory from an offset. -/
def qmemRead (s : State) (off n : Nat) : List Byte := (List.range n).map (fun i => tabGet (fun _ => (0 : Byte)) s.qmem (off + i))

/-- Bytes stored into queue memory. -/
def qmemWrite (off : Nat) (bs : List Byte) (s : State) : State :=
  { s with qmem := bs.zipIdx.foldl (fun m (p : Byte × Nat) => tabSet (fun _ => (0 : Byte)) m (off + p.2) p.1) s.qmem }

/-- The ring's size in lines and the byte offset of its first line in queue memory (R460). -/
def qLines (s : State) (q : Nat) : Nat := fld s (R.Q_CFG q) F.Q_CFG_SIZE * 256
def qBase (s : State) (q : Nat) : Nat := fld s (R.Q_CFG q) F.Q_CFG_BASE * 4096

/-- The write pointer in lines. -/
def qWr (s : State) (q : Nat) : Nat := (reg s (R.Q_WR q)).toNat / 16

/-- The fill in lines (R468). -/
def entsLines (l : List Ent) : Nat := sumNat (l.map (·.lines))
def qFill (s : State) (q : Nat) : Nat := entsLines (queueGet s q).ents

def qEn (s : State) (q : Nat) : Bool := flag s (R.Q_CFG q) F.Q_CFG_EN

/-- Port p is in Qq_CFG.SUBS (R466). -/
def qSub (s : State) (q p : Nat) : Bool := bitOf (fld s (R.Q_CFG q) F.Q_CFG_SUBS) p

/-- The subscribers of a queue. -/
def qSubs (s : State) (q : Nat) : List Nat := (List.range 4).filter (qSub s q)

/-- The watermarks and the hold are judged after a change of the fill from `before` lines (R470, R471). -/
def judgeFill (q before : Nat) (s : State) : State :=
  let after := qFill s q
  let hwm := fld s (R.Q_WM q) F.Q_WM_HWM * 256
  let lwm := fld s (R.Q_WM q) F.Q_WM_LWM * 256
  let s := onlyIf (decide (before * 16 ≤ hwm) && decide (after * 16 > hwm))
    (fun s => onlyIf (flag s (R.Q_CFG q) F.Q_CFG_HWAKE) (hostRequest 1 4) (evt (R.Q_EVT q) F.Q_EVT_HWM s)) s
  let s := onlyIf (decide (before * 16 > lwm) && decide (after * 16 ≤ lwm))
    (fun s => onlyIf (flag s (R.Q_CFG q) F.Q_CFG_LWAKE) (hostRequest 1 4) (evt (R.Q_EVT q) F.Q_EVT_LWM s)) s
  if flag s (R.Q_CFG q) F.Q_CFG_POLICY then s
  else if flag s (R.Q_STAT q) F.Q_STAT_HELD then
    onlyIf (decide (after * 16 ≤ lwm)) (setFlag (R.Q_STAT q) F.Q_STAT_HELD false) s
  else
    onlyIf (decide (after * 8 > 7 * qLines s q))
      (fun s => evt (R.Q_EVT q) F.Q_EVT_HOLD (setFlag (R.Q_STAT q) F.Q_STAT_HELD true s)) s

/-- The lines that records of these lengths take from the write pointer, with the FILL they need (R465). -/
def spanFrom (size : Nat) : Nat → List Nat → Nat
  | _, [] => 0
  | wr, n :: rest =>
    if wr + n > size then (size - wr) + n + spanFrom size (n % size) rest
    else n + spanFrom size ((wr + n) % size) rest

/-- Records of these lengths find room: a line stays free (R465). -/
def hasRoom (s : State) (q : Nat) (ls : List Nat) : Bool :=
  decide (qFill s q + spanFrom (qLines s q) (qWr s q) ls + 1 ≤ qLines s q)

/-- What the ring keeps of a record written at a line at some elapsed time. -/
def entOf (r : Rec) (off : Nat) (ovw : Option Nat) (at_ : Nat) : Ent :=
  { off := off, lines := recLines r, kind := r.kind, ctx := r.ctx, ts := r.ts, key := r.key, ovw := ovw, wrote := at_ }

/-- One record at the write pointer, after the FILL record it needs (R465). -/
def ringPut (q : Nat) (r : Rec) (s : State) : State :=
  let n := recLines r
  let size := qLines s q
  let before := qFill s q
  let wr := qWr s q
  let s := if wr + n > size then
      queueMod q (fun u => { u with ents := u.ents ++ [{ off := wr, lines := size - wr, kind := kFill, ctx := 0, ts := 0, key := 0, ovw := none, wrote := s.elapsed }] })
        (qmemWrite (qBase s q + 16 * wr) (fillBytes (size - wr)) s)
    else s
  let off := if wr + n > size then 0 else wr
  let s := qmemWrite (qBase s q + 16 * off) (recBytes r) s
  let s := queueMod q (fun u => { u with ents := u.ents ++ [entOf r off none s.elapsed] }) s
  let s := setReg (R.Q_WR q) (wordOf (16 * ((off + n) % size))) s
  judgeFill q before (cnt (R.Q_CNT_REC q) s)

/-- The length in lines of an OVERWRITE GAP record and of an EPOCH record. -/
def gapLines : Nat := recLen 16 / 16
def epochLines : Nat := recLen 8 / 16

/-- The oldest records are freed, whole and in order, until `need` lines, a GAP and an EPOCH find room, the last two whole
before the oldest record that stays (R474). Answers the records freed and those that stay. -/
def overwriteFree (size need : Nat) : Nat → List Ent → List Ent → List Ent × List Ent
  | 0, gone, l => (gone, l)
  | _, gone, [] => (gone, [])
  | fuel + 1, gone, e :: rest =>
    let ep := (e.off + size - epochLines) % size
    let gp := (e.off + 2 * size - epochLines - gapLines) % size
    if decide (ep + epochLines ≤ size) && decide (gp + gapLines ≤ size) &&
       decide (entsLines (e :: rest) + need + gapLines + epochLines + 1 ≤ size) then (gone, e :: rest)
    else overwriteFree size need fuel (gone ++ [e]) rest

/-- The freed records that an OVERWRITE GAP reports (R474). -/
def reported (l : List Ent) : List Ent := l.filter (fun e => e.kind != kEpoch && e.kind != kFill)

/-- Overwriting (R474, R475). -/
def overwrite (q need secHi : Nat) (s : State) : State :=
  let size := qLines s q
  let before := qFill s q
  let ents := (queueGet s q).ents
  let (gone, stay) := overwriteFree size need ents.length [] ents
  let rep := reported gone
  let lost := rep.filter (fun e => e.ovw == none)
  let count := sumNat (rep.map (fun e => e.ovw.getD 1))
  let now := fieldNs s
  let t0 := match rep with | [] => now | e :: l => l.foldl (fun a x => min a x.ts) e.ts
  let t1 := match rep with | [] => now | e :: l => l.foldl (fun a x => max a x.key) e.key
  let gap := mkRec q kGap 0 0 0 t0 (gapPayload 6 t1 count) t1 false
  let hi := match stay.filter (fun e => e.kind != kEpoch && e.kind != kFill) with
    | [] => secHi
    | e :: _ => tSecHi e.ts
  let ep := epochRec s q hi 3
  let s := onlyIf (!lost.isEmpty) (fun s => evt (R.Q_EVT q) F.Q_EVT_OVW (cntAdd (R.Q_CNT_OVW q) lost.length s)) s
  let first := match stay with | [] => qWr s q | e :: _ => e.off
  let gp := match stay with | [] => (if qWr s q + gapLines > size then 0 else qWr s q) | _ => (first + 2 * size - epochLines - gapLines) % size
  let s :=
    match stay with
    | [] => ringPut q ep (queueMod q (fun u => { u with ents := u.ents.map (fun e => if e.kind == kGap then { e with ovw := some count } else e) })
              (ringPut q gap (judgeFill q before (queueMod q (fun u => { u with ents := [] }) s))))
    | _ =>
      let ep0 := (first + size - epochLines) % size
      let s := qmemWrite (qBase s q + 16 * ep0) (recBytes ep) (qmemWrite (qBase s q + 16 * gp) (recBytes gap) s)
      let s := queueMod q (fun u => { u with ents := entOf gap gp (some count) s.elapsed :: entOf ep ep0 none s.elapsed :: stay }) s
      judgeFill q before (cntAdd (R.Q_CNT_REC q) 2 s)
  -- R475: a pointer inside the discarded records moves to the GAP record
  eachOf (qSubs s q) (fun p s =>
    let fix (a : Nat) (s : State) : State :=
      onlyIf (gone.any (fun e => 16 * e.off == (reg s a).toNat)) (setReg a (wordOf (16 * gp))) s
    fix (R.TR_SUB_ACK q p) (fix (R.TR_SUB_DLV q p) s)) s

/-- Records enter a queue at the write pointer, each after the EPOCH it needs (R502); the answer says whether they found
room (R473, R474). -/
def withEpochs (s : State) (q : Nat) : Option Nat → Option Nat → List Rec → List Rec
  | _, _, [] => []
  | due, hi, r :: rest =>
    let h := tSecHi r.ts
    match due with
    | some reason => epochRec s q h reason :: r :: withEpochs s q none (some h) rest
    | none => if hi = some h then r :: withEpochs s q none hi rest
              else epochRec s q h 2 :: r :: withEpochs s q none (some h) rest

/-- Records placed together; none where a held queue has no room for them. -/
def place (q : Nat) (rs : List Rec) (s : State) : Option State :=
  let u := queueGet s q
  let all := withEpochs s q u.epochDue u.secHi rs
  let ls := all.map recLines
  let fin (s : State) : State :=
    queueMod q (fun u => { u with epochDue := none, secHi := match rs.getLast? with | some r => some (tSecHi r.ts) | none => u.secHi })
      (eachOf all (ringPut q) s)
  if hasRoom s q ls then some (fin s)
  else if flag s (R.Q_CFG q) F.Q_CFG_POLICY then
    some (fin (overwrite q (spanFrom (qLines s q) (qWr s q) ls) (match rs with | r :: _ => tSecHi r.ts | [] => 0) s))
  else none

/-- A record is discarded for want of room in a held queue (R473). -/
def dropRec (r : Rec) (s : State) : State :=
  let upd (l : List DropGap) : List DropGap :=
    match l.find? (fun d => d.ctx == r.ctx) with
    | some _ => l.map (fun d => if d.ctx == r.ctx then { d with count := d.count + 1, first := min d.first r.ts, last := max d.last r.key } else d)
    | none => l ++ [{ ctx := r.ctx, count := 1, first := r.ts, last := r.key }]
  evt (R.Q_EVT r.q) F.Q_EVT_DROP (cnt (R.Q_CNT_DROP r.q) (queueMod r.q (fun u => { u with drops := upd u.drops }) s))

/-- A context's record enters its queue, after the DROPPED gap it owes (R473). -/
def enterQueue (r : Rec) (s : State) : State :=
  if !qEn s r.q then s
  else
    let owed := (queueGet s r.q).drops.find? (fun d => d.ctx == r.ctx)
    let gaps := match owed with
      | some d => [gapRec r.q r.ctx 5 (if r.kind == kSamples then r.seq else (ctxGet s r.ctx).nextSample) d.first d.last d.count]
      | none => []
    match place r.q (gaps ++ [r]) s with
    | some s => queueMod r.q (fun u => { u with drops := u.drops.filter (fun d => d.ctx != r.ctx) }) s
    | none => dropRec r s

-- ---------------------------------------------------------------- merge order (R477 to R488)

/-- Λ_q + H in ns (R481, R482). -/
def qDelay (s : State) (q : Nat) : Nat := (fld s (R.Q_LAMBDA q) F.Q_LAMBDA_LAMBDA + fld s (R.Q_ORD q) F.Q_ORD_HOR) * 1000

/-- The release time of a held record. -/
def releaseAt (s : State) (r : Rec) : Nat := r.key + qDelay s r.q

/-- The mark moves to a larger key (R482). -/
def moveMark (q key : Nat) (s : State) : State := queueMod q (fun u => { u with mark := max u.mark key }) s

/-- The first record of a list by key, then CTX, then arrival (R482, R485). -/
def firstByKey : List Rec → Option Rec
  | [] => none
  | r :: rest =>
    match firstByKey rest with
    | none => some r
    | some b => if b.key < r.key || (b.key == r.key && b.ctx < r.ctx) then some b else some r

/-- The store without one record. -/
def eraseRec (r : Rec) : List Rec → List Rec
  | [] => []
  | x :: rest => if x = r then rest else x :: eraseRec r rest

/-- Held records that satisfy a test are released in key order (R482, R485). -/
def releaseAll (p : Rec → Bool) : Nat → State → State
  | 0, s => s
  | fuel + 1, s =>
    match firstByKey (s.tr.held.filter p) with
    | none => s
    | some r =>
      let s := { s with tr := { s.tr with held := eraseRec r s.tr.held } }
      releaseAll p fuel (moveMark r.q r.key (enterQueue r s))

/-- A list of records in the order of their release. -/
def inKeyOrder : Nat → List Rec → List Rec
  | 0, _ => []
  | fuel + 1, l => match firstByKey l with
    | none => []
    | some r => r :: inKeyOrder fuel (eraseRec r l)

/-- The records of queue q that are released by now and fail the check of the reorder store leave it with CORRUPT (R503). -/
def strikeHeld (q : Nat) (bad : List Nat) (s : State) : State :=
  let due := s.tr.held.filter (fun r => r.q == q && decide (releaseAt s r ≤ fieldNs s))
  let hit := (bad.map (fun i => (inKeyOrder due.length due)[i]?)).filterMap id
  { s with tr := { s.tr with held := s.tr.held.map (fun r => if hit.contains r then { r with flags := Nat.lor r.flags flCorrupt } else r) } }

/-- The records of queue q whose release time has come (R482). -/
def releaseDue (q : Nat) (s : State) : State :=
  let now := fieldNs s
  releaseAll (fun r => r.q == q && decide (releaseAt s r ≤ now)) s.tr.held.length s

/-- Lines in use in the reorder store (R505). -/
def heldLines (s : State) : Nat := sumNat (s.tr.held.map recLines)

/-- The held record with the earliest release time (R486). -/
def earliest (s : State) : List Rec → Option Rec
  | [] => none
  | r :: rest =>
    match earliest s rest with
    | none => some r
    | some b => if releaseAt s b < releaseAt s r then some b else some r

/-- Early releases until a record fits into the reorder store (R486). -/
def makeRoom (n : Nat) : Nat → State → State
  | 0, s => s
  | fuel + 1, s =>
    if heldLines s + n ≤ 65536 then s
    else match earliest s s.tr.held with
      | none => s
      | some r =>
        let s := { s with tr := { s.tr with held := eraseRec r s.tr.held } }
        makeRoom n fuel (moveMark r.q r.key (enterQueue r (evt R.TR_EVT F.TR_EVT_EARLY (cnt R.TR_CNT_EARLY s))))

/-- A record's key was stamped before the last step instant: it was on its way then, or after a backward step its key lies ahead of
device time and not after the instant in the old time (R324, R487). (DEDUCED, notes/assumptions/62.md.) -/
def keyBefore (r : Rec) (s : State) : Bool :=
  r.old || match s.tm.lastStep with
    | some (_, at_, amt) => decide (amt < 0) && decide (fieldNs s < r.key) && decide (r.key ≤ at_)
    | none => false

/-- A record reaches Trellis (R478, R482 to R484); one whose key was stamped before a step is written at once, and leaves the mark where
the step set it (R487). (DEDUCED, notes/assumptions/62.md.) -/
def arrive (r : Rec) (s : State) : State :=
  if !flag s (R.Q_ORD r.q) F.Q_ORD_MODE then enterQueue r s
  else
    let now := fieldNs s
    if keyBefore r s then
      enterQueue { r with flags := r.flags ||| 8, old := false } (evt (R.Q_EVT r.q) F.Q_EVT_LORD (cnt (R.Q_CNT_LORD r.q) s))
    else if decide (releaseAt s r < now) || decide (r.key < (queueGet s r.q).mark) then
      let s := evt (R.Q_EVT r.q) F.Q_EVT_LORD (cnt (R.Q_CNT_LORD r.q) s)
      moveMark r.q r.key (enterQueue { r with flags := r.flags ||| 8 } s)
    else
      let s := makeRoom (recLines r) s.tr.held.length s
      let s := { s with tr := { s.tr with held := s.tr.held ++ [r] } }
      if releaseAt s r = now then releaseDue r.q s else s

/-- A record starts on its way to Trellis. -/
def sendRec (r : Rec) (s : State) : State := { s with tr := { s.tr with path := s.tr.path ++ [r] } }

/-- The queues of the part. -/
def allQueues : List Nat := List.range 128

/-- The enabled sample-time queues. -/
def timeQueues (s : State) : List Nat := allQueues.filter (fun q => qEn s q && flag s (R.Q_ORD q) F.Q_ORD_MODE)

/-- A step reaches Trellis (R487); `now` is the step instant in the new time. -/
def trellisStep (now : Nat) (s : State) : State :=
  let s := { s with tr := { s.tr with path := s.tr.path.map (fun r => { r with old := true }) } }
  eachOf (timeQueues s) (fun q s =>
    let s := releaseAll (fun r => r.q == q) s.tr.held.length s
    let s := queueMod q (fun u => { u with mark := now, epochDue := none, secHi := some (tSecHi now) }) s
    let ep := epochRec s q (tSecHi now) 5
    if hasRoom s q [recLines ep] then ringPut q ep s
    else if flag s (R.Q_CFG q) F.Q_CFG_POLICY then
      ringPut q ep (overwrite q (spanFrom (qLines s q) (qWr s q) [recLines ep]) (tSecHi now) s)
    else queueMod q (fun u => { u with epochDue := some 5 }) s) s

-- ---------------------------------------------------------------- subscribers and delivery (R466 to R469, R539 to R542)

/-- The records before a pointer, and those from it on. A pointer at the write pointer has every record before it. -/
def beforePtr (ptr : Nat) (l : List Ent) : List Ent := l.takeWhile (fun e => 16 * e.off != ptr)
def fromPtr (ptr : Nat) (l : List Ent) : List Ent := l.dropWhile (fun e => 16 * e.off != ptr)

def dlvOf (s : State) (q p : Nat) : Nat := (reg s (R.TR_SUB_DLV q p)).toNat
def ackOf (s : State) (q p : Nat) : Nat := (reg s (R.TR_SUB_ACK q p)).toNat

/-- The oldest records that every subscriber has acknowledged are freed (R466). -/
def freeAcked (q : Nat) (s : State) : State :=
  match qSubs s q with
  | [] => s
  | subs =>
    let before := qFill s q
    let ents := (queueGet s q).ents
    let n := (subs.map (fun p => (beforePtr (ackOf s q p) ents).length)).foldl min ents.length
    judgeFill q before (queueMod q (fun u => { u with ents := ents.drop n }) s)

/-- Port p starts to subscribe (R469). -/
def subAdd (q p : Nat) (s : State) : State :=
  let v := reg s (R.Q_WR q)
  let s := setFld (R.Q_CFG q) F.Q_CFG_SUBS (fld s (R.Q_CFG q) F.Q_CFG_SUBS ||| 2 ^ p) s
  queueMod q (fun u => { u with epochDue := some 4 }) (setReg (R.TR_SUB_ACK q p) v (setReg (R.TR_SUB_DLV q p) v s))

/-- Port p no longer subscribes: it holds no records, and its stream is off (R469, R544). -/
def subRemove (q p : Nat) (s : State) : State :=
  let m := fld s (R.Q_CFG q) F.Q_CFG_SUBS
  let s := setFld (R.Q_CFG q) F.Q_CFG_SUBS (if bitOf m p then m - 2 ^ p else m) s
  freeAcked q (partMod p (fun u => { u with streams := u.streams.filter (· != q) }) s)

/-- The records a delivery takes from a list: whole, in ring order, passing over FILL, as many as `budget` words hold; each
with whether it follows a FILL record (R539, R540, R467). Answers the records and the pointer past them. -/
def takeRecs : Nat → Bool → List Ent → List (Ent × Bool)
  | _, _, [] => []
  | budget, wrap, e :: rest =>
    if e.kind == kFill then takeRecs budget true rest
    else if 1 + 4 * e.lines ≤ budget then (e, wrap) :: takeRecs (budget - 1 - 4 * e.lines) false rest
    else []

/-- The byte offset just past a record, in a ring of `size` lines. -/
def pastEnt (size : Nat) (e : Ent) : Nat := 16 * ((e.off + e.lines) % size)

/-- A record's words with CORRUPT set and its CRC-32C made again (R47, R491). -/
def corruptWords (r : List Word) : List Word :=
  let body := (r.set 1 ((r[1]?).getD 0 ||| wordOf (flCorrupt * 2 ^ 16))).take (r.length - 1)
  body ++ [crc32c (wordsBytes body)]

/-- The positions of the records that fail CK-Q: by a double-bit error, or by their CRC-32C at the FH lane end (R43, R503). -/
def ckqBad (e : MemErr) : List Nat := (e.dbe ++ e.crc).eraseDups

/-- The errors of reads of queue memory count (R49, R503), and each record that fails CK-Q counts once (R48). (DEDUCED, notes/assumptions/51.md.) -/
def memErrs (e : MemErr) (s : State) : State :=
  let s := onlyIf (e.sbe != 0) (fun s => evt R.TR_EVT F.TR_EVT_SBE (cntAdd R.TR_CNT_SBE e.sbe s)) s
  let s := onlyIf (!e.dbe.isEmpty) (fun s => evt R.TR_EVT F.TR_EVT_DBE (cntAdd R.TR_CNT_DBE e.dbe.length s)) s
  onlyIf (!(ckqBad e).isEmpty) (hubCount 3 (ckqBad e).length) s

/-- The words of a record as it is delivered: with CORRUPT where it fails CK-Q, its header words as read (R51). -/
def recWords (s : State) (q : Nat) (corrupt : Bool) (e : Ent) : List Word :=
  let ws := bytesWords (4 * e.lines) (qmemRead s (qBase s q + 16 * e.off) (16 * e.lines))
  if corrupt then corruptWords ws else ws

/-- A delivery's payload, the pointer past it, and whether anything was returned (R539); the records at the positions `bad` fail CK-Q
(R51). -/
def delivery (s : State) (q ptr maxw : Nat) (bad : List Nat) : List Word × Nat :=
  let size := qLines s q
  let rest := fromPtr ptr (queueGet s q).ents
  let got := takeRecs (maxw - 2) false rest
  let waiting := (rest.filter (fun e => e.kind != kFill)).length
  let offs := match got with | [] => ptr | (e, _) :: _ => 16 * e.off
  let w1 := got.length + (if waiting > got.length then 2 ^ 16 else 0)
  let desc := got.map (fun (x : Ent × Bool) => wordOf (x.1.lines + (if x.2 then 2 ^ 31 else 0)))
  let body := got.zipIdx.flatMap (fun (x : (Ent × Bool) × Nat) => recWords s q (bad.contains x.2) x.1.1)
  let past := match got.getLast? with | some (e, _) => pastEnt size e | none => ptr
  ([wordOf offs, wordOf w1] ++ desc ++ body, past)

/-- Port p has records of queue q waiting beyond its delivery pointer (R547). -/
def hasWaiting (s : State) (q p : Nat) : Bool :=
  qSub s q p && (fromPtr (dlvOf s q p) (queueGet s q).ents).any (fun e => e.kind != kFill)

/-- The pointer an ACK offset leads to, where the offset is one R542 allows: the delivery pointer, or the start of a record
between the pointers; at a FILL record, past it. -/
def ackTarget (s : State) (q p offs : Nat) : Option Nat :=
  let size := qLines s q
  let ents := (queueGet s q).ents
  let mid := (fromPtr (ackOf s q p) ents).takeWhile (fun e => 16 * e.off != dlvOf s q p)
  let pass (o : Nat) : Nat := match ents.find? (fun e => 16 * e.off == o) with
    | some e => if e.kind == kFill then pastEnt size e else o
    | none => o
  if offs = dlvOf s q p then some (pass offs)
  else if mid.any (fun e => 16 * e.off == offs) then some (pass offs)
  else none

/-- The acknowledge pointer moves (R542, R466). -/
def moveAck (q p ptr : Nat) (s : State) : State := freeAcked q (setReg (R.TR_SUB_ACK q p) (wordOf ptr) s)

-- ---------------------------------------------------------------- enabling, the pool and clearing

/-- Two runs of pages overlap. -/
def overlap (b1 n1 b2 n2 : Nat) : Bool := decide (b1 < b2 + n2) && decide (b2 < b1 + n1) && n1 != 0 && n2 != 0

/-- The pages of a region word of the form BASE [10:0], SIZE [27:16] or of a queue. -/
def regionBase (v : Word) : Nat := bitsOf v.toNat 10 0
def regionSize (v : Word) : Nat := bitsOf v.toNat 27 16

/-- The checks of a write that sets Qq_CFG.EN (R460, R472): true where it is refused with RANGE. -/
def queueEnableBad (s : State) (q : Nat) (v : Word) : Bool :=
  let base := getFld v F.Q_CFG_BASE
  let size := getFld v F.Q_CFG_SIZE
  decide (size < 8) || decide (base + size > 2048) ||
  overlap base size (regionBase (reg s R.TR_POOL)) (regionSize (reg s R.TR_POOL)) ||
  overlap base size (regionBase (reg s R.TR_SPWS)) (regionSize (reg s R.TR_SPWS)) ||
  allQueues.any (fun q' => q' != q && qEn s q' && overlap base size (fld s (R.Q_CFG q') F.Q_CFG_BASE) (fld s (R.Q_CFG q') F.Q_CFG_SIZE)) ||
  (getFld v F.Q_CFG_POLICY == 0 && decide (fld s (R.Q_WM q) F.Q_WM_LWM * 256 * 8 ≥ 7 * size * 4096))

/-- A queue becomes enabled with an empty ring; the first record follows an EPOCH of reason 0x01 (R502, R460). -/
def queueStart (q : Nat) (s : State) : State :=
  let s := queueMod q (fun u => { u with ents := [], epochDue := some 1, drops := [], mark := 0 }) s
  let s := eachOf (List.range 4) (fun p s => setReg (R.TR_SUB_DLV q p) 0 (setReg (R.TR_SUB_ACK q p) 0 s)) (setReg (R.Q_WR q) 0 s)
  setFlag (R.Q_STAT q) F.Q_STAT_HELD false s

/-- The pool's pages that no snapshot ring holds (R463). -/
def poolFree (s : State) : List Bool :=
  let b := regionBase (reg s R.TR_POOL)
  (List.range (regionSize (reg s R.TR_POOL))).map (fun i => !s.tr.rings.any (fun r => decide (r.page ≤ b + i) && decide (b + i < r.page + r.pages)))

/-- The longest run of true, and the first index of a run of at least n. -/
def longestRun (l : List Bool) : Nat := (l.foldl (fun (p : Nat × Nat) b => if b then (p.1 + 1, max p.2 (p.1 + 1)) else (0, p.2)) (0, 0)).2
def firstRun (n : Nat) (l : List Bool) : Option Nat :=
  (List.range (l.length + 1 - n)).find? (fun i => ((l.drop i).take n).all id)

/-- Queue memory, the boundary map and the reorder store are cleared (R800). -/
def clearQmem (s : State) : State := { s with qmem := [], tr := { s.tr with held := [], queues := [] } }

end Sys2Proof.Machine
end

