-- ==== Sys2Proof/Machine/Float.lean ====
section
/-! DEFINITION. IEEE 754 arithmetic where the specification asks for binary32 or binary64: exact rationals, rounded to
nearest with ties to even (R317, R417). -/

namespace Sys2Proof.Machine

/-- The nearest integer, ties to even. -/
def roundEven (q : Rat) : Int :=
  let f := q.floor
  let r := q - (f : Rat)
  if r * 2 < 1 then f else if r * 2 > 1 then f + 1 else if f % 2 = 0 then f else f + 1

/-- The nearest integer, ties away from zero. -/
def roundAway (q : Rat) : Int := if q < 0 then - ((- q) + 1 / 2).floor else (q + 1 / 2).floor

/-- 2^e for an integer e. -/
def twoPow (e : Int) : Rat := if e < 0 then 1 / ((2 ^ e.natAbs : Nat) : Rat) else ((2 ^ e.natAbs : Nat) : Rat)

/-- The largest e with 2^e at most a positive q. -/
def ilog2 (q : Rat) : Int :=
  let g : Int := (Nat.log2 q.num.natAbs : Int) - (Nat.log2 q.den : Int)
  if twoPow g ≤ q then g else g - 1

/-- A rational rounded to p significant bits, with 2^emin as the smallest unit. -/
def roundFp (p : Nat) (emin : Int) (q : Rat) : Rat :=
  if q = 0 then 0
  else
    let e := ilog2 (if q < 0 then - q else q)
    let u := max (e - (p - 1 : Nat)) emin
    (roundEven (q / twoPow u) : Rat) * twoPow u

/-- binary64. -/
def f64 (q : Rat) : Rat := roundFp 53 (-1074) q

/-- binary32. -/
def f32 (q : Rat) : Rat := roundFp 24 (-149) q

/-- The binary32 pattern of a value that binary32 holds; infinity beyond its range. -/
def f32Bits (q : Rat) : Word :=
  let sgn : Nat := if q < 0 then 0x80000000 else 0
  let a := if q < 0 then - q else q
  if a = 0 then 0
  else
    let r := f32 a
    let e := ilog2 r
    if e > 127 then BitVec.ofNat 32 (sgn + 0x7F800000)
    else if e < -126 then BitVec.ofNat 32 (sgn + (r / twoPow (-149)).floor.toNat)
    else BitVec.ofNat 32 (sgn + (e + 127).toNat * 0x800000 + ((r / twoPow (e - 23)).floor.toNat - 0x800000))

/-- The value of a finite binary32 pattern; none for an infinity or a NaN. -/
def f32Val (w : Word) : Option Rat :=
  let e := bitsOf w.toNat 30 23
  let m := bitsOf w.toNat 22 0
  let s : Rat := if bitOf w.toNat 31 then -1 else 1
  if e = 255 then none
  else if e = 0 then some (s * (m : Rat) * twoPow (-149))
  else some (s * ((m + 0x800000 : Nat) : Rat) * twoPow ((e : Int) - 150))

/-- The square root of a non-negative rational to p significant bits, ties to even: the integer root of the scaled
value with a sticky bit. -/
def sqrtFp (p : Nat) (q : Rat) : Rat :=
  if q ≤ 0 then 0
  else
    let e := ilog2 q
    let h : Int := e / 2
    let u := h - (p + 2 : Nat)
    let scaled := q / (twoPow u * twoPow u)
    let n := scaled.floor.toNat
    let r := Nat.sqrt n
    let exact : Bool := (r * r : Nat) = scaled
    roundFp p (-1074) (((2 * r + b2n (!exact) : Nat) : Rat) * twoPow (u - 1))

-- ---------------------------------------------------------------- sines and cosines (R423)

/-- The unit of the fixed-point numbers in which a sine or a cosine is formed: far finer than binary64. -/
def fixUnit : Nat := 2 ^ 192

/-- 2π in that unit. -/
def twoPi : Nat := 2 * 314159265358979323846264338327950288419716939937510582097494459 * fixUnit / 10 ^ 62

/-- An alternating power series from its term t of degree k, for the square a2 of the angle. -/
def altSeries (a2 : Nat) : Nat → Nat → Nat → Int
  | 0, _, _ => 0
  | n + 1, k, t => (t : Int) - altSeries a2 n (k + 2) (t * a2 / fixUnit / ((k + 1) * (k + 2)))

/-- The cosine and the sine of the angle of p / 2^24 turns, for at most a quarter turn. -/
def quarterTrig (p : Nat) : Int × Int :=
  let a := twoPi * p / 2 ^ 24
  let a2 := a * a / fixUnit
  (altSeries a2 32 0 fixUnit, altSeries a2 32 1 a)

/-- The cosine and the sine of the angle of p / 2^24 turns, each rounded to binary64. -/
def trig64 (p : Nat) : Rat × Rat :=
  let x := quarterTrig (p % 2 ^ 22)
  let y : Int × Int := match p / 2 ^ 22 % 4 with
    | 0 => x
    | 1 => (-x.2, x.1)
    | 2 => (-x.1, -x.2)
    | _ => (x.2, -x.1)
  (f64 ((y.1 : Rat) / (fixUnit : Nat)), f64 ((y.2 : Rat) / (fixUnit : Nat)))

end Sys2Proof.Machine
end

