-- ==== Sys2Proof/Machine/Values.lean ====
section
/-! DEFINITION. Sample values: the conversion of R195, the features of R423 and the comparisons of R430. -/

namespace Sys2Proof.Machine

-- ---------------------------------------------------------------- context fields (R191)

def cFmt (s : State) (k : Nat) : Nat := fld s (R.CTX_CTL k) F.CTX_CTL_FMT
def cPort (s : State) (k : Nat) : Nat := fld s (R.CTX_BIND k) F.CTX_BIND_PORT
def cSel (s : State) (k : Nat) : Nat := fld s (R.CTX_BIND k) F.CTX_BIND_SEL
def cFen (s : State) (k : Nat) : Bool := flag s (R.CTX_BIND k) F.CTX_BIND_FEN
def cSlot (s : State) (k : Nat) : Nat := fld s (R.CTX_BIND k) F.CTX_BIND_SLOT
def cTpl (s : State) (k : Nat) : Nat := fld s (R.CTX_BIND k) F.CTX_BIND_TPL
def cState (s : State) (k : Nat) : Nat := fld s (R.CTX_STAT k) F.CTX_STAT_STATE
def cQ (s : State) (k : Nat) : Nat := fld s (R.CTX_RULES k) F.CTX_RULES_Q
def cEvq (s : State) (k : Nat) : Nat := fld s (R.CTX_RULES k) F.CTX_RULES_EVQ
def cRbase (s : State) (k : Nat) : Nat := fld s (R.CTX_RULES k) F.CTX_RULES_RBASE
def cRcnt (s : State) (k : Nat) : Nat := fld s (R.CTX_RULES k) F.CTX_RULES_RCNT

/-- The states of a context (R191). -/
def stFree : Nat := 0
def stReserved : Nat := 1
def stStopped : Nat := 2
def stRunning : Nat := 3
def stStopping : Nat := 4
def stRemoving : Nat := 5

/-- The profile words: the low and the high word of the calm or alert profile. -/
def cPerLo (k : Nat) (alert : Bool) : Nat := if alert then R.CTX_APERLO k else R.CTX_CPERLO k
def cPerHi (k : Nat) (alert : Bool) : Nat := if alert then R.CTX_APERHI k else R.CTX_CPERHI k

/-- The period, preset and batch of a profile. -/
def cPer (s : State) (k : Nat) (alert : Bool) : Nat :=
  (reg s (cPerLo k alert)).toNat + bitsOf (reg s (cPerHi k alert)).toNat 9 0 * 2 ^ 32
def cPreset (s : State) (k : Nat) (alert : Bool) : Nat := bitsOf (reg s (cPerHi k alert)).toNat 18 16
def cBatch (s : State) (k : Nat) (alert : Bool) : Nat := bitsOf (reg s (cPerHi k alert)).toNat 31 24

/-- The context has an alert profile (R191). -/
def cHasAlert (s : State) (k : Nat) : Bool := cBatch s k true != 0

/-- The context runs its alert profile. A CHANGE keeps PROF (R203); where it leaves the context no alert profile, the calm one acts. (DESIGN
CHOICE, notes/assumptions/65.md.) -/
def cAlert (s : State) (k : Nat) : Bool := flag s (R.CTX_STAT k) F.CTX_STAT_PROF && cHasAlert s k

/-- The port of a context runs in bitstream mode (R193). -/
def portBit (s : State) (n : Nat) : Bool := fld s (R.FP_CTL n) F.FP_CTL_MODE == 2
def cBit (s : State) (k : Nat) : Bool := portBit s (cPort s k)

/-- Step i of template j as a 64-bit number (R208). -/
def tplStep (s : State) (j i : Nat) : Nat :=
  (reg s (R.TPL_WORD j (2 * i))).toNat + (reg s (R.TPL_WORD j (2 * i + 1))).toNat * 2 ^ 32

/-- The steps a template runs: up to its first END, or all 16 (R210). -/
def tplSteps (s : State) (j : Nat) : List Nat := ((List.range 16).map (tplStep s j)).takeWhile (fun w => bitsOf w 63 60 != 0)

def isStore (w : Nat) : Bool := bitsOf w 63 60 == 7

/-- Step i of the template that context k runs (R208, R724). -/
def cStep (s : State) (k i : Nat) : Nat :=
  match (ctxGet s k).oldTpl with
  | some ws => (ws.getD (2 * i) 0).toNat + (ws.getD (2 * i + 1) 0).toNat * 2 ^ 32
  | none => tplStep s (cTpl s k) i

/-- The steps that context k runs. -/
def cSteps (s : State) (k : Nat) : List Nat := ((List.range 16).map (cStep s k)).takeWhile (fun w => bitsOf w 63 60 != 0)

/-- The values in a sample of a context: its STORE steps, or one for a bitstream context (R194, R414). -/
def cVals (s : State) (k : Nat) : Nat := if cBit s k then 1 else ((cSteps s k).filter isStore).length

-- ---------------------------------------------------------------- formats

/-- Bytes of a value of a format (R463). -/
def fmtBytes (f : Nat) : Nat := if f = 0 then 2 else if f = 1 then 3 else 4

/-- An integer limited to w bits, two's complement. -/
def clampW (w : Nat) (v : Int) : Int := max (-(2 ^ (w - 1) : Nat)) (min ((2 ^ (w - 1) : Nat) - 1) v)

/-- A received value converted to a format; none where the specification gives no result (a calibration word that is no
number). A result of exactly zero is +0. (DEDUCED, notes/assumptions/62.md.) -/
def convertVal (f : Nat) (cal : Bool) (gain offs : Word) (v : Int) : Option Word :=
  if f = 3 then
    if cal then
      match f32Val gain, f32Val offs with
      | some g, some o => some (f32Bits ((v : Rat) * g + o))
      | _, _ => none
    else some (f32Bits (v : Rat))
  else
    let w := 8 * fmtBytes f
    some (BitVec.ofInt 32 (clampW w v))

/-- The number a record's value word stands for; none for an infinity or a NaN. -/
def valOf (f : Nat) (w : Word) : Option Rat := if f = 3 then f32Val w else some ((w.toInt : Int) : Rat)

/-- The bytes of a value in a record. -/
def valBytes (f : Nat) (w : Word) : List Byte := leBytes (fmtBytes f) w.toNat

/-- A free finite binary32 pattern of either sign. (DESIGN CHOICE, notes/assumptions/2.md.) -/
def freeFinite (k : Nat) : Word := wordOf (Config.freeNat k % 2 * 0x80000000 + Config.freeNat k / 2 % 0x7F800000)

-- ---------------------------------------------------------------- features (R423)

def addF (a b : Rat) : Rat := f64 (a + b)
def subF (a b : Rat) : Rat := f64 (a - b)
def mulF (a b : Rat) : Rat := f64 (a * b)
def divF (a b : Rat) : Rat := f64 (a / b)
def sqrtF (a : Rat) : Rat := sqrtFp 53 a
def sumF (l : List Rat) : Rat := l.foldl addF 0
def absQ (q : Rat) : Rat := if q < 0 then - q else q

/-- Σ x^p with every power formed from left to right. -/
def powSum (p : Nat) (xs : List Rat) : Rat := sumF (xs.map (fun x => (List.replicate (p - 1) x).foldl mulF x))

def peakOf (xs : List Rat) : Rat := xs.foldl (fun a x => if a < absQ x then absQ x else a) 0

def rmsOf (xs : List Rat) : Rat := sqrtF (divF (powSum 2 xs) (xs.length : Nat))

def p2pOf : List Rat → Rat
  | [] => 0
  | x :: xs =>
    subF (xs.foldl (fun a y => if a < y then y else a) x) (xs.foldl (fun a y => if y < a then y else a) x)

def kurtOf (xs : List Rat) : Rat :=
  let w : Rat := (xs.length : Nat)
  let s1 := powSum 1 xs
  let s2 := powSum 2 xs
  let s3 := powSum 3 xs
  let s4 := powSum 4 xs
  let q1 := mulF s1 s1
  let q4 := mulF (mulF q1 s1) s1
  let m2 := subF s2 (divF q1 w)
  if m2 ≤ 0 then 0
  else
    let a := divF (mulF (mulF 4 s1) s3) w
    let b := divF (mulF (mulF 6 q1) s2) (w * w)
    let c := divF (mulF 3 q4) (w * w * w)
    let m4 := subF (addF (subF s4 a) b) c
    divF (mulF w m4) (mulF m2 m2)

/-- SLOPE over the window from the instant of its first to that of its last sample, in ns. (DEDUCED, notes/assumptions/62.md.) -/
def slopeOf (xs : List Rat) (dt : Int) : Rat :=
  let w : Rat := (xs.length : Nat)
  let delta := divF (f64 ((dt : Rat) / 1000000000)) (w - 1)
  if delta = 0 then 0
  else
    let terms := xs.zipIdx.map (fun (p : Rat × Nat) => mulF ((p.2 : Nat) - (w - 1) / 2 : Rat) p.1)
    divF (mulF 12 (sumF terms)) (mulF (mulF w (w * w - 1)) delta)

/-- Upward crossings of a level; `prev` is the last sample of the previous window, if any (R423). -/
def countOf (lvl : Rat) : Option Rat → List Rat → Nat
  | _, [] => 0
  | prev, x :: xs =>
    (match prev with | some p => b2n (decide (p < lvl) && decide (lvl ≤ x)) | none => 0) + countOf lvl (some x) xs

/-- The vector magnitude of R415. -/
def magnitude (a b c : Rat) : Rat := sqrtF (addF (addF (mulF a a) (mulF b b)) (mulF c c))

/-- The feature result rounded once to binary32, saturating at its range (R423). -/
def featBits (q : Rat) : Word :=
  let w := f32Bits q
  if bitsOf w.toNat 30 23 = 255 then wordOf (if q < 0 then 0xFF7FFFFF else 0x7F7FFFFF) else w

/-- GOERTZEL at a frequency in 2^-24 cycles per sample: each factor e^(-j2πfi) is the binary64 number nearest to it in both parts, and
the absolute value is formed as the magnitude of R415 is (R423). (DEDUCED, notes/assumptions/62.md.) -/
def goertzelOf (freq : Nat) (xs : List Rat) : Rat :=
  let es := xs.zipIdx.map (fun (p : Rat × Nat) => (p.1, trig64 (freq * p.2)))
  let re := sumF (es.map (fun e => mulF e.1 e.2.1))
  let im := sumF (es.map (fun e => mulF e.1 (-e.2.2)))
  mulF (divF (if freq = 2 ^ 23 then 1 else 2) (xs.length : Nat)) (sqrtF (addF (mulF re re) (mulF im im)))

/-- A feature of R423 but BAND; none for a COUNT level that is no number. `xs` are the window's values in order, `prev` the value
before them. -/
def featureOf (feat : Nat) (par : Word) (prev : Option Rat) (xs : List Rat) (dt : Int) : Option Word :=
  match feat with
  | 0 => some (featBits (divF (powSum 1 xs) (xs.length : Nat)))
  | 1 => some (featBits (rmsOf xs))
  | 2 => some (featBits (peakOf xs))
  | 3 => some (featBits (p2pOf xs))
  | 4 => some (featBits (if rmsOf xs = 0 then 0 else divF (peakOf xs) (rmsOf xs)))
  | 5 => some (featBits (kurtOf xs))
  | 6 => some (featBits (slopeOf xs dt))
  | 7 => (f32Val par).map (fun lvl => featBits (countOf lvl prev xs : Nat))
  | 8 => some (featBits (goertzelOf (bitsOf par.toNat 23 0) xs))
  | _ => none

-- ---------------------------------------------------------------- comparisons (R430)

/-- The value of a threshold word; a word that is no number does not pass the rule check, and reads as zero here. -/
def thr (w : Word) : Rat := (f32Val w).getD 0

/-- Whether v holds under CMP. -/
def holdsCmp (cmp : Nat) (v t1 t2 : Rat) : Bool :=
  match cmp with
  | 0 => decide (t1 < v)
  | 1 => decide (v < t1)
  | 2 => decide (t1 ≤ v) && decide (v ≤ t2)
  | _ => decide (v < t1) || decide (t2 < v)

/-- Whether v releases under CMP, with bounds rounded by `rnd`. -/
def releasesCmp (rnd : Rat → Rat) (cmp : Nat) (v t1 t2 h : Rat) : Bool :=
  match cmp with
  | 0 => decide (v ≤ rnd (t1 - h))
  | 1 => decide (rnd (t1 + h) ≤ v)
  | 2 => decide (v < rnd (t1 - h)) || decide (rnd (t2 + h) < v)
  | _ => decide (rnd (t1 + h) ≤ v) && decide (v ≤ rnd (t2 - h))

/-- One judgement of a rule: the new STATE and DCNT (R432). States: 0 FALSE, 1 PENDING_ON, 2 TRUE, 3 PENDING_OFF. -/
def judgeState (st dcnt don doff : Nat) (holds releases : Bool) : Nat × Nat :=
  if st = 0 ∨ st = 1 then
    if holds then (if dcnt + 1 ≥ don then (2, 0) else (1, dcnt + 1)) else (0, 0)
  else
    if releases then (if dcnt + 1 ≥ doff then (0, 0) else (3, dcnt + 1)) else (2, 0)

/-- The leaf of a rule state (R432). -/
def leafOf (st : Nat) : Bool := st == 2 || st == 3

end Sys2Proof.Machine
end

