-- ==== Sys2Proof/Machine/Sieve.lean ====
section
/-! DEFINITION. Sieve: windows, rules, results, actions, snapshots, spectral blocks, engine assignment and the check of a
rule set (R409 to R458). -/

namespace Sys2Proof.Machine

-- ---------------------------------------------------------------- rule words (R458)

/-- The rules of a context, in ascending index. -/
def rulesOf (s : State) (k : Nat) : List Nat := (List.range (cRcnt s k)).map (cRbase s k + ·)

def rFeat (s : State) (r : Nat) : Nat := fld s (R.SVR_CFG r) F.SVR_CFG_FEAT
def rCh (s : State) (r : Nat) : Nat := fld s (R.SVR_CFG r) F.SVR_CFG_CH
def rCmp (s : State) (r : Nat) : Nat := fld s (R.SVR_CFG r) F.SVR_CFG_CMP
def rProf (s : State) (r : Nat) : Nat := fld s (R.SVR_CFG r) F.SVR_CFG_PROF
def rComb (s : State) (r : Nat) : Nat := fld s (R.SVR_CFG r) F.SVR_CFG_COMB
def rWin (s : State) (r : Nat) : Nat := fld s (R.SVR_WIN r) F.SVR_WIN_WIN
def rMask (s : State) (r : Nat) : Nat := fld s (R.SVR_ACT r) F.SVR_ACT_MASK
def rState (s : State) (r : Nat) : Nat := fld s (R.SVR_STAT r) F.SVR_STAT_STATE
def rRes (s : State) (r : Nat) : Bool := flag s (R.SVR_STAT r) F.SVR_STAT_RES
def rLeaf (s : State) (r : Nat) : Bool := leafOf (rState s r)
def bandFeat : Nat := 9

/-- The valid partner offsets in the order P1, P2, P3 (R433). -/
def rPartners (s : State) (r : Nat) : List Nat :=
  let w := R.SVR_WIN r
  (if flag s w F.SVR_WIN_P1V then [fld s w F.SVR_WIN_P1] else []) ++
  (if flag s w F.SVR_WIN_P2V then [fld s w F.SVR_WIN_P2] else []) ++
  (if flag s w F.SVR_WIN_P3V then [fld s w F.SVR_WIN_P3] else [])

/-- PROF includes a profile (R430). -/
def rIn (s : State) (r : Nat) (alert : Bool) : Bool := bitOf (rProf s r) (if alert then 1 else 0)

/-- The other record flags Sieve reads: HOLDOVER, PROFILE_ALERT, QUARANTINE (R494). -/
def flHoldover : Nat := 16
def flAlert : Nat := 64
def flQuar : Nat := 512
def flTrunc : Nat := 1024
def hasFl (f b : Nat) : Bool := Nat.land f b != 0

-- ---------------------------------------------------------------- snapshots (R440 to R443)

def snRingl (s : State) (k : Nat) : Nat := fld s (R.SV_CX_SNCFG k) F.SV_CX_SNCFG_RINGL
def snPre (s : State) (k : Nat) : Nat := 16 * fld s (R.SV_CX_SNCFG k) F.SV_CX_SNCFG_PRE
def snPost (s : State) (k : Nat) : Nat := 16 * fld s (R.SV_CX_SNCFG k) F.SV_CX_SNCFG_POST

/-- One SNAPSHOT record (R499). -/
def snapRec (s : State) (k : Nat) (p : SnapS) (no part parts total : Nat) (trunc : Bool) (lastT : Nat) (xs : List SvSample) : Rec :=
  let f := cFmt s k
  let v := cVals s k
  let t0 := match xs with | x :: _ => x.ts | [] => p.trig
  let sq := match xs with | x :: _ => x.seq | [] => 0
  let flags := (if xs.any (fun x => hasFl x.flags flCorrupt) then flCorrupt else 0) + (Nat.land p.flags (flHoldover + flAlert)) +
    (if trunc then flTrunc else 0)
  let body := leBytes 2 no ++ leBytes 1 part ++ leBytes 1 parts ++
    leBytes 4 (p.rule + f * 2 ^ 10 + v * 2 ^ 12 + xs.length * 2 ^ 16) ++
    leBytes 4 p.pre.length ++ leBytes 4 total ++
    leBytes 4 (tNs p.trig) ++ leBytes 4 (tSecLo p.trig) ++ leBytes 4 (tNs lastT) ++ leBytes 4 (tSecLo lastT) ++
    xs.flatMap (fun x => x.vals.flatMap (valBytes f))
  mkRec (cEvq s k) kSnapshot k flags sq t0 body lastT true

/-- The snapshot of a context is written (R441, R442). -/
def writeSnap (k : Nat) (p : SnapS) (s : State) : State :=
  let xs := p.pre ++ p.post
  let per := 16384 / (max 1 (cVals s k * fmtBytes (cFmt s k)))
  let parts := chunksOf per xs.length xs
  let trunc := decide (p.pre.length < snPre s k) || decide (p.post.length < p.want)
  let lastT := match xs.getLast? with | some x => x.ts | none => p.trig
  let no := fld s (R.SV_CX_STAT k) F.SV_CX_STAT_SNAPS
  let recs := parts.zipIdx.map (fun (q : List SvSample × Nat) => snapRec s k p no q.2 parts.length xs.length trunc lastT q.1)
  let s := eachOf recs sendRec s
  let s := cntFld (R.SV_CX_STAT k) F.SV_CX_STAT_SNAPS 1 (setFlag (R.SV_CX_STAT k) F.SV_CX_STAT_SNBUSY false s)
  svMod k (fun c => { c with snap := none }) s

-- ---------------------------------------------------------------- restarts (R420, R421, R439)

/-- The windows of a context restart: partial windows and blocks are discarded, a collecting snapshot is written (R420,
R442). -/
def svRestartNow (k : Nat) (s : State) : State :=
  let s := match (svGet s k).snap with | some p => writeSnap k p s | none => s
  svMod k (fun c => { c with hist := [], n := 0, epoch := c.epoch + 1, bands := [] }) s

/-- A rule's state, debounce count and SEQ progress are cleared. -/
def ruleClear (r : Nat) (s : State) : State :=
  setFld (R.SVR_STAT r) F.SVR_STAT_SEQJ 0 (setFld (R.SVR_STAT r) F.SVR_STAT_DCNT 0 (setFld (R.SVR_STAT r) F.SVR_STAT_STATE 0 s))

/-- Every rule of the context becomes FALSE (R421, R422). -/
def rulesClear (k : Nat) (s : State) : State :=
  eachOf (rulesOf s k) (fun r s => setFlag (R.SVR_STAT r) F.SVR_STAT_RES false (ruleClear r s)) s

/-- A mark in the sample stream takes effect. -/
def svMark (k : Nat) (m : SvItem) (s : State) : State :=
  match m with
  | .smp _ => s
  | .restart => svRestartNow k s
  | .clear => rulesClear k (svRestartNow k s)
  | .prof alert =>
    -- R439: rules that exclude the new profile are forced FALSE, without an action or a record
    eachOf ((rulesOf s k).filter (fun r => !rIn s r alert))
      (fun r s => setFlag (R.SVR_STAT r) F.SVR_STAT_RES false (ruleClear r s)) (svRestartNow k s)

def isSmp : SvItem → Bool
  | .smp _ => true
  | _ => false

/-- Marks at the front of a context's input buffer take effect. -/
def svMarks (k : Nat) : List SvItem → State → State
  | [], s => svMod k (fun c => { c with waiting := [] }) s
  | .smp x :: rest, s => svMod k (fun c => { c with waiting := .smp x :: rest }) s
  | m :: rest, s => svMarks k rest (svMark k m s)

/-- The marks at the front take effect, unless a sample still waits for its BAND windows. -/
def svMarksNow (k : Nat) (s : State) : State := if (svGet s k).held.isSome then s else svMarks k (svGet s k).waiting s

/-- A mark enters the sample stream of a context, behind the samples that wait. -/
def svPut (k : Nat) (m : SvItem) (s : State) : State := svMarksNow k (svMod k (fun c => { c with waiting := c.waiting ++ [m] }) s)

-- ---------------------------------------------------------------- actions (R435 to R438)

/-- An EVENT record (R436, R498). -/
def eventRec (s : State) (k r : Nat) (fall : Bool) (acts : Nat) (v : Word) (x : SvSample) : Rec :=
  let seqRule := rComb s r == 3
  let t0 := tabGet (fun _ => 0) s.sv.seqT0 r
  let w0 := r + b2n fall * 2 ^ 10 + b2n seqRule * 2 ^ 11 + rFeat s r * 2 ^ 12 + rCh s r * 2 ^ 16 + acts * 2 ^ 24
  let body := leBytes 4 w0 ++ wordBytes v ++ wordBytes (reg s (R.SVR_T1 r)) ++
    leBytes 4 (if seqRule then tNs t0 else 0) ++ leBytes 4 (if seqRule then tSecLo t0 else 0) ++ leBytes 4 (rWin s r)
  mkRec (cEvq s k) kEvent k (Nat.land x.flags (flHoldover + flAlert)) x.seq x.ts body x.ts true

/-- A profile request (R438, R232). -/
def reqProfile (k : Nat) (alert : Bool) (s : State) : State :=
  if cHasAlert s k then ctxMod k (fun c => { c with profReq := some alert }) s else s

/-- A snapshot starts at the present sample (R441). -/
def startSnap (k r : Nat) (x : SvSample) (s : State) : State :=
  let pre := (((svGet s k).hist.takeWhile (·.pool)).take (snPre s k)).reverse
  setFlag (R.SV_CX_STAT k) F.SV_CX_STAT_SNBUSY true
    (svMod k (fun c => { c with snap := some { rule := r, trig := x.ts, flags := x.flags, pre := pre, post := [], want := snPost s k } }) s)

/-- What one rise does, in a sample in which `busy` says a snapshot was already collecting before, and `alerted` that ALERT
has been asked for in this sample (R435, R443, R438). -/
def riseActs (k r : Nat) (busy alerted : Bool) (v : Word) (x : SvSample) (s : State) : State :=
  let m := rMask s r
  let s := evt R.SV_EVT F.SV_EVT_FIRE (cnt R.SV_CNT_FIRE (cntFld (R.SVR_STAT r) F.SVR_STAT_RISES 1 s))
  let snapLost := bitOf m 3 && busy
  let acts := m % 128 - (if snapLost then 8 else 0)
  let s := onlyIf (bitOf m 0) (sendRec (eventRec s k r false acts v x)) s
  let s := onlyIf (bitOf m 1) (fun s => hostRequest 0 3 (evt R.SV_EVT F.SV_EVT_WAKE s)) s
  let s := onlyIf (bitOf m 2)
    (fun s => setFld R.SV_IRQ F.SV_IRQ_PEND (fld s R.SV_IRQ F.SV_IRQ_PEND ||| 2 ^ fld s (R.SVR_ACT r) F.SVR_ACT_IRQSEL) s) s
  let s := onlyIf snapLost
    (fun s => evt R.SV_EVT F.SV_EVT_SNDROP (cntFld (R.SV_CX_DROP k) F.SV_CX_DROP_SNDROP 1 s)) s
  let s := onlyIf (bitOf m 3 && !busy && (svGet s k).snap.isNone) (startSnap k r x) s
  let s := onlyIf (bitOf m 4) (fun s => { s with sv := { s.sv with pulses := s.sv.pulses ++ [fld s (R.SVR_CFG r) F.SVR_CFG_PSEL] } }) s
  let s := onlyIf (bitOf m 5) (reqProfile k true) s
  onlyIf (bitOf m 6 && !bitOf m 5 && !alerted) (reqProfile k false) s

/-- A result that rises or falls in the present sample. -/
structure Change where
  rule : Nat
  rise : Bool
  v : Word

/-- The actions of one sample's changes, in ascending rule index (R444). -/
def doChanges (k : Nat) (busy : Bool) (x : SvSample) : Bool → List Change → State → State
  | _, [], s => s
  | alerted, c :: rest, s =>
    if c.rise then
      doChanges k busy x (alerted || bitOf (rMask s c.rule) 5) rest (riseActs k c.rule busy alerted c.v x s)
    else
      doChanges k busy x alerted rest
        (onlyIf (bitOf (rMask s c.rule) 7) (sendRec (eventRec s k c.rule true 128 c.v x)) s)

-- ---------------------------------------------------------------- judging (R415 to R417, R430 to R434)

/-- The number a rule sees in a sample: a value, or the vector magnitude; none where it is no number. -/
def chVal (f ch : Nat) (x : SvSample) : Option Rat :=
  let at_ (i : Nat) : Option Rat := match x.vals[i]? with | some w => valOf f w | none => none
  if ch = 4 then
    match at_ 0, at_ 1, at_ 2 with
    | some a, some b, some c => some (magnitude a b c)
    | _, _, _ => none
  else at_ ch

/-- Every element of a list of options. -/
def allSome {α : Type} : List (Option α) → Option (List α)
  | [] => some []
  | none :: _ => none
  | some x :: rest => (allSome rest).map (x :: ·)

/-- A rule's STATE, DCNT and RVAL after the value v; the answer says whether its leaf rose. -/
def judgeRule (r : Nat) (v : Word) (s : State) : State :=
  let q := thr v
  let t1 := thr (reg s (R.SVR_T1 r))
  let t2 := thr (reg s (R.SVR_T2 r))
  let h := thr (reg s (R.SVR_HYS r))
  let res := judgeState (rState s r) (fld s (R.SVR_STAT r) F.SVR_STAT_DCNT) (fld s (R.SVR_CFG r) F.SVR_CFG_DON)
    (fld s (R.SVR_CFG r) F.SVR_CFG_DOFF) (holdsCmp (rCmp s r) q t1 t2) (releasesCmp f64 (rCmp s r) q t1 t2 h)
  setReg (R.SV_RVAL r) v (setFlag (R.SVR_STAT r) F.SVR_STAT_TAINT false
    (setFld (R.SVR_STAT r) F.SVR_STAT_DCNT res.2 (setFld (R.SVR_STAT r) F.SVR_STAT_STATE res.1 s)))

/-- A window with a tainted sample is not judged (R417). -/
def taintRule (r : Nat) (s : State) : State :=
  evt R.SV_EVT F.SV_EVT_TAINT (cnt R.SV_CNT_TAINT (setFlag (R.SVR_STAT r) F.SVR_STAT_TAINT true s))

/-- The value of a rule's window that ends at the newest sample; none where the specification gives none. -/
def windowVal (s : State) (k r : Nat) (hist : List SvSample) : Option Word :=
  let w := rWin s r
  let f := cFmt s k
  let win := (hist.take w).reverse
  let prev := match hist[w]? with | some x => chVal f (rCh s r) x | none => none
  let t (o : Option SvSample) : Int := match o with | some x => (x.ts : Int) | none => 0
  let dt := t win.getLast? - t win.head?
  match allSome (win.map (chVal f (rCh s r))) with
  | some xs => featureOf (rFeat s r) (reg s (R.SVR_PAR r)) prev xs dt
  | none => none

/-- One SEQ rule takes the rises of a sample (R434). Answers progress, t0 and whether R rises. -/
def seqRun (order : List Nat) (rose : Nat → Bool) (inst limit : Nat) : Nat → List (Nat × Nat) → Nat × Nat × Bool → Nat × Nat × Bool
  | _, [], st => st
  | last, (pos, r) :: rest, (j, t0, fired) =>
    if !rose r then seqRun order rose inst limit last rest (j, t0, fired)
    else if pos = j then
      if j = 0 then seqRun order rose inst limit last rest (1, inst, fired)
      else if inst ≤ t0 + limit then
        (if j = last then seqRun order rose inst limit last rest (0, t0, true)
         else seqRun order rose inst limit last rest (j + 1, t0, fired))
      else
        (if order.head? = some r then seqRun order rose inst limit last rest (1, inst, fired)
         else seqRun order rose inst limit last rest (0, t0, fired))
    else seqRun order rose inst limit last rest (j, t0, fired)

/-- The result R of a rule after the leaves of a sample (R433, R434): the new state and the change of R, if any. `own` says
that the rule's own leaf was judged in this sample. -/
def resultOf (k r : Nat) (own : Bool) (rose fell : Nat → Bool) (v : Word) (x : SvSample) (s : State) : State × Option Change :=
  let base := cRbase s k
  let old := rRes s r
  let put (new : Bool) (s : State) : State × Option Change :=
    if new = old then (s, none)
    else (setFlag (R.SVR_STAT r) F.SVR_STAT_RES new s, some { rule := r, rise := new, v := v })
  let parts := (rPartners s r).map (base + ·)
  match rComb s r with
  | 3 =>
    let order := parts ++ [r]
    let st := seqRun order rose x.ts (fld s (R.SVR_ACT r) F.SVR_ACT_SEQT * 1000000) (order.length - 1)
      (order.zipIdx.map (fun (p : Nat × Nat) => (p.2, p.1)))
      (fld s (R.SVR_STAT r) F.SVR_STAT_SEQJ, tabGet (fun _ => 0) s.sv.seqT0 r, false)
    let s := setFld (R.SVR_STAT r) F.SVR_STAT_SEQJ st.1 { s with sv := { s.sv with seqT0 := tabSet (fun _ => 0) s.sv.seqT0 r st.2.1 } }
    if st.2.2 then put true s else if fell r then put false s else (s, none)
  | 1 => if own then put (rLeaf s r && parts.all (rLeaf s)) s else (s, none)
  | 2 => if own then put (rLeaf s r || parts.any (rLeaf s)) s else (s, none)
  | _ => if own then put (rLeaf s r) s else (s, none)

/-- The rules judged in one sample, with their values: results, then actions (R444). -/
def settleRules (k : Nat) (busy : Bool) (judged : List (Nat × Word)) (before : Nat → Bool) (x : SvSample) (s : State) : State :=
  let rose (r : Nat) : Bool := !before r && rLeaf s r
  let fell (r : Nat) : Bool := before r && !rLeaf s r
  let step (acc : State × List Change) (r : Nat) : State × List Change :=
    let own := judged.find? (fun p => p.1 == r)
    let v := match own with | some p => p.2 | none => reg acc.1 (R.SV_RVAL r)
    let res := resultOf k r own.isSome rose fell v x acc.1
    (res.1, acc.2 ++ res.2.toList)
  let out := (rulesOf s k).foldl step (s, [])
  doChanges k busy x false out.2 out.1

/-- One leaf of R444: a rule whose window ends at the newest sample. Answers the state and the value, if it was judged. -/
def judgeLeaf (k r : Nat) (x : SvSample) (s : State) : State × Option Word :=
  let c := svGet s k
  let w := rWin s r
  let win := c.hist.take w
  if !rIn s r (hasFl x.flags flAlert) then (s, none)
  else if rFeat s r = bandFeat then
    -- R428: the window waits for its transforms
    let lo := c.n - w + 1
    (svMod k (fun c => { c with bandWins := c.bandWins ++ [{ rule := r, lo := lo, hi := c.n, epoch := c.epoch, sample := x, taint := win.any (·.taint) }] }) s, none)
  else if win.any (·.taint) then (taintRule r s, none)
  else
    match windowVal s k r c.hist with
    | some v => (judgeRule r v s, some v)
    | none => (judgeRule r (freeFinite s.fresh) { s with fresh := s.fresh + 1 }, some (freeFinite s.fresh))

-- ---------------------------------------------------------------- spectral blocks (R425 to R429)

def hopOf (s : State) (k : Nat) : Nat :=
  match fld s (R.SV_CX_SPCFG k) F.SV_CX_SPCFG_HOP with | 0 => 1024 | 1 => 512 | _ => 256

def spuOf (s : State) (k : Nat) : Nat := b2n (flag s (R.SV_CX_STAT k) F.SV_CX_STAT_SPU)

def spuQueue (s : State) (u : Nat) : List SpBlock := tabGet (fun _ => []) s.sv.spu u

def setSpu (u : Nat) (l : List SpBlock) (s : State) : State :=
  setFld (R.SV_SPU_STAT u) F.SV_SPU_STAT_DEPTH l.length { s with sv := { s.sv with spu := tabSet (fun _ => []) s.sv.spu u l } }

/-- A block ends at the newest sample: it joins its unit's queue, or is dropped (R426, R429). One that a field Deep sleep has taken
samples of is not formed (R671). (DEDUCED, notes/assumptions/38.md.) -/
def blockEnd (k : Nat) (x : SvSample) (s : State) : State :=
  let c := svGet s k
  if flag s (R.SV_CX_SPCFG k) F.SV_CX_SPCFG_EN && decide (c.n ≥ 1024) && (c.n - 1024) % hopOf s k == 0 && (c.hist.take 1024).all (·.pool) then
    let u := spuOf s k
    let win := c.hist.take 1024
    let b : SpBlock := { ctx := k, endN := c.n, epoch := c.epoch, first := match win.getLast? with | some y => y.ts | none => x.ts,
                         seq := x.seq, ts := x.ts, flags := x.flags, taint := win.any (·.taint)
                         vals := (win.map (fun y => y.vals.getD (fld s (R.SV_CX_SPCFG k) F.SV_CX_SPCFG_CH) 0)).reverse }
    if (spuQueue s u).length ≥ 8 then
      evt R.SV_EVT F.SV_EVT_SPDROP (cntFld (R.SV_CX_DROP k) F.SV_CX_DROP_SPDROP 1 (cnt (R.SV_SPU_DROP u) s))
    else setSpu u (spuQueue s u ++ [b]) s
  else s

/-- A rule judged for the sample that is held. -/
def holdJudged (k : Nat) (p : Nat × Word) (s : State) : State :=
  svMod k (fun c => { c with held := c.held.map (fun h => { h with judged := h.judged ++ [p] }) }) s

/-- The BAND windows of a context whose transforms have all completed or been dropped are judged (R428, R429). -/
def judgeBands (k : Nat) : Nat → State → State
  | 0, s => s
  | fuel + 1, s =>
    let c := svGet s k
    let waits (w : BandWin) : Bool := (List.range 2).any (fun u => (spuQueue s u).any (fun b =>
      b.ctx == k && b.epoch == w.epoch && decide (w.lo ≤ b.endN) && decide (b.endN ≤ w.hi)))
    match c.bandWins with
    | [] => s
    | w :: rest =>
      if waits w then s
      else
        let sums := (c.bands.filter (fun b => b.1 == w.rule && decide (w.lo ≤ b.2.1) && decide (b.2.1 ≤ w.hi))).map (fun b => b.2.2)
        let s := svMod k (fun c => { c with bandWins := rest, bands := c.bands.filter (fun b => !(b.1 == w.rule && decide (b.2.1 ≤ w.hi))) }) s
        if w.taint then judgeBands k fuel (taintRule w.rule s)
        else if sums.isEmpty then judgeBands k fuel s
        else
          let v := featBits (divF (sumF sums) (sums.length : Nat))
          judgeBands k fuel (holdJudged k (w.rule, v) (judgeRule w.rule v s))

/-- The held sample of a context settles once every BAND window that ends there has been judged: its results, then its actions (R433,
R444). -/
def svSettle (k : Nat) (s : State) : State :=
  match (svGet s k).held with
  | some h =>
    if (svGet s k).bandWins.isEmpty then
      settleRules k h.busy h.judged h.before.contains h.sample (svMod k (fun c => { c with held := none }) s)
    else s
  | none => s

/-- The powers of a block: binary32, not negative, and free but that they depend on the block alone (R427). -/
def powers (winf f : Nat) (xs : List Word) : List Word :=
  (List.range 513).map (fun i => wordOf (Config.spectralPower winf f xs i % 0x7F800000))

/-- Unit u completes its oldest block (R427 to R429, R500). -/
def transform (u : Nat) (s : State) : State :=
  match spuQueue s u with
  | [] => s
  | b :: rest =>
    let k := b.ctx
    let ps := powers (fld s (R.SV_CX_SPCFG k) F.SV_CX_SPCFG_WINF) (cFmt s k) b.vals
    let s := cnt (R.SV_SPU_CNT u) (setSpu u rest s)
    let c := svGet s k
    let bandRules := (rulesOf s k).filter (fun r => rFeat s r == bandFeat)
    let sumOf (r : Nat) : Rat :=
      let par := (reg s (R.SVR_PAR r)).toNat
      sumF (((ps.drop (bitsOf par 8 0)).take (bitsOf par 24 16 + 1 - bitsOf par 8 0)).map thr)
    let add := if b.epoch = c.epoch then bandRules.map (fun r => (r, b.endN, sumOf r)) else []
    let every := fld s (R.SV_CX_SPCFG k) F.SV_CX_SPCFG_SPEVERY
    let tno := c.tno + 1
    let s := svMod k (fun c => { c with bands := c.bands ++ add, tno := tno }) s
    let spcfg := R.SV_CX_SPCFG k
    let body := leBytes 4 (tno % 2 ^ 16 + fld s spcfg F.SV_CX_SPCFG_WINF * 2 ^ 16 + fld s spcfg F.SV_CX_SPCFG_HOP * 2 ^ 18 +
        fld s spcfg F.SV_CX_SPCFG_CH * 2 ^ 20 + u * 2 ^ 23) ++ leBytes 4 (tNs b.first) ++ leBytes 4 (tSecLo b.first) ++ wordsBytes ps
    let flags := (if b.taint then flCorrupt else 0) + Nat.land b.flags (flHoldover + flAlert)
    let s := onlyIf (every != 0 && tno % (max 1 every) == 0) (sendRec (mkRec (cQ s k) kSpectrum k flags b.seq b.ts body b.ts true)) s
    svMarksNow k (svSettle k (judgeBands k (svGet s k).bandWins.length s))

-- ---------------------------------------------------------------- admission and assignment (R410, R411, R425)

/-- OSR and D of a preset (R250, R251). -/
def osrOf (p : Nat) : Nat := match p with | 0 => 64 | 1 => 256 | 2 => 1024 | 3 => 4096 | _ => 16384
def decOf (p : Nat) : Nat := match p with | 0 => 1 | 1 => 4 | 2 => 16 | 3 => 64 | _ => 256

def slotReg (s : State) (k : Nat) : Word := reg s (R.FT_SLOT (cPort s k / 8) (cSlot s k))
def slotScs (s : State) (k : Nat) : Bool := flag s (R.FT_SLOT (cPort s k / 8) (cSlot s k)) F.FT_SLOT_SCS

/-- The sample rate of a profile, per second, before the doubling (R410). -/
def rateOf (s : State) (k : Nat) (alert : Bool) : Rat :=
  let scs : Rat := if cFen s k && slotScs s k then 1 / 4 else 1
  let n := cPort s k
  if cBit s k then
    let clk : Rat := if flag s (R.FP_BCFG n) F.FP_BCFG_CLKSRC then 1000000000 / (max 1 (fld s (R.FP_CLKMON n) F.FP_CLKMON_PMIN) : Nat)
      else 1000000000 / (max 1 (10 * fld s (R.FP_CLK n) F.FP_CLK_HALF) : Nat)
    clk / (osrOf (cPreset s k alert) : Nat) * scs
  else
    let per : Rat := 1000000000 / (max 1 (cPer s k alert) : Nat)
    if cFen s k then per / (decOf (cPreset s k alert) : Nat) * scs else per

def profilesOf (s : State) (k : Nat) : List Bool := if cHasAlert s k then [false, true] else [false]

/-- The admitted sample rate (R410). -/
def admRate (s : State) (k : Nat) (alert : Bool) : Rat := (if cBit s k then 1 else 2) * rateOf s k alert

/-- The updates a rule costs per sample in a profile (R410). -/
def ruleCost (s : State) (r : Nat) (alert : Bool) : Nat :=
  if !rIn s r alert then 0 else match rFeat s r with | 9 => 0 | 8 => 2 | _ => 1

/-- The admitted load of a context, updates per second, rounded up. -/
def ctxLoad (s : State) (k : Nat) : Nat :=
  maxNat ((profilesOf s k).map (fun a => ((sumNat ((rulesOf s k).map (fun r => ruleCost s r a)) : Nat) * admRate s k a : Rat).ceil.toNat))

/-- The committed transform rate of a context (R425). -/
def ctxRate (s : State) (k : Nat) : Nat :=
  if flag s (R.SV_CX_SPCFG k) F.SV_CX_SPCFG_EN then maxNat ((profilesOf s k).map (fun a => (admRate s k a / (hopOf s k : Nat)).ceil.toNat)) else 0

/-- The context needs an engine (R411). -/
def needsSieve (s : State) (k : Nat) : Bool := cRcnt s k != 0 || flag s (R.SV_CX_SPCFG k) F.SV_CX_SPCFG_EN

def engState (s : State) (e : Nat) : Nat := fld s (R.SV_ENG_STAT e) F.SV_ENG_STAT_STATE
def engLoad (s : State) (e : Nat) : Nat := (reg s (R.SV_ENG_LOAD e)).toNat

/-- The index with the smallest key, the lowest on a tie. -/
def argMin (f : Nat → Nat) : List Nat → Option Nat
  | [] => none
  | x :: rest =>
    match argMin f rest with
    | none => some x
    | some y => if f y < f x then some y else some x

/-- A context leaves its engine and unit; `load` and `rate` are what it had committed. -/
def svRelease (k load rate : Nat) (s : State) : State :=
  if !flag s (R.SV_CX_STAT k) F.SV_CX_STAT_ASSIGNED then s
  else
    let e := fld s (R.SV_CX_STAT k) F.SV_CX_STAT_ENG
    let u := spuOf s k
    let s := setReg (R.SV_ENG_LOAD e) (wordOf (engLoad s e - load)) s
    let s := setFld (R.SV_ENG_STAT e) F.SV_ENG_STAT_CTXS (fld s (R.SV_ENG_STAT e) F.SV_ENG_STAT_CTXS - 1) s
    let s := setFld (R.SV_SPU_STAT u) F.SV_SPU_STAT_RATE (fld s (R.SV_SPU_STAT u) F.SV_SPU_STAT_RATE - rate) s
    setFlag (R.SV_CX_STAT k) F.SV_CX_STAT_ASSIGNED false s

/-- A context is assigned to an engine and a unit; none where no engine or unit can take it (R411, R425). -/
def svAssign (k : Nat) (s : State) : Option State :=
  let load := ctxLoad s k
  let rate := ctxRate s k
  match argMin (engLoad s) ((List.range 17).filter (fun e => engState s e == 0)) with
  | none => none
  | some e =>
    let u := if fld s (R.SV_SPU_STAT 1) F.SV_SPU_STAT_RATE < fld s (R.SV_SPU_STAT 0) F.SV_SPU_STAT_RATE then 1 else 0
    if engLoad s e + load > 25000000 then none
    else if rate > 0 && decide (fld s (R.SV_SPU_STAT u) F.SV_SPU_STAT_RATE + rate > 32000) then none
    else
      let s := setReg (R.SV_ENG_LOAD e) (wordOf (engLoad s e + load)) s
      let s := setFld (R.SV_ENG_STAT e) F.SV_ENG_STAT_CTXS (fld s (R.SV_ENG_STAT e) F.SV_ENG_STAT_CTXS + 1) s
      let s := setFld (R.SV_SPU_STAT u) F.SV_SPU_STAT_RATE (fld s (R.SV_SPU_STAT u) F.SV_SPU_STAT_RATE + rate) s
      let s := setFld (R.SV_CX_STAT k) F.SV_CX_STAT_ENG e (setFlag (R.SV_CX_STAT k) F.SV_CX_STAT_ASSIGNED true s)
      some (setFlag (R.SV_CX_STAT k) F.SV_CX_STAT_SPU (rate > 0 && u == 1) s)

/-- No spare engine is available (R449). -/
def noSpare (s : State) : Bool := engState s 16 != 1

/-- Engine e retires and the spare takes its contexts (R448). -/
def engRetireTo16 (e : Nat) (s : State) : State :=
  let s := setFld (R.SV_ENG_STAT e) F.SV_ENG_STAT_STATE 2 s
  let s := setFld (R.SV_ENG_STAT 16) F.SV_ENG_STAT_TOOK e (setFld (R.SV_ENG_STAT 16) F.SV_ENG_STAT_STATE 0 s)
  let s := setFld (R.SV_ENG_STAT 16) F.SV_ENG_STAT_CTXS (fld s (R.SV_ENG_STAT e) F.SV_ENG_STAT_CTXS) s
  let s := setReg (R.SV_ENG_LOAD 16) (reg s (R.SV_ENG_LOAD e)) s
  let s := setReg (R.SV_ENG_LOAD e) 0 (setFld (R.SV_ENG_STAT e) F.SV_ENG_STAT_CTXS 0 s)
  let act := fld s R.SV_STAT F.SV_STAT_ACTIVE
  let act := (if bitOf act e then act - 2 ^ e else act) + (if bitOf act 16 then 0 else 2 ^ 16)
  let s := setFlag R.SV_STAT F.SV_STAT_SPAREUSED true (setFld R.SV_STAT F.SV_STAT_ACTIVE act s)
  let s := eachOf ((List.range 512).filter (fun k => flag s (R.SV_CX_STAT k) F.SV_CX_STAT_ASSIGNED && fld s (R.SV_CX_STAT k) F.SV_CX_STAT_ENG == e))
    (fun k s => setFld (R.SV_CX_STAT k) F.SV_CX_STAT_ENG 16 s) s
  evt R.SV_EVT F.SV_EVT_RETIRE s

/-- Engine 16 fails while it is the spare (R449). -/
def spareRetire (s : State) : State :=
  evt R.SV_EVT F.SV_EVT_RETIRE (setFld (R.SV_ENG_STAT 16) F.SV_ENG_STAT_STATE 2 s)

/-- A waiting rule-set change takes effect: the new words, the engine chosen anew, and the states of R421 (R411, R446). -/
def ruleSetApply (k : Nat) (s : State) : State :=
  match (svGet s k).ruleSet with
  | none => s
  | some ws =>
    let s := svRelease k (ctxLoad s k) (ctxRate s k) (svMod k (fun c => { c with ruleSet := none, ruleDue := false }) s)
    let s := eachOf ws (fun (w : Nat × Word) s => setReg w.1 w.2 s) s
    let s := if needsSieve s k then (svAssign k s).getD s else s
    svMark k .clear s

-- ---------------------------------------------------------------- one sample (R444)

/-- How many samples Sieve keeps for a context. -/
def keepOf (s : State) (k : Nat) : Nat :=
  maxNat ((rulesOf s k).map (fun r => rWin s r + 1) ++ [1024] ++ [if snRingl s k = 0 then 0 else 2 ^ (snRingl s k + 1)])

/-- A snapshot that has its last sample is written (R441). -/
def snapDone (k : Nat) (s : State) : State :=
  match (svGet s k).snap with
  | some p => if p.want ≤ p.post.length then writeSnap k p s else s
  | none => s

/-- A sample is processed by the context's engine; a snapshot that the sample before it completed is written by then (R441, R443). -/
def svProcess (k : Nat) (x : SvSample) (s : State) : State :=
  let s := snapDone k s
  let busy := (svGet s k).snap.isSome
  let keep := keepOf s k
  let s := svMod k (fun c => { c with hist := (x :: c.hist).take keep, n := c.n + 1
                                      snap := c.snap.map (fun p => { p with post := p.post ++ [x] }) }) s
  let s := cnt (R.SV_ENG_CNT (fld s (R.SV_CX_STAT k) F.SV_CX_STAT_ENG)) s
  let s := blockEnd k x s
  let n := (svGet s k).n
  let before := (rulesOf s k).filter (rLeaf s)
  let ends := (rulesOf s k).filter (fun r => rWin s r != 0 && n % rWin s r == 0)
  let step (acc : State × List (Nat × Word)) (r : Nat) : State × List (Nat × Word) :=
    let res := judgeLeaf k r x acc.1
    (res.1, acc.2 ++ (match res.2 with | some v => [(r, v)] | none => []))
  let out := ends.foldl step (s, [])
  -- R446: a changed rule set applies from the next sample
  let atEnd := match rulesOf s k with | [] => true | r :: _ => rWin s r == 0 || n % rWin s r == 0
  let s := svMod k (fun c => { c with held := some { sample := x, busy := busy, judged := out.2, before := before }
                                      ruleDue := c.ruleDue || (atEnd && c.ruleSet.isSome) }) out.1
  svSettle k (judgeBands k (svGet s k).bandWins.length s)

/-- A rule-set change whose window has ended takes effect, once every judgement at that sample has been performed (R446). -/
def ruleSetDue (k : Nat) (s : State) : State := if (svGet s k).ruleDue && (svGet s k).held.isNone then ruleSetApply k s else s

/-- A double-bit error in the Sieve state of a context (R422). -/
def svDbe (k : Nat) (s : State) : State :=
  svRestartNow k (rulesClear k (evt R.SV_EVT F.SV_EVT_DBE (cnt R.SV_CNT_DBE s)))

/-- Sieve takes the next waiting sample of a context (R413, R416, R444), unless the one before it still waits for its BAND windows. -/
def svTake (k : Nat) (copyOk dbe : Bool) (s : State) : State :=
  if (svGet s k).held.isSome then s else
  match (svGet s k).waiting with
  | .smp x :: rest =>
    let s := onlyIf dbe (svDbe k) (svMod k (fun c => { c with waiting := rest }) (ruleSetDue k s))
    let s := onlyIf (!copyOk && !x.taint) (ckFail (if cFen s k then 2 else 1)) s
    svMarksNow k (svProcess k { x with taint := x.taint || !copyOk } s)
  | _ => s

/-- A context's sample is handed to Sieve, where Sieve sees it (R411, R413, R418); a change that gives a context its first rules
takes effect at the sample (R446). -/
def svFeed (k : Nat) (x : SvSample) (s : State) : State :=
  if !flag s (R.SV_CX_STAT k) F.SV_CX_STAT_ASSIGNED then ruleSetApply k s
  else if hasFl x.flags flQuar then svPut k .restart s
  else svMod k (fun c => { c with waiting := c.waiting ++ [.smp x] }) s

-- ---------------------------------------------------------------- the check of a rule set (R423 to R435, R440)

/-- A binary32 word is finite. -/
def finite32 (w : Word) : Bool := bitsOf w.toNat 30 23 != 255

/-- Rule r of context k breaks a condition of R423 to R435 or R440; `vals` is the number of values of a sample. T2, which ABOVE and BELOW
ignore, is judged with INSIDE and OUTSIDE alone. (DEDUCED, notes/assumptions/62.md.) -/
def ruleBad (s : State) (k r vals : Nat) : Bool :=
  let par := (reg s (R.SVR_PAR r)).toNat
  let feat := rFeat s r
  let win := rWin s r
  let ch := rCh s r
  let off := r - cRbase s k
  let t1 := reg s (R.SVR_T1 r)
  let t2 := reg s (R.SVR_T2 r)
  let h := reg s (R.SVR_HYS r)
  let parts := rPartners s r
  decide (feat > 9) ||
  (feat == 8 && (par % 2 ^ 24 == 0 || decide (par > 8388608))) ||
  (feat == 9 && (bitsOf par 31 25 != 0 || bitsOf par 15 9 != 0 || decide (win < 1024) || decide (bitsOf par 8 0 > bitsOf par 24 16) || decide (bitsOf par 24 16 > 512))) ||
  (decide (feat < 7) && par != 0) ||
  decide (win < 16) || decide (win > 65536) ||
  (if ch = 4 then decide (vals < 3) else decide (ch ≥ vals)) ||
  !finite32 t1 || (decide (rCmp s r ≥ 2) && !finite32 t2) || !finite32 h || decide (thr h < 0) ||
  (decide (rCmp s r ≥ 2) && decide (thr t2 < thr t1)) ||
  (rCmp s r == 3 && decide (thr t2 - thr t1 < 2 * thr h)) ||
  fld s (R.SVR_CFG r) F.SVR_CFG_DON == 0 || fld s (R.SVR_CFG r) F.SVR_CFG_DOFF == 0 ||
  parts.any (fun p => decide (p ≥ cRcnt s k) || p == off) ||
  (if rComb s r = 0 then !parts.isEmpty else parts.isEmpty) ||
  (rComb s r == 3 && fld s (R.SVR_ACT r) F.SVR_ACT_SEQT == 0) ||
  decide (fld s (R.SVR_CFG r) F.SVR_CFG_PSEL > 4) ||
  (bitOf (rMask s r) 3 && (snRingl s k == 0 || decide (snPre s k + snPost s k > 2 ^ (snRingl s k + 1))))

/-- A context's rule set is refused with RANGE (R423 to R435, R424). -/
def ruleSetBad (s : State) (k vals : Nat) : Bool :=
  let rs := rulesOf s k
  rs.any (fun r => ruleBad s k r vals) ||
  decide (countP' (fun r => rFeat s r == 8) rs > 4) || decide (countP' (fun r => rFeat s r == 9) rs > 8)

end Sys2Proof.Machine
end

