-- ==== Sys2Proof/Machine/Filter.lean ====
section
/-! DEFINITION. The filter and decimation chain: slots, windows, output values and instants, marking, restarts and banks
(R244 to R295). -/

namespace Sys2Proof.Machine

/-- The index of slot s of tile t. -/
def slotIx (t f : Nat) : Nat := 16 * t + f

def slBound (s : State) (t f : Nat) : Bool := flag s (R.FT_SLOT_BIND t f) F.FT_SLOT_BIND_BOUND
def slCtx (s : State) (t f : Nat) : Nat := fld s (R.FT_SLOT_BIND t f) F.FT_SLOT_BIND_CTX
def slBit (s : State) (t f : Nat) : Bool := flag s (R.FT_SLOT_BIND t f) F.FT_SLOT_BIND_BIT
def slPreset (s : State) (t f : Nat) : Nat := fld s (R.FT_SLOT_BIND t f) F.FT_SLOT_BIND_PRESET
def slSkew (s : State) (t f : Nat) : Nat := fld s (R.FT_SLOT_BIND t f) F.FT_SLOT_BIND_SKEW
def slAlign (s : State) (t f : Nat) : Bool := flag s (R.FT_SLOT t f) F.FT_SLOT_ALIGN
def slCoef (s : State) (t f : Nat) : Bool := flag s (R.FT_SLOT t f) F.FT_SLOT_COEF

/-- The first slot of the context a slot serves: its SCS and DELIVUNS govern (R275). -/
def slHead (s : State) (t f : Nat) : Nat := if slBound s t f then cSlot s (slCtx s t f) else f
def slScs (s : State) (t f : Nat) : Bool := flag s (R.FT_SLOT t (slHead s t f)) F.FT_SLOT_SCS
def slDeliv (s : State) (t f : Nat) : Bool := flag s (R.FT_SLOT t (slHead s t f)) F.FT_SLOT_DELIVUNS

-- ---------------------------------------------------------------- the figures of R254 and R255

def bitN (p : Nat) : Nat := match p with | 0 => 7 | 1 => 50 | 2 => 54 | 3 => 57 | _ => 58
def bitU (p : Nat) : Nat := match p with | 0 => 2 | 1 => 48 | 2 => 53 | 3 => 56 | _ => 57
def wordN (p : Nat) : Nat := match p with | 0 => 1 | 1 => 49 | 2 => 56 | 3 => 57 | _ => 58
def wordU (p : Nat) : Nat := match p with | 0 => 0 | 1 => 48 | 2 => 55 | 3 => 56 | _ => 57
def bitG (p : Nat) : Rat := match p with | 0 => 189 / 2 | 1 => 6270 | 2 => 54651 / 2 | 3 => 231291 / 2 | _ => 937851 / 2
def wordG (p : Nat) : Nat := match p with | 0 => 0 | 1 => 96 | 2 => 441 | 3 => 1821 | _ => 7341

/-- The units of one output: OSR or D, four of them with SCS (R260). -/
def slStep (s : State) (t f : Nat) : Nat :=
  let p := slPreset s t f
  (if slBit s t f then osrOf p else decOf p) * (if slScs s t f then 4 else 1)

def slN (s : State) (t f : Nat) : Nat :=
  if slScs s t f then 1
  else (if slBit s t f then bitN (slPreset s t f) else wordN (slPreset s t f)) + (if slAlign s t f then 24 else 0)

def slU (s : State) (t f : Nat) : Nat :=
  if slScs s t f then 0
  else (if slBit s t f then bitU (slPreset s t f) else wordU (slPreset s t f)) + (if slAlign s t f then 12 else 0)

/-- The group delay in units. -/
def slG (s : State) (t f : Nat) : Rat :=
  let p := slPreset s t f
  if slScs s t f then ((2 * (if slBit s t f then osrOf p else decOf p) - 2 : Nat) : Rat)
  else if slBit s t f then bitG p else ((wordG p : Nat) : Rat)

/-- k_s as it acts: zero with SCS and on a word slot (R272). -/
def slK (s : State) (t f : Nat) : Nat := if slScs s t f || !slBit s t f then 0 else slSkew s t f

/-- Twice the modulator period T of a port in ns (R272). -/
def twiceT (s : State) (n : Nat) : Nat :=
  if flag s (R.FP_BCFG n) F.FP_BCFG_CLKSRC then fld s (R.FP_CLKMON n) F.FP_CLKMON_PMIN + fld s (R.FP_CLKMON n) F.FP_CLKMON_PMAX
  else 20 * fld s (R.FP_CLK n) F.FP_CLK_HALF

/-- k_s = round(s × 50 ns ÷ T), halves rounded down (R272). -/
def skewOf (s : State) (n f : Nat) : Nat := ceilDiv (2 * (100 * f) - twiceT s n) (2 * twiceT s n)

-- ---------------------------------------------------------------- banks (R285 to R289)

/-- The two banks of a tile exchange (R286). -/
def swapBanks (t : Nat) (s : State) : State :=
  eachOf (List.range 97) (fun i s =>
    let a := reg s (R.FT_FLT_ACOEF t i)
    let b := reg s (R.FT_FLT_COEF t i)
    setReg (R.FT_FLT_ACOEF t i) b (setReg (R.FT_FLT_COEF t i) a s)) s

/-- A swap completes once every slot with COEF = 1 has changed (R285). -/
def swapCheck (t : Nat) (s : State) : State :=
  if flag s (R.FT_FLT_BANK t) F.FT_FLT_BANK_SWAP && (List.range 16).all (fun f => !(filtGet s (slotIx t f)).swapDue) then
    let s := swapBanks t s
    let s := setFld (R.FT_FLT_BANK t) F.FT_FLT_BANK_ACTIVE (1 - fld s (R.FT_FLT_BANK t) F.FT_FLT_BANK_ACTIVE) s
    evt (R.FT_FLT_EVT t) F.FT_FLT_EVT_SWAPDONE (setFlag (R.FT_FLT_BANK t) F.FT_FLT_BANK_SWAP false s)
  else s

/-- A slot changes to the other bank (R285). -/
def slSwap (t f : Nat) (s : State) : State :=
  let s := filtMod (slotIx t f) (fun x => { x with swapDue := false }) s
  setFld (R.FT_SLOT_STAT t f) F.FT_SLOT_STAT_BANK (1 - fld s (R.FT_SLOT_STAT t f) F.FT_SLOT_STAT_BANK) s

/-- A swap is requested (R285). -/
def swapRequest (t : Nat) (s : State) : State :=
  if flag s (R.FT_FLT_BANK t) F.FT_FLT_BANK_SWAP then s
  else
    let s := setFlag (R.FT_FLT_BANK t) F.FT_FLT_BANK_SWAP true s
    let s := eachOf (List.range 16) (fun f s =>
      if slBound s t f && slCoef s t f then filtMod (slotIx t f) (fun x => { x with swapDue := true }) s
      else setFld (R.FT_SLOT_STAT t f) F.FT_SLOT_STAT_BANK (1 - fld s (R.FT_SLOT_STAT t f) F.FT_SLOT_STAT_BANK) s) s
    swapCheck t s

-- ---------------------------------------------------------------- binding and restarts

/-- A restart of a slot (R280, R281). -/
def slRestart (t f : Nat) (s : State) : State :=
  let s := filtMod (slotIx t f) (fun x => { x with words := [], blocks := [], count := 0, outs := 0, marks := [], ready := [] }) s
  setFld (R.FT_SLOT_STAT t f) F.FT_SLOT_STAT_MARKING 0 (setFld (R.FT_SLOT_STAT t f) F.FT_SLOT_STAT_UNS (slU s t f) s)

/-- The slots a context uses, with their tile (R194). -/
def ctxSlots (s : State) (k : Nat) : List (Nat × Nat) :=
  if cFen s k then (List.range (cVals s k)).map (fun i => (cPort s k / 8, cSlot s k + i)) else []

/-- BOUND of FTt_FLT_STAT follows the slots (R292). -/
def setBound (t f : Nat) (b : Bool) (s : State) : State :=
  let v := fld s (R.FT_FLT_STAT t) F.FT_FLT_STAT_BOUND
  let v := if bitOf v f then v - 2 ^ f else v
  setFld (R.FT_FLT_STAT t) F.FT_FLT_STAT_BOUND (v + (if b then 2 ^ f else 0)) s

/-- FTt_FLT_SLOTs_BIND of a slot that serves context k under the entry that `s` holds (R272, R291). -/
def bindWord (s : State) (k f : Nat) : Word :=
  let bit := cBit s k
  wordOf (b2n true * 2 ^ 31 + b2n bit * 2 ^ 30 + cPreset s k (cAlert s k) * 2 ^ 26 + k * 2 ^ 16 + (if bit then skewOf s (cPort s k) f else 0) % 32)

/-- A slot takes a binding and restarts. -/
def slTake (t f : Nat) (w : Word) (s : State) : State := slRestart t f (setBound t f true (setReg (R.FT_SLOT_BIND t f) w s))

/-- A slot is bound to a context (R245, R272). -/
def slBind (k t f : Nat) (s : State) : State := slTake t f (bindWord s k f) s

/-- A slot is released; a bank swap no longer waits for it (R285). (DEDUCED, notes/assumptions/47.md.) -/
def slUnbind (t f : Nat) (s : State) : State :=
  let s := filtMod (slotIx t f) (fun x => { x with words := [], blocks := [], count := 0, outs := 0, marks := [], ready := [] }) s
  let s := setFlag (R.FT_SLOT_STAT t f) F.FT_SLOT_STAT_RUN false (setBound t f false (setReg (R.FT_SLOT_BIND t f) 0 s))
  if (filtGet s (slotIx t f)).swapDue then swapCheck t (slSwap t f s) else s

/-- A context's slots run or stop. -/
def slRun (k : Nat) (b : Bool) (s : State) : State :=
  eachOf (ctxSlots s k) (fun p s => setFlag (R.FT_SLOT_STAT p.1 p.2) F.FT_SLOT_STAT_RUN b s) s

/-- All slots of a context restart (R280). (DEDUCED, notes/assumptions/49.md.) (DEDUCED, notes/assumptions/53.md.) -/
def ctxRestart (k : Nat) (s : State) : State := eachOf (ctxSlots s k) (fun p s => slRestart p.1 p.2 s) s

/-- The slots take the preset of a profile. -/
def ctxPreset (k : Nat) (s : State) : State :=
  eachOf (ctxSlots s k) (fun p s => setFld (R.FT_SLOT_BIND p.1 p.2) F.FT_SLOT_BIND_PRESET (cPreset s k (cAlert s k)) s) s

-- ---------------------------------------------------------------- inputs and marking (R265, R266)

/-- The first output whose computation includes unit u, both counted from 1 (R265). For a bitstream slot a unit is a block. -/
def firstOut (s : State) (t f u : Nat) : Nat :=
  let st := slStep s t f
  let j := if slBit s t f then ceilDiv (256 * (u - 1) + 1 - slK s t f) st else ceilDiv u st
  max 1 (if slAlign s t f then j - 12 else j)

/-- A tagged unit marks N outputs from the first that includes it (R265). -/
def tagUnit (t f u : Nat) (s : State) : State :=
  let j := max (firstOut s t f u) ((filtGet s (slotIx t f)).outs + 1)
  setFld (R.FT_SLOT_STAT t f) F.FT_SLOT_STAT_MARKING 1
    (filtMod (slotIx t f) (fun x => { x with marks := x.marks ++ [(j, j + slN s t f - 1)] }) s)

/-- How many inputs a slot keeps: enough for the longest window and the centre input. -/
def keepWords : Nat := 16384
def keepBlocks : Nat := 5300

/-- A STORE value enters a word slot; `marked` where the port marked it, `ckp` where its CRC8 failed (R265, R271). -/
def wordInput (t f : Nat) (x : WordIn) (marked ckp : Bool) (s : State) : State :=
  let s := filtMod (slotIx t f) (fun u => { u with words := (x :: u.words).take keepWords, count := u.count + 1 }) s
  let s := onlyIf marked (evt (R.FT_FLT_EVT t) F.FT_FLT_EVT_MARKIN) s
  onlyIf (marked || ckp) (tagUnit t f (filtGet s (slotIx t f)).count) s

/-- A block enters a bitstream slot (R247). -/
def blockInput (t f : Nat) (x : BlockIn) (marked : Bool) (s : State) : State :=
  let s := filtMod (slotIx t f) (fun u => { u with blocks := (x :: u.blocks).take keepBlocks, count := u.count + 1 }) s
  let s := onlyIf marked (evt (R.FT_FLT_EVT t) F.FT_FLT_EVT_MARKIN) s
  onlyIf marked (tagUnit t f (filtGet s (slotIx t f)).count) s

-- ---------------------------------------------------------------- output values (R250 to R252, R260, R270)

/-- The running sums of the last m elements: one sinc stage's weights from another's. -/
def boxConv (m : Nat) (l : List Nat) : List Nat :=
  let n := l.length + m - 1
  let pre := (l ++ List.replicate (m - 1) 0).foldl (fun (acc : List Nat × Nat) x => ((acc.2 + x) :: acc.1, acc.2 + x)) (([] : List Nat), 0)
  let sums := pre.1.reverse
  (List.range n).map (fun i => sums.getD i 0 - (if i < m then 0 else sums.getD (i - m) 0))

/-- The weights of sinc^e over boxes of m units, oldest first. -/
def sincW (m : Nat) : Nat → List Nat
  | 0 => [1]
  | e + 1 => boxConv m (sincW m e)

/-- Input u (from 1) of a word slot, zero before the restart. -/
def wordAt (x : FiltS) (u : Int) : Int :=
  if u < 1 then 0 else match x.words[x.count - u.toNat]? with | some w => w.val | none => 0

/-- Sampling edge e (from 1) of a bitstream slot as 0 or 1, zero before the restart. -/
def edgeAt (x : FiltS) (e : Int) : Int :=
  if e < 1 then 0
  else
    let b := (e.toNat - 1) / 256 + 1
    match x.blocks[x.count - b]? with
    | some w => if w.bits.getLsbD ((e.toNat - 1) % 256) then 1 else 0
    | none => 0

/-- Σ of weights times values at positions counted back from the last. -/
def weighted (ws : List Nat) (val : Nat → Int) : Int := ws.zipIdx.foldl (fun a (p : Nat × Nat) => a + (p.1 : Int) * val p.2) 0

/-- The 193 taps in use by a slot, Q2.30 (R284). -/
def slTaps (s : State) (t f : Nat) : List Int :=
  let act := fld s (R.FT_SLOT_STAT t f) F.FT_SLOT_STAT_BANK == fld s (R.FT_FLT_BANK t) F.FT_FLT_BANK_ACTIVE
  let w (i : Nat) : Int := (reg s (if act then R.FT_FLT_ACOEF t i else R.FT_FLT_COEF t i)).toInt
  (List.range 193).map (fun i => w (min i (192 - i)))

/-- The value of one FIR stage at unit e, from that of the stage before it, whose outputs lie m units apart. -/
def firAt (taps : List Rat) (m : Nat) (x : Int → Rat) (e : Int) : Rat :=
  taps.zipIdx.foldl (fun a (p : Rat × Nat) => a + p.1 * x (e - (m * p.2 : Nat))) 0

/-- The n taps of a symmetric stage with unit gain at DC: the taps left of the centre are given, and the centre makes up the sum
(R252, R270). -/
def symTaps (n : Nat) (w : Nat → Rat) : List Rat :=
  let half := (n - 1) / 2
  let sum := (List.range half).foldl (fun a i => a + w i) 0
  (List.range n).map (fun i => if i = half then 1 - 2 * sum else w (min i (n - 1 - i)))

/-- The half-band stages of a chain (R250, R251). -/
def halfBands (bit : Bool) (p : Nat) : Nat := if bit then (match p with | 2 => 1 | 3 => 3 | 4 => 5 | _ => 0) else 2 * (p - 1)

/-- The decimation of the CIC front end of a bitstream chain, and its order (R250). -/
def cicM (p : Nat) : Nat := if p ≤ 1 then 64 else 128
def cicOrd (p : Nat) : Nat := match p with | 0 => 3 | 1 => 4 | _ => 5

/-- The value at unit e of the first stage of a slot's chain: the density of its CIC, or the input itself (R250, R251). -/
def frontAt (s : State) (t f : Nat) (e : Int) : Rat :=
  let x := filtGet s (slotIx t f)
  let p := slPreset s t f
  if slBit s t f then
    (weighted (sincW (cicM p) (cicOrd p)) (fun i => edgeAt x (e - i)) : Int) / ((cicM p ^ cicOrd p : Nat) : Rat)
  else (wordAt x e : Int)

/-- The FIR stage's taps: the slot's custom bank with COEF = 1, the built-in ones otherwise (R252, R284). SWIFT has no FIR stage. -/
def firTaps (s : State) (t f : Nat) : List Rat :=
  let p := slPreset s t f
  if slCoef s t f then (slTaps s t f).map (fun (v : Int) => (v : Rat) / ((2 ^ 30 : Nat) : Rat))
  else symTaps 193 (Config.builtinTap (p + (if slBit s t f then 5 else 0)) (halfBands (slBit s t f) p))

/-- The half-band stages from stage i on, over a value whose outputs lie m units apart; answers the last and its spacing. -/
def bandsAt (chain : Nat) : Nat → Nat → Nat → (Int → Rat) → (Int → Rat) × Nat
  | 0, _, m, x => (x, m)
  | k + 1, i, m, x => bandsAt chain k (i + 1) (2 * m) (firAt (symTaps 39 (Config.builtinTap chain i)) m x)

/-- The chain's output whose window ends at unit e: a density or a value (R250 to R252, R260). -/
def chainValue (s : State) (t f : Nat) (e : Int) : Rat :=
  let x := filtGet s (slotIx t f)
  let p := slPreset s t f
  let bit := slBit s t f
  if slScs s t f then
    if bit then (weighted (sincW (osrOf p) 4) (fun i => edgeAt x (e - i)) : Int) / ((osrOf p ^ 4 : Nat) : Rat)
    else (weighted (sincW (decOf p) 4) (fun i => wordAt x (e - i)) : Int) / ((decOf p ^ 4 : Nat) : Rat)
  else if p = 0 then frontAt s t f e
  else
    let r := bandsAt (p + (if bit then 5 else 0)) (halfBands bit p) 0 (if bit then cicM p else 1) (frontAt s t f)
    firAt (firTaps s t f) r.2 r.1 e

/-- f of R276 in 1/65,536 of an output period: k_s ÷ OSR, which that unit divides exactly. -/
def alignFrac (s : State) (t f : Nat) : Nat := slK s t f * 65536 / osrOf (slPreset s t f)

/-- The value of the output whose last unit is e: with ALIGN, of the 25 chain outputs up to the one that ends at e (R276). -/
def slotValue (s : State) (t f e : Nat) : Rat :=
  if slAlign s t f && slBit s t f then
    (List.range 25).foldl (fun a i => a + Config.alignTap (alignFrac s t f) i * chainValue s t f ((e : Int) - (i * slStep s t f : Nat))) 0
  else chainValue s t f e

/-- The output value before saturation (R270). -/
def scaled (bit : Bool) (oshift : Nat) (v : Rat) : Int :=
  if bit then roundEven ((2 * v - 1) * ((2 ^ (23 + oshift) : Nat) : Rat)) else roundEven (v * ((2 ^ oshift : Nat) : Rat))

/-- The value of an output, rounded and saturated, and whether it saturated (R270). -/
def outValue (s : State) (t f e : Nat) : Int × Bool :=
  let r := scaled (slBit s t f) (fld s (R.FT_SLOT t f) F.FT_SLOT_OSHIFT) (slotValue s t f e)
  (clampW 32 r, clampW 32 r != r)

/-- CK-F of an output: the CRC-16 over its value, its slot and its instant (R43, R269). -/
def ckfOf (val : Int) (f ts : Nat) : Nat :=
  crc16 (bytesBits (wordBytes (BitVec.ofInt 32 val) ++ leBytes 1 f ++ leBytes 4 (tNs ts) ++ leBytes 4 (tSecLo ts)))

-- ---------------------------------------------------------------- instants (R273, R274, R276, R326)

/-- A stamp with every later step added, for the mean period (R326). -/
def blockMean (b : BlockIn) : Rat := (b.ts : Nat) + ((b.steps.foldl (fun a (x : Nat × Int) => a + x.2) 0 : Int) : Rat)

/-- The mean sampling period at a block: over 16 blocks, over those that exist, or T (R273). `l` starts with the block. -/
def meanPeriod (half : Rat) (count : Nat) (l : List BlockIn) : Rat :=
  match l with
  | [] => half
  | b :: _ =>
    let m := min 16 (count - 1)
    if m = 0 then half
    else match l[m]? with
      | some c => (blockMean b - blockMean c) / ((256 * m : Nat) : Rat)
      | none => half

/-- The instant of a bitstream output whose window ends at edge e, and whether its stamp was taken in holdover (R273, R320). -/
def bitInstant (s : State) (t f e : Nat) : Nat × Bool :=
  let x := filtGet s (slotIx t f)
  let b := (e - 1) / 256 + 1
  let l := x.blocks.drop (x.count - b)
  match l with
  | [] => (fieldNs s, false)
  | blk :: _ =>
    let period := meanPeriod ((twiceT s (cPort s (slCtx s t f)) : Nat) / 2) b l
    let raw : Rat := (blk.ts : Nat) + ((e - 1) % 256 : Nat) * period
    let at_ : Rat := blk.steps.foldl (fun a (st : Nat × Int) => if (st.1 : Rat) ≤ a then a + (st.2 : Int) else a) raw
    ((roundEven (at_ - slG s t f * period)).toNat, blk.hold)

/-- The instant, number and flags of a word output whose last input is e (R274). An extrapolated instant takes none of the first input's
flags, but its record carries HOLDOVER as R320 says of the stamp it is derived from. (DEDUCED, notes/assumptions/62.md.) -/
def wordInstant (s : State) (t f e : Nat) : Nat × Nat × Nat :=
  let x := filtGet s (slotIx t f)
  let g := (slG s t f).floor.toNat
  if e > g then
    match x.words[x.count - (e - g)]? with
    | some w => (w.ts, w.tn, w.flags)
    | none => (fieldNs s, 0, 0)
  else
    let m := g + 1 - e
    match x.words.getLast? with
    | some w =>
      let k := slCtx s t f
      (w.ts - m * cPer s k (cAlert s k), (w.tn + 2 ^ 16 - m % 2 ^ 16) % 2 ^ 16, Nat.land w.flags flHoldover)
    | none => (fieldNs s, 0, 0)

/-- The last unit that output j needs: with ALIGN, of chain output j + 12 (R276). -/
def needUnit (s : State) (t f j : Nat) : Nat := (if slAlign s t f then j + 12 else j) * slStep s t f + slK s t f

/-- The last unit of the window whose instant output j reports: its own, or with ALIGN the reference window, as though k_s were 0
(R273, R276, R279). -/
def ownUnit (s : State) (t f j : Nat) : Nat := j * slStep s t f + (if slAlign s t f then 0 else slK s t f)

/-- The units that have arrived: sampling edges or samples. -/
def haveUnits (s : State) (t f : Nat) : Nat :=
  let c := (filtGet s (slotIx t f)).count
  if slBit s t f then 256 * c else c

-- ---------------------------------------------------------------- one output (R249)

/-- What the checks of a slot find before its next output leaves: each input unit that fails CK-A counts, and tags the output's last unit
(R264 to R266); errors of the delay line count, and a double-bit error marks the N outputs from this one (R263, R267). (DEDUCED,
notes/assumptions/49.md.) -/
def slChecks (t f unit : Nat) (err : FiltErr) (s : State) : State :=
  let s := onlyIf (err.cka != 0)
    (fun s => tagUnit t f unit (evt (R.FT_FLT_EVT t) F.FT_FLT_EVT_CKA (cntAdd (R.FT_FLT_CNT_CKA t) err.cka (hubCount 1 err.cka s)))) s
  let s := onlyIf (err.sbe != 0) (fun s => evt (R.FT_FLT_EVT t) F.FT_FLT_EVT_SBE (cntAdd (R.FT_FLT_CNT_SBE t) err.sbe s)) s
  onlyIf err.dbe (fun s => tagUnit t f unit (evt (R.FT_FLT_EVT t) F.FT_FLT_EVT_DBE (cnt (R.FT_FLT_CNT_DBE t) s))) s

/-- The CK-F that reaches the record builder: the output's own, or another where it was struck on the way. -/
def ckfSent (err : FiltErr) (val : Int) (f ts : Nat) : Nat := (ckfOf val f ts + b2n err.ckf) % 65536

/-- A slot completes its next output, where the units it needs have arrived: counts, marks, the unsettled outputs, and the
output that is handed on (R264 to R266, R281, R291). Answers the state and whether an output was handed on. -/
def slOutput (t f : Nat) (err : FiltErr) (s : State) : State :=
  let i := slotIx t f
  let j := (filtGet s i).outs + 1
  if !slBound s t f || decide (haveUnits s t f < needUnit s t f j) then s
  else
    let s := if (filtGet s i).swapDue then swapCheck t (slSwap t f s) else s
    let unit := if slBit s t f then (needUnit s t f j - 1) / 256 + 1 else needUnit s t f j
    let s := slChecks t f unit err s
    let out := outValue s t f (needUnit s t f j)
    let s := onlyIf out.2 (cntFld (R.FT_SLOT_STAT t f) F.FT_SLOT_STAT_SATC 1) s
    let marked := (filtGet s i).marks.any (fun m => decide (m.1 ≤ j) && decide (j ≤ m.2))
    let s := onlyIf marked (cnt (R.FT_SLOT_MARK t f)) s
    let s := filtMod i (fun x => { x with outs := j, marks := x.marks.filter (fun m => decide (j < m.2)) }) (cnt (R.FT_SLOT_OUT t f) s)
    let s := setFlag (R.FT_SLOT_STAT t f) F.FT_SLOT_STAT_MARKING (!(filtGet s i).marks.isEmpty) s
    let uns := fld s (R.FT_SLOT_STAT t f) F.FT_SLOT_STAT_UNS
    let s := setFld (R.FT_SLOT_STAT t f) F.FT_SLOT_STAT_UNS (uns - 1) s
    if uns != 0 && !slDeliv s t f then s
    else
      let base := (if marked then flCorrupt else 0) + (if slBit s t f && slAlign s t f then 32 else 0)
      let o : OutVal :=
        if slBit s t f then
          let r := bitInstant s t f (ownUnit s t f j)
          { val := out.1, ckf := ckfSent err out.1 f r.1, ts := r.1, seq := 0, flags := base + (if r.2 then flHoldover else 0) }
        else
          let r := wordInstant s t f (ownUnit s t f j)
          { val := out.1, ckf := ckfSent err out.1 f r.1, ts := r.1, seq := r.2.1, flags := Nat.lor base r.2.2 }
      let s := filtMod i (fun x => { x with ready := x.ready ++ [o], lastSec := wordOf (tSecLo o.ts) }) s
      setReg (R.FT_SLOT_INSNS t f) (wordOf (tNs o.ts)) s

/-- Outputs of the same index of every slot of a context, taken together (R275): the values and the common instant, number
and flags. The record builder verifies each CK-F: a failure counts, and the record carries CORRUPT (R43, R44, R46, R48). -/
def popOutputs (k : Nat) (s : State) : Option (List Int × OutVal × State) :=
  let sl := ctxSlots s k
  let heads := sl.map (fun p => (filtGet s (slotIx p.1 p.2)).ready.head?)
  match allSome heads with
  | some (o :: rest) =>
    let s := eachOf sl (fun p s => filtMod (slotIx p.1 p.2) (fun x => { x with ready := x.ready.tail }) s) s
    let bad := ((sl.zip (o :: rest)).filter (fun (p : (Nat × Nat) × OutVal) => p.2.ckf != ckfOf p.2.val p.1.2 p.2.ts)).length
    let s := onlyIf (bad != 0) (hubCount 2 bad) s
    some ((o :: rest).map (·.val),
      { o with flags := Nat.lor ((o :: rest).foldl (fun a (y : OutVal) => Nat.lor a y.flags) 0) (if bad = 0 then 0 else flCorrupt) }, s)
  | _ => none

/-- A step of device time reaches the stamps of every slot (R326). -/
def filterStep (at_ : Nat) (amt : Int) (s : State) : State :=
  eachOf (List.range 96) (fun i s =>
    if (filtGet s i).blocks.isEmpty then s
    else filtMod i (fun x => { x with blocks := x.blocks.map (fun b => { b with steps := b.steps ++ [(at_, amt)] }) }) s) s

end Sys2Proof.Machine
end

