-- ==== Sys2Proof/Machine/Records.lean ====
section
/-! DEFINITION. The FH record builder: the identity slot of a context, the conversion of samples, open SAMPLES records, GAP
and STATUS records, and the hand-on to Sieve (R178 to R185, R195, R282, R320, R493 to R501, R799). -/

namespace Sys2Proof.Machine

-- ---------------------------------------------------------------- record flags (R494)

def flLate : Nat := 2
def flCu : Nat := 4
def flSkew : Nat := 32
def flRace : Nat := 128
def flAbsent : Nat := 256
def flStamp : Nat := 2048

/-- A flag where a condition holds. -/
def flIf (b : Bool) (f : Nat) : Nat := if b then f else 0

/-- The flags that all samples of a SAMPLES record share (R497). -/
def sharedFlags : Nat := flCorrupt + flLate + flCu + flHoldover + flSkew + flAlert + flRace + flQuar + flStamp

/-- A stamp taken now carries HOLDOVER (R320). STATE: 0 FREE, 1 ACQUIRE, 2 LOCKED, 3 HOLDOVER. -/
def stampHold (s : State) : Bool :=
  let st := fld s R.TB_STAT F.TB_STAT_STATE
  st == 1 || st == 3 || (fld s R.TB_STAT F.TB_STAT_FSTATE == 2 && st != 0)

-- ---------------------------------------------------------------- identity slots (R178, R179)

def idFld (i : Nat) : Fld :=
  match i with
  | 0 => F.CW_STAT_ST0
  | 1 => F.CW_STAT_ST1
  | _ => F.CW_STAT_ST2

/-- The state of identity slot i of a port: 0 unchecked, 1 PRESENT, 2 ABSENT, 3 QUARANTINE. -/
def idState (s : State) (n i : Nat) : Nat := fld s (R.CW_STAT n) (idFld i)

def idUsed (s : State) (n i : Nat) : Bool := flag s (R.CW_CTL n) F.CW_CTL_IDEN && flag s (R.CW_IDS_CTL n i) F.CW_IDS_CTL_USE

/-- The identity slot of a port and select (R178): the lowest, where two slots name one select. (DESIGN CHOICE, notes/assumptions/65.md.) -/
def idSlotOf (s : State) (n sel : Nat) : Option Nat :=
  (List.range 3).find? (fun i => idUsed s n i && fld s (R.CW_IDS_CTL n i) F.CW_IDS_CTL_SEL == sel)

/-- The identity slot of a context. -/
def ctxIdSlot (s : State) (k : Nat) : Option Nat := if cBit s k then none else idSlotOf s (cPort s k) (cSel s k)

/-- The contexts of an identity slot that are in use. -/
def idCtxs (s : State) (n i : Nat) : List Nat :=
  (List.range 512).filter (fun k => decide (cState s k ≥ 2) && cPort s k == n && ctxIdSlot s k == some i)

/-- The context is in QUARANTINE, or still carries the flag after an accept (R184, R185). -/
def ctxQuar (s : State) (k : Nat) : Bool :=
  (ctxGet s k).quarKeep || (match ctxIdSlot s k with | some i => idState s (cPort s k) i == 3 | none => false)

def ctxAbsent (s : State) (k : Nat) : Bool :=
  match ctxIdSlot s k with | some i => idState s (cPort s k) i == 2 | none => false

-- ---------------------------------------------------------------- SAMPLES records (R496, R497)

def openOf (s : State) (k : Nat) : Option OpenRec := tabGet (fun _ => none) s.tr.openRecs k

def setOpen (k : Nat) (o : Option OpenRec) (s : State) : State :=
  { s with tr := { s.tr with openRecs := tabSet (fun _ => none) s.tr.openRecs k o } }

/-- The SAMPLES record of a context's open samples. -/
def samplesRec (q k : Nat) (o : OpenRec) (first : Sample) : Rec :=
  let v := first.vals.length
  let body := leBytes 4 (o.samples.length + o.fmt * 2 ^ 8 + v * 2 ^ 10 + o.preset * 2 ^ 16 + b2n o.filt * 2 ^ 19) ++
    o.samples.flatMap (fun x => leBytes 4 (x.ts - first.ts)) ++
    o.samples.flatMap (fun x => x.vals.flatMap (valBytes o.fmt))
  let key := match o.samples.getLast? with | some x => x.ts | none => first.ts
  mkRec q kSamples k o.flags first.seq first.ts body key false

/-- The open SAMPLES record of a context is written. -/
def closeRec (k : Nat) (s : State) : State :=
  match openOf s k with
  | some o =>
    match o.samples with
    | x :: _ => setOpen k none (sendRec (samplesRec (cQ s k) k o x) s)
    | [] => setOpen k none s
  | none => s

/-- A sample joins the context's SAMPLES record (R497). -/
def addSample (k : Nat) (x : Sample) (s : State) : State :=
  let fl := Nat.land x.flags sharedFlags
  let fits := match openOf s k with
    | some o =>
      match o.samples with
      | f :: _ => o.flags == fl && decide (f.ts ≤ x.ts) && decide (x.ts < f.ts + 2 ^ 32)
      | [] => true
    | none => true
  let s := if fits then s else closeRec k s
  let o := match openOf s k with
    | some o => { o with samples := o.samples ++ [x] }
    | none => { samples := [x], flags := fl, fmt := cFmt s k, preset := if cFen s k then cPreset s k (cAlert s k) else 0, filt := cFen s k }
  let s := setOpen k (some o) s
  if o.samples.length ≥ cBatch s k (cAlert s k) then closeRec k s else s

-- ---------------------------------------------------------------- GAP and STATUS records

/-- A GAP record of a context: its open record closes first, and its Sieve windows restart (R420, R497). -/
def writeGap (k cause start endT count : Nat) (s : State) : State :=
  let s := sendRec (gapRec (cQ s k) k cause (ctxGet s k).nextSample start endT count) (closeRec k s)
  if flag s (R.SV_CX_STAT k) F.SV_CX_STAT_ASSIGNED then svPut k .restart s else s

/-- A GAP record of R282 falls due with the next output: the first event of one interruption gives its cause and start. (DEDUCED, notes/assumptions/49.md.) -/
def gapMark (k cause now : Nat) (s : State) : State :=
  ctxMod k (fun c =>
    match c.gapDue with
    | some _ => c
    | none => { c with gapDue := some { cause := cause, start := match c.lastInst with | some t => t + 1 | none => now } }) s

/-- The time of a completion or a state change at 5 ns resolution (R492). (DEDUCED, notes/assumptions/54.md.) -/
def statusTime (s : State) : Nat := fieldNs s / 5 * 5

/-- A STATUS record of the time t (R501, R799); an open SAMPLES record of a context without filter slots closes first (R497). (DEDUCED, notes/assumptions/54.md.) -/
def writeStatus (k seq outcome cause attempts port sel slot lag flags t : Nat) (s : State) : State :=
  let s := if cFen s k then s else closeRec k s
  let body := leBytes 4 (outcome + cause * 2 ^ 4 + attempts * 2 ^ 8 + port * 2 ^ 16 + sel * 2 ^ 22 + slot * 2 ^ 25) ++ leBytes 4 lag
  sendRec (mkRec (cQ s k) kStatus k (flags + flIf (stampHold s) flHoldover) seq t body t false) s

/-- The STATUS record of a state change, with OUTCOME 0xF. -/
def statusChange (k flags : Nat) (s : State) : State :=
  writeStatus k (ctxGet s k).nextSample 15 0 0 (cPort s k) (cSel s k) 0 0
    (flags + flIf (cAlert s k) flAlert + flIf (ctxQuar s k) flQuar) (statusTime s) s

-- ---------------------------------------------------------------- handing on a sample (R195, R282, R411)

/-- The values converted to the context's format; a free word where the specification gives no result. -/
def convertAll (k : Nat) : List Int → State → List Word × State
  | [], s => ([], s)
  | v :: rest, s =>
    match convertVal (cFmt s k) (flag s (R.CTX_CTL k) F.CTX_CTL_CAL) (reg s (R.CTX_GAIN k)) (reg s (R.CTX_OFFS k)) v with
    | some w => let r := convertAll k rest s; (w :: r.1, r.2)
    | none =>
      let f := takeFree s
      let r := convertAll k rest f.2
      (wordOf f.1 :: r.1, r.2)

/-- A sample is handed on: the GAP record it ends, its place in a SAMPLES record, and Sieve's copy. -/
def handOn (k : Nat) (vals : List Int) (ts seq flags : Nat) (s : State) : State :=
  let flags := flags + flIf (ctxQuar s k) flQuar
  let s := ctxMod k (fun c => { c with nextSample := seq }) s
  let s := match (ctxGet s k).gapDue with
    | some g => ctxMod k (fun c => { c with gapDue := none }) (writeGap k g.cause g.start ts 0 s)
    | none => s
  let r := convertAll k vals s
  let s := addSample k { seq := seq, ts := ts, flags := flags, vals := r.1 } r.2
  let d := if cFen s k && !cBit s k then decOf (cPreset s k (cAlert s k)) * (if slotScs s k then 4 else 1) else 1
  let s := ctxMod k (fun c => { c with lastInst := some ts, nextSample := (seq + d) % 2 ^ 16 }) s
  svFeed k { seq := seq, ts := ts, flags := flags, vals := r.1, taint := hasFl flags flCorrupt } s

/-- Outputs of a context's slots that share an index are handed on together (R275); a bitstream output takes the next output
number (R493). (DEDUCED, notes/assumptions/49.md.) -/
def handOutputs (k : Nat) : Nat → State → State
  | 0, s => s
  | fuel + 1, s =>
    match popOutputs k s with
    | none => s
    | some (vals, o, s) =>
      let c := ctxGet s k
      let seq := if cBit s k then c.outNo else o.seq
      let s := ctxMod k (fun c => { c with outNo := if cBit s k then (c.outNo + 1) % 2 ^ 16 else c.outNo }) s
      handOutputs k fuel (handOn k vals o.ts seq (Nat.lor o.flags (flIf (cAlert s k) flAlert)) s)

end Sys2Proof.Machine
end

