-- ==== Sys2Proof/Machine/Schedule.lean ====
section
/-! DEFINITION. The poll schedule, the load of a port and the allowances of the queues (R222 to R234, R480, R481). -/

namespace Sys2Proof.Machine

-- ---------------------------------------------------------------- the grid (R222, R231)

def cPhase (s : State) (k : Nat) : Nat := (reg s (R.CTX_PHLO k)).toNat + fld s (R.CTX_PHHI k) F.CTX_PHHI_PHASE * 2 ^ 32
def cLtol (s : State) (k : Nat) : Nat := fld s (R.CTX_PHHI k) F.CTX_PHHI_LTOL
def cCustep (s : State) (k : Nat) : Nat := fld s (R.CTX_PHHI k) F.CTX_PHHI_CUSTEP
def cMinsp (s : State) (k : Nat) : Nat := (reg s (R.CTX_MINSP k)).toNat

/-- The active period. -/
def cP (s : State) (k : Nat) : Nat := max 1 (cPer s k (cAlert s k))

/-- The first point base + i × per (i any integer) at or after t. -/
def gridAt (base per t : Nat) : Nat :=
  let p := max 1 per
  t + (base % p + p - t % p) % p

/-- The first calm grid point at or after t (R222). -/
def calmGrid (s : State) (k t : Nat) : Nat := gridAt (cPhase s k) (cPer s k false) t

/-- The first nominal time of the active profile at or after t (R222, R231). -/
def nominalAt (s : State) (k t : Nat) : Nat :=
  if cAlert s k then gridAt (ctxGet s k).altBase (cPer s k true) t else calmGrid s k t

/-- The schedule a polled context takes when it starts or resumes at device time t, strictly after it where `strict`. -/
def freshSched (k t : Nat) (strict : Bool) (s : State) : State :=
  if cBit s k || fld s R.TB_STAT F.TB_STAT_FSTATE == 0 then s
  else
    let n := nominalAt s k (if strict then t + 1 else t)
    ctxMod k (fun c => { c with sched := some (n, n), cuNext := false, regrid := false }) s

/-- Tolerance L in ns, as the exact comparison S - D > LTOL × PER / 1,000 (R224), with PER the period of the active profile. (DEDUCED,
notes/assumptions/62.md.) -/
def beyondTol (s : State) (k d : Nat) : Bool := decide (d * 1000 > cLtol s k * cP s k)

/-- The nominal time that follows n: one active period on, or after a CHANGE of the grid the next point of the new one (R222, R225). (DEDUCED,
notes/assumptions/62.md.) -/
def nextNom (s : State) (k n : Nat) : Nat := if (ctxGet s k).regrid then nominalAt s k (n + 1) else n + cP s k

/-- R225 and R226 after a poll with nominal time n starts at st. -/
def nextSched (k n st : Nat) (s : State) : State :=
  let p := cP s k
  let lag := st - n
  let beyond := beyondTol s k lag
  let nn := nextNom s k n
  let cut := cCustep s k * p / 64
  let d0 := if beyond then max nn (st + max (p - cut) (cMinsp s k)) else nn
  let d := max d0 (st + cMinsp s k)
  let cu := beyond && decide (d < st + p)
  let s := ctxMod k (fun c => { c with sched := some (nn, d), cuNext := cu, regrid := false, lastStart := some s.elapsed }) s
  setFlag (R.CTX_STAT k) F.CTX_STAT_CU beyond (setReg (R.CTX_LAG k) (wordOf (min lag 0xFFFFFFFF)) s)

-- ---------------------------------------------------------------- load (R233, R234)

/-- LOOP steps unrolled (R216): the steps in the order they run. -/
def unroll (all : List Nat) : Nat → List Nat → List Nat
  | _, [] => []
  | i, w :: rest =>
    if bitsOf w 63 60 = 8 then
      ((List.replicate (bitsOf w 59 52) ((all.drop (bitsOf w 51 48)).take (i - bitsOf w 51 48))).flatten) ++ unroll all (i + 1) rest
    else w :: unroll all (i + 1) rest

/-- The bits an XFER step moves on a port (R86). -/
def xferBits (s : State) (n w : Nat) : Nat :=
  if flag s (R.FP_WCFG n) F.FP_WCFG_STREAM then fld s (R.FP_SLEN n) F.FP_SLEN_LEN else bitsOf w 44 32

/-- Half-periods and nanoseconds of wire time of the steps that follow; `held` says that the select is asserted (R233). -/
def wireTime (s : State) (n : Nat) : Bool → List Nat → Nat × Nat
  | _, [] => (0, 0)
  | held, w :: rest =>
    let gap := fld s (R.FP_GAP n) F.FP_GAP_SETUP + fld s (R.FP_GAP n) F.FP_GAP_HOLD + fld s (R.FP_GAP n) F.FP_GAP_IDLE
    match bitsOf w 63 60 with
    | 1 =>
      let r := wireTime s n (bitOf w 59) rest
      (r.1 + 2 * xferBits s n w + (if held then 0 else gap), r.2)
    | 3 => let r := wireTime s n held rest; (r.1, r.2 + (if held then 10 * bitsOf w 31 0 else 0))
    | 4 => let r := wireTime s n held rest; (r.1, r.2 + 5 * bitsOf w 15 0)
    | _ => wireTime s n held rest

/-- W of a context in ns. -/
def pollWire (s : State) (k : Nat) : Nat :=
  let n := cPort s k
  let st := cSteps s k
  let r := wireTime s n false (unroll st 0 st)
  r.1 * 5 * fld s (R.FP_CLK n) F.FP_CLK_HALF + r.2

/-- The contexts in use, and the running polled ones of a port. -/
def usedCtxs (s : State) : List Nat := (List.range 512).filter (fun k => cState s k != stFree)
def runningOn (s : State) (n : Nat) : List Nat := (List.range 512).filter (fun k => cState s k == stRunning && cPort s k == n)

/-- LOADHI of a port (R234). -/
def loadHi (n : Nat) (s : State) : State :=
  let a := R.FT_SQ_EVT (n / 8)
  setFld a F.FT_SQ_EVT_LOADHI (fld s a F.FT_SQ_EVT_LOADHI ||| 2 ^ (n % 8)) s

/-- SQn_DEMAND is updated (R233, R234). -/
def updDemand (n : Nat) (s : State) : State :=
  let sum : Rat := ((runningOn s n).filter (fun k => !cBit s k)).foldl (fun (a : Rat) k => a + (pollWire s k : Rat) / (cP s k : Nat)) 0
  let d := (sum * 4096).ceil.toNat
  let s := setFld (R.SQ_DEMAND n) F.SQ_DEMAND_DEMAND (min d 0xFFFF) s
  onlyIf (decide (min d 0xFFFF > fld s (R.FT_SQ_CTL (n / 8)) F.FT_SQ_CTL_WARN)) (loadHi n) s

-- ---------------------------------------------------------------- allowances (R480, R481)

/-- λ_k for a queue, in whole microseconds. -/
def pathAllowance (s : State) (k q : Nat) : Nat :=
  let n := cPort s k
  let sel := fld s (R.CTX_CTL k) F.CTX_CTL_TSSEL
  let base : Rat := 2000 + (if sel == 1 || sel == 2 then 1000 * fld s (R.FP_TLIM n) F.FP_TLIM_LIMIT else 0 : Nat)
  let t : Rat := if flag s (R.FP_BCFG n) F.FP_BCFG_CLKSRC then (fld s (R.FP_CLKMON n) F.FP_CLKMON_PMAX : Nat)
    else (10 * fld s (R.FP_CLK n) F.FP_CLK_HALF : Nat)
  let align := flag s (R.FT_SLOT (n / 8) (cSlot s k)) F.FT_SLOT_ALIGN
  let gOf (a : Bool) : Rat :=
    let p := cPreset s k a
    if slotScs s k then ((2 * (if cBit s k then osrOf p else decOf p) - 2 : Nat) : Rat)
    else if cBit s k then bitG p else (wordG p : Nat)
  let one (a : Bool) : Rat :=
    if cBit s k then (gOf a + 256) * t + 1030 + (if align then (12 * osrOf (cPreset s k a) : Nat) * t else 0)
    else if cFen s k then gOf a * (cPer s k a : Nat) + base
    else base
  let a := (profilesOf s k).foldl (fun (m : Rat) x => if m < one x then one x else m) 0
  let spec := flag s (R.SV_CX_SPCFG k) F.SV_CX_SPCFG_EN
  let writes := spec && fld s (R.SV_CX_SPCFG k) F.SV_CX_SPCFG_SPEVERY != 0 && cQ s k == q
  let extra : Nat := if cEvq s k == q || writes then (if spec then 282000 else 1000) else 0
  ((a + (extra : Nat)) / 1000 : Rat).ceil.toNat

/-- Λ_q is recomputed (R481). -/
def updLambda (q : Nat) (s : State) : State :=
  let l := maxNat (((usedCtxs s).filter (fun k => cState s k != stRemoving && (cQ s k == q || cEvq s k == q))).map (fun k => pathAllowance s k q))
  let capped := decide (l > 1000000)
  let s := setFld (R.Q_LAMBDA q) F.Q_LAMBDA_LAMBDA (min l 1000000) (setFlag (R.Q_LAMBDA q) F.Q_LAMBDA_CAPPED capped s)
  onlyIf capped (evt R.TR_EVT F.TR_EVT_CAPPED) s

/-- The two queues a context names. -/
def ctxQueues (s : State) (k : Nat) : List Nat := [cQ s k, cEvq s k]

-- ---------------------------------------------------------------- a step of device time (R230)

/-- The passed-over nominal times after a forward step from `old` to `new` (device time in ns): first, last and how many. -/
def passedOver (n p new : Nat) : Option (Nat × Nat × Nat) :=
  if new ≤ n then none else some (n, n + (new - 1 - n) / p * p, (new - 1 - n) / p + 1)

/-- The nominal time of context k's poll that has been issued into a slot of its port and has not started, and the slot. -/
def unstarted (s : State) (k : Nat) : Option (Nat × Nat) :=
  (List.range 8).findSome? (fun i => match slotGet s (cPort s k) i with
    | some t => if t.ctx == k && !t.sentinel && t.start.isNone && t.fin.isNone then some (i, t.nom) else none
    | none => none)

/-- The poll of context k that has not started leaves its slot, or the contexts that wait for one, and its number is free again: it is not
performed (R230). (DEDUCED, notes/assumptions/53.md.) -/
def dropPoll (k : Nat) (s : State) : State :=
  let n := cPort s k
  let s := portMod n (fun p => { p with waiters := p.waiters.filter (· != k) }) s
  match unstarted s k with
  | some (i, _) =>
    let s := match slotGet s n i with | some t => setFld (R.CTX_STAT k) F.CTX_STAT_NEXTTN t.tn s | none => s
    portMod n (fun p => if p.wire == some i then { p with wire := none, wireAcc := p.wireAcc + (s.elapsed - p.wireSince) } else p) (slotSet n i none s)
  | none => s

/-- Each running polled context resumes on its grid after a step to device time `new`. A poll that has been issued and has not started is
passed over with the nominal times after it. -/
def stepSchedules (forward : Bool) (new : Nat) (s : State) : State :=
  eachOf (List.range 512) (fun k s =>
    if cState s k != stRunning || cBit s k then s
    else match (ctxGet s k).sched with
      | none => s
      | some (n0, _) =>
        let n := match unstarted s k with | some x => x.2 | none => n0
        let s := dropPoll k s
        let p := cP s k
        let s := match (if forward then passedOver n p new else none) with
          | some (a, b, c) => writeGap k 4 a b c s
          | none => s
        let nn := nominalAt s k (new + 1)
        -- MINSP of elapsed time since the previous start
        let since := match (ctxGet s k).lastStart with | some e => s.elapsed - e | none => cMinsp s k
        let d := max nn (new + (cMinsp s k - since))
        setReg (R.CTX_LAG k) 0 (setFlag (R.CTX_STAT k) F.CTX_STAT_CU false
          (ctxMod k (fun c => { c with sched := some (nn, d), cuNext := false, regrid := false }) s))) s

/-- The bank of context k's port is held by hold cells (R697). -/
def ctxBankHeld (s : State) (k : Nat) : Bool := s.pow.held.contains (cPort s k / 8)

/-- The schedule of every running polled context that `p` selects resumes at device time `now` after a sleep or a reset that
stopped it: the first grid point after, lag 0, and a GAP record of cause RESTART over the due times missed (R613, R693). -/
def resumeWhere (p : State → Nat → Bool) (now : Nat) (s : State) : State :=
  eachOf (List.range 512) (fun k s =>
    if cState s k != stRunning || cBit s k || !p s k then s
    else
      let nn := nominalAt s k (now + 1)
      let s := match (ctxGet s k).gapFrom with
        | some a => if nn ≤ a then s else writeGap k 2 a (nn - cP s k) 0 s
        | none => s
      setReg (R.CTX_LAG k) 0 (setFlag (R.CTX_STAT k) F.CTX_STAT_CU false
        (ctxMod k (fun c => { c with sched := some (nn, nn), cuNext := false, regrid := false, gapFrom := none }) s))) s

/-- The schedules resume, but for those whose port's bank is still held: these wait for its release (R693). -/
def resumeSchedules (now : Nat) (s : State) : State := resumeWhere (fun s k => !ctxBankHeld s k) now s

/-- The schedules of a released bank resume (R693). -/
def resumeBank (b now : Nat) (s : State) : State :=
  resumeWhere (fun s k => cPort s k / 8 == b && (ctxGet s k).sched.isNone && (ctxGet s k).gapFrom.isSome) now s

/-- The schedules stop until device time is known again; the first nominal time not polled is kept (R613, R693). -/
def haltSchedules (s : State) : State :=
  eachOf (List.range 512) (fun k s =>
    if cState s k != stRunning || cBit s k then s
    else match (ctxGet s k).sched with
      | some (n, _) => ctxMod k (fun c => { c with sched := none, gapFrom := some (c.gapFrom.getD n) }) s
      | none => s) s

end Sys2Proof.Machine
end

