-- ==== Sys2Proof/Machine/Contexts.lean ====
section
/-! DEFINITION. Contexts: the check of an entry and of its template, claims, and what ADD, CHANGE, REMOVE, START and STOP do
(R190 to R207, R217, R240, R241, R245, R246, R411, R463). -/

namespace Sys2Proof.Machine

-- ---------------------------------------------------------------- the entry

/-- The addresses of entry words 0 to 11. -/
def entryAddrs (k : Nat) : List Nat :=
  [R.CTX_CTL k, R.CTX_BIND k, R.CTX_CPERLO k, R.CTX_CPERHI k, R.CTX_APERLO k, R.CTX_APERHI k, R.CTX_PHLO k, R.CTX_PHHI k,
   R.CTX_MINSP k, R.CTX_RULES k, R.CTX_GAIN k, R.CTX_OFFS k]

/-- The bits of a register that a field of the map names. (DEDUCED, notes/assumptions/46.md.) -/
def namedBits (a : Nat) : Nat :=
  match regDesc? a with
  | some d => d.ro ||| d.rw ||| d.rws ||| d.w1c
  | none => 0

/-- Words 0 to 11 of an entry stored; reserved bits read zero (R17). (DEDUCED, notes/assumptions/46.md.) -/
def putEntry (k : Nat) (ws : List Word) (s : State) : State :=
  (((entryAddrs k).zip ws).foldl (fun st (p : Nat × Word) => setReg p.1 (p.2 &&& wordOf (namedBits p.1)) st)) s

def setState (k x : Nat) (s : State) : State := setFld (R.CTX_STAT k) F.CTX_STAT_STATE x s

/-- A transaction of the context is in a slot (R191). -/
def inflight (s : State) (k : Nat) : Bool :=
  (portGet s (cPort s k)).slots.any (fun x => match x with | some t => t.ctx == k && !t.sentinel | none => false)

-- ---------------------------------------------------------------- the check of a template (R217)

/-- The bits that R209 lists for an opcode. -/
def stepBits (op : Nat) : List (Nat × Nat) :=
  match op with
  | 0 => []
  | 1 => [(59, 59), (44, 32), (31, 0)]
  | 2 => [(59, 58), (23, 0)]
  | 3 => [(31, 0)]
  | 4 => [(59, 59), (58, 58), (57, 55), (31, 16), (15, 0)]
  | 5 => []
  | 6 => [(55, 48), (47, 40), (39, 32), (27, 16), (11, 0)]
  | 7 => [(59, 59), (52, 48), (43, 32)]
  | _ => [(59, 52), (51, 48)]

/-- A bit that R209 does not list is set. -/
def strayBits (w : Nat) : Bool :=
  let kept := sumNat ((stepBits (bitsOf w 63 60)).map (fun p => bitsOf w p.1 p.2 * 2 ^ p.2))
  w % 2 ^ 60 != kept

/-- Whether one checked step breaks a condition of R217 or a range of R209; `i` is its index, `len` the frame's length. (DEDUCED, notes/assumptions/51.md.) -/
def stepBad (s : State) (k : Nat) (st : List Nat) (len i w : Nat) : Bool :=
  let n := cPort s k
  let body := (st.drop (bitsOf w 51 48)).take (i - bitsOf w 51 48)
  strayBits w ||
  (match bitsOf w 63 60 with
   | 0 => false
   | 1 => bitsOf w 44 32 == 0 || decide (bitsOf w 44 32 > 4096) ||
          (!flag s (R.FP_WCFG n) F.FP_WCFG_STREAM && bitsOf w 44 32 % (max 1 (fld s (R.FP_WCFG n) F.FP_WCFG_UNIT)) != 0)
   | 2 => bitsOf w 23 0 == 0 || (bitsOf w 59 58 != 0 && (portDec s n || ssFn s n (bitsOf w 59 58 - 1) != 2))
   | 3 => bitsOf w 31 0 == 0
   | 4 => bitsOf w 15 0 == 0 ||
          (if bitsOf w 57 55 < 4 then !bitOf (fld s (R.CTX_CTL k) F.CTX_CTL_TRIGOWN) (bitsOf w 57 55)
           else portDec s n || bitsOf w 57 55 - 4 != cSel s k || !bitOf w 58)
   | 5 => false
   | 6 => decide (bitsOf w 11 0 < 8) || decide (bitsOf w 11 0 > 4088) || bitsOf w 11 0 % 8 != 0 ||
          decide (bitsOf w 27 16 + bitsOf w 11 0 + 8 > len)
   | 7 => decide (bitsOf w 43 32 + bitsOf w 52 48 + 1 > len)
   | 8 => bitsOf w 59 52 == 0 || decide (bitsOf w 51 48 ≥ i) || body.any (fun x => isStore x || bitsOf x 63 60 == 8)
   | _ => true)

/-- The bits of the frame that the XFER steps build (R213). -/
def frameLen (s : State) (k : Nat) : Nat :=
  let st := cSteps s k
  sumNat ((unroll st 0 st).map (fun w => if bitsOf w 63 60 = 1 then xferBits s (cPort s k) w else 0))

/-- The state as a command would leave it: entry k under its new words, and the steps of the template that they name (R217). -/
def withEntry (k : Nat) (ws : List Word) (s : State) : State := ctxMod k (fun c => { c with oldTpl := none }) (putEntry k ws s)

/-- The template of a context is refused with RANGE (R217). -/
def tplBad (s : State) (k : Nat) : Bool :=
  let j := cTpl s k
  let st := tplSteps s j
  let len := frameLen s k
  let stores := (st.filter isStore).length
  let sel := fld s (R.CTX_CTL k) F.CTX_CTL_TSSEL
  (st.zipIdx.any (fun (p : Nat × Nat) => stepBad s k st len p.2 p.1)) ||
  (decide (st.length < 16) && strayBits (tplStep s j st.length)) ||
  stores == 0 || decide (stores > 4) ||
  (sel == 1 && !st.any (fun w => bitsOf w 63 60 == 2)) || (sel == 2 && !st.any (fun w => bitsOf w 63 60 == 4))

-- ---------------------------------------------------------------- the check of an entry (R192 to R196, R246, R262, R277, R412)

def maxPeriod : Nat := 4294967295000

/-- A filter slot that the context would bind is refused (R246, R262, R277). -/
def slotsBad (s : State) (k : Nat) : Bool :=
  let t := cPort s k / 8
  let v := cVals s k
  let swift := (profilesOf s k).any (fun a => cPreset s k a == 0)
  cFen s k &&
  (decide (cSlot s k + v > 16) || !flag s (R.FT_FLT_CTL t) F.FT_FLT_CTL_EN ||
   (List.range v).any (fun i => flag s (R.FT_SLOT t (cSlot s k + i)) F.FT_SLOT_SCS &&
     (flag s (R.FT_SLOT t (cSlot s k + i)) F.FT_SLOT_ALIGN || (!cBit s k && swift))) ||
   (!cBit s k && (List.range v).any (fun i => flag s (R.FT_SLOT t (cSlot s k + i)) F.FT_SLOT_ALIGN)))

/-- An entry breaks a field or binding rule: RANGE. The state holds the entry's words. -/
def entryBad (s : State) (k : Nat) : Bool :=
  let bit := cBit s k
  let alert := cHasAlert s k
  let pers := (profilesOf s k).map (cPer s k)
  decide (cPort s k > 47) ||
  decide (cPreset s k false > 4) || (alert && decide (cPreset s k true > 4)) ||
  cBatch s k false == 0 ||
  (flag s (R.CTX_CTL k) F.CTX_CTL_CAL && cFmt s k != 3) ||
  decide (cRcnt s k > 16) || decide (cRbase s k + cRcnt s k > 1024) ||
  (if bit then !cFen s k || decide (cSel s k > 1)
   else
     fld s (R.CTX_CTL k) F.CTX_CTL_TSSEL == 3 || decide (cLtol s k > 500) || decide (cCustep s k > 32) ||
     decide (cSel s k > (if portDec s (cPort s k) then 6 else 2)) ||
     pers.any (fun p => decide (p < 1000) || decide (p > maxPeriod) || decide (cMinsp s k > p)) ||
     decide (cPhase s k ≥ cPer s k false) || tplBad s k) ||
  slotsBad s k ||
  (cRcnt s k != 0 && !flag s R.SV_CTL F.SV_CTL_EN) || ruleSetBad s k (cVals s k)

/-- The pages a context's snapshot ring takes (R463). -/
def ringPages (s : State) (k : Nat) : Nat :=
  if snRingl s k = 0 then 0 else ceilDiv (2 ^ (snRingl s k + 1) * cVals s k * fmtBytes (cFmt s k)) 4096

/-- The context's ring leaves the pool, or is placed at the lowest free run that can hold it; none where there is no room. -/
def freeRing (k : Nat) (s : State) : State := { s with tr := { s.tr with rings := s.tr.rings.filter (fun r => r.ctx != k) } }

/-- A ring that was placed for the same RINGL, V and FMT stays where it is. -/
def placeRing (k : Nat) (s : State) : Option State :=
  let n := ringPages s k
  let l := snRingl s k
  let v := cVals s k
  let f := cFmt s k
  if s.tr.rings.any (fun r => r.ctx == k && r.ringl == l && r.vals == v && r.fmt == f) then some s
  else
    let s := freeRing k s
    if n = 0 then some s
    else match firstRun n (poolFree s) with
      | some i => some { s with tr := { s.tr with rings := s.tr.rings ++ [{ ctx := k, page := regionBase (reg s R.TR_POOL) + i, pages := n
                                                                            ringl := l, vals := v, fmt := f }] } }
      | none => none

/-- The state with the rule-set words that wait for context k (R446). -/
def ruled (k : Nat) (s : State) : State := eachOf ((svGet s k).ruleSet.getD []) (fun w s => setReg w.1 w.2 s) s

/-- The entry, the steps and the rule set that the committed changes of context k will leave it with (R204, R446, R724). (DEDUCED, notes/assumptions/34.md.) -/
def wanted (k : Nat) (s : State) : State :=
  ruled k ((ctxGet s k).acts.foldl (fun u a => match a with
    | .change ws => ctxMod k (fun c => { c with oldTpl := none }) (withEntry k ws u)
    | .template _ => ctxMod k (fun c => { c with oldTpl := none }) u
    | _ => u) s)

/-- The snapshot ring follows what is committed for its context: it is placed at the commit that gives it (R463). (DEDUCED, notes/assumptions/34.md.) -/
def followRing (k : Nat) (s : State) : State :=
  match placeRing k (wanted k s) with
  | some x => { s with tr := { s.tr with rings := x.tr.rings } }
  | none => s

/-- The entry is refused with QUEUE_FULL (R196, R440, R464); `runs` says that the command makes it run. -/
def entryFull (s : State) (k : Nat) (runs : Bool) : Bool :=
  !qEn s (cQ s k) || !qEn s (cEvq s k) || (placeRing k (ruled k s)).isNone ||
  (runs && flag s (R.SV_CX_SPCFG k) F.SV_CX_SPCFG_EN && decide (regionSize (reg s R.TR_SPWS) < 64))

-- ---------------------------------------------------------------- claims (R240, R241)

/-- What a context claims: port, select, filter slots, trigger pins, rules. -/
structure Claim where
  port : Nat
  sel : Nat
  slot : Nat
  slots : Nat
  trig : Nat
  rbase : Nat
  rcnt : Nat

def claimOf (s : State) (k : Nat) : Claim :=
  { port := cPort s k, sel := cSel s k, slot := cSlot s k, slots := if cFen s k then cVals s k else 0
    trig := fld s (R.CTX_CTL k) F.CTX_CTL_TRIGOWN, rbase := cRbase s k, rcnt := cRcnt s k }

/-- Two claims meet. -/
def Claim.meets (a b : Claim) : Bool :=
  (a.port == b.port && a.sel == b.sel) ||
  (a.port / 8 == b.port / 8 && (overlap a.slot a.slots b.slot b.slots || a.trig &&& b.trig != 0)) ||
  overlap a.rbase a.rcnt b.rbase b.rcnt

/-- Channel c of tile t claims its pin (R396). -/
def chanClaims (s : State) (t c : Nat) : Bool :=
  let a := R.FT_TMC_CTL t c
  flag s a F.FT_TMC_CTL_EN &&
  (fld s a F.FT_TMC_CTL_SRC == 2 || flag s a F.FT_TMC_CTL_CAPEN || fld s a F.FT_TMC_CTL_OUTACT != 0)

/-- The TRIG pins of a tile that timer channels claim, as a mask. -/
def timerPins (s : State) (t : Nat) : Nat :=
  (List.range 8).foldl (fun m c => if chanClaims s t c then m ||| 2 ^ fld s (R.FT_TMC_CTL t c) F.FT_TMC_CTL_PIN else m) 0

/-- The states in which the pending changes of a context, and the new steps of its template, will leave its entry (R204, R724). -/
def pendingStates (s : State) (k : Nat) : List State :=
  (ctxGet s k).acts.filterMap (fun a => match a with
    | .change ws => some (withEntry k ws s)
    | .template _ => some (ctxMod k (fun c => { c with oldTpl := none }) s)
    | _ => none)

/-- The claims of the pending changes of a context. -/
def pendingClaims (s : State) (k : Nat) : List Claim := (pendingStates s k).map (fun u => claimOf u k)

/-- The kind under which a CTX command is staged in a Graft; the kind word of R721 is below it (notes/assumptions/15.md). -/
def gkCtx : Nat := 0x100

/-- The claims of the entries staged in the open Graft for other contexts; the words are the index, the action and the entry. -/
def stagedClaims (s : State) (k : Nat) : List Claim :=
  match s.graft with
  | none => []
  | some g => g.items.filterMap (fun it =>
      match it.words with
      | i :: _ :: ws => if it.kind == gkCtx && i.toNat != k && ws.length == 16 then some (claimOf (withEntry i.toNat ws s) i.toNat) else none
      | _ => none)

/-- The entry that the state holds for context k meets a claim of another context or of a timer channel. -/
def claimClash (s : State) (k : Nat) : Bool :=
  let c := claimOf s k
  (List.range 512).any (fun j => j != k && cState s j != stFree && (c.meets (claimOf s j) || (pendingClaims s j).any c.meets)) ||
  (stagedClaims s k).any c.meets ||
  c.trig &&& timerPins s (c.port / 8) != 0

-- ---------------------------------------------------------------- what a state change does

/-- The idle level that a template's steps give a TRIG pin (R237): low where none of them drives it. (DESIGN CHOICE, notes/assumptions/65.md.) -/
def trigPol (st : List Nat) (p : Nat) : Bool :=
  match st.find? (fun w => bitsOf w 63 60 == 4 && bitsOf w 57 55 == p) with | some w => bitOf w 58 | none => false

/-- The entries that claim TRIG pins of tile t, present and committed: their pins and steps. -/
def trigClaims (s : State) (t : Nat) : List (Nat × List Nat) :=
  let one (u : State) (k : Nat) : List (Nat × List Nat) :=
    let m := fld u (R.CTX_CTL k) F.CTX_CTL_TRIGOWN
    if cPort u k / 8 == t && m != 0 then [(m, if cBit u k then [] else cSteps u k)] else []
  ((List.range 512).filter (fun k => decide (cState s k ≥ stStopped))).flatMap (one s) ++
  s.ctxs.flatMap (fun e => (pendingStates s e.1).flatMap (fun u => one u e.1))

/-- The TRIG pins of a tile take the idle levels of the contexts that claim them (R237). -/
def trigFollow (t : Nat) (s : State) : State :=
  let l := trigClaims s t
  let lvl (p : Nat) : Option Bool := (l.find? (fun c => bitOf c.1 p)).map (fun c => trigPol c.2 p)
  tileMod t (fun x => { x with trigIdle := ((List.range 4).map (fun p => (p, lvl p))).filter (fun e => e.2.isSome) }) s

/-- The slots that the committed changes of a context will give it are bound from the commit (R245). -/
def bindAhead (k : Nat) (s : State) : State :=
  eachOf (pendingStates s k) (fun u s => eachOf (ctxSlots u k) (fun p s =>
    if slBound s p.1 p.2 then s else slTake p.1 p.2 (bindWord u k p.2) s) s) s

/-- The slots that no present or committed entry of context k uses any more are released. -/
def sweepSlots (k : Nat) (s : State) : State :=
  let keep := ctxSlots s k ++ (pendingStates s k).flatMap (fun u => ctxSlots u k)
  eachOf (List.range 96) (fun i s =>
    if slBound s (i / 16) (i % 16) && slCtx s (i / 16) (i % 16) == k && !keep.contains (i / 16, i % 16) then slUnbind (i / 16) (i % 16) s else s) s

/-- An action that may give a context other slots or pins. -/
def actMoves : CtxAct → Bool
  | .change _ => true
  | .template _ => true
  | _ => false

/-- The waiting actions of a context become `l`: what those that fall out had claimed is released. -/
def setActs (k : Nat) (l : List CtxAct) (s : State) : State :=
  let moves := (ctxGet s k).acts.any actMoves
  let tiles := cPort s k / 8 :: (pendingStates s k).map (fun u => cPort u k / 8)
  let s := ctxMod k (fun c => { c with acts := l }) s
  if moves then eachOf tiles trigFollow (sweepSlots k (followRing k s)) else s

def bindSlots (k : Nat) (s : State) : State := eachOf (ctxSlots s k) (fun p s => slBind k p.1 p.2 s) s
def unbindSlots (k : Nat) (s : State) : State := eachOf (ctxSlots s k) (fun p s => slUnbind p.1 p.2 s) s

def updQueues (qs : List Nat) (s : State) : State := eachOf qs updLambda s

/-- The context's engine and spectral unit are chosen anew, where it needs them (R411, R425). -/
def svReassign (k : Nat) (s : State) : State :=
  if needsSieve s k then (svAssign k s).getD s else s

/-- A context becomes RUNNING in the calm profile (R203, R280, R421). -/
def startCtx (k : Nat) (s : State) : State :=
  let s := setFlag (R.CTX_STAT k) F.CTX_STAT_PROF false (setState k stRunning s)
  let s := ctxMod k (fun c => { c with profReq := none, sched := none, cuNext := false, gapDue := none, lastInst := none, absent := none, gapFrom := none }) s
  let s := slRun k true (ctxRestart k (ctxPreset k s))
  let s := if flag s (R.SV_CX_STAT k) F.SV_CX_STAT_ASSIGNED then s else svReassign k s
  let s := svPut k .clear s
  updDemand (cPort s k) (freshSched k (fieldNs s) false s)

/-- The context goes over to the changed steps of its template: its slots, its pins and its ring follow (R194, R237, R463, R724). -/
def applyTemplate (k : Nat) (s : State) : State :=
  let was := cVals s k
  let s' := ctxMod k (fun c => { c with oldTpl := none }) s
  if cVals s' k = was then trigFollow (cPort s k / 8) (updDemand (cPort s k) s')
  else
    let s := ctxMod k (fun c => { c with oldTpl := none }) (unbindSlots k (closeRec k s))
    let s := slRun k (cState s k == stRunning) (bindSlots k (followRing k s))
    trigFollow (cPort s k / 8) (updQueues (ctxQueues s k) (updDemand (cPort s k) s))

/-- A context becomes STOPPED: its record closes and its slots stop (R205, R283, R497). -/
def stopCtx (k : Nat) (s : State) : State :=
  let s := slRun k false (closeRec k (setState k stStopped s))
  let s := setActs k [] s
  let s := if (ctxGet s k).oldTpl.isSome then applyTemplate k s else s
  updDemand (cPort s k) (ctxMod k (fun c => { c with sched := none, profReq := none }) s)

/-- A context becomes FREE and its claims are released (R197, R205, R245, R463). (DEDUCED, notes/assumptions/46.md.) -/
def freeCtx (k : Nat) (s : State) : State :=
  let n := cPort s k
  let qs := ctxQueues s k
  let s := setActs k [] s
  let s := unbindSlots k (freeRing k (svRelease k (ctxLoad s k) (ctxRate s k) (closeRec k s)))
  let s := setState k stFree s
  let s := ctxMod k (fun _ => {}) { s with sv := { s.sv with ctxs := tabSet (fun _ => ({} : SvCtx)) s.sv.ctxs k {} } }
  trigFollow (n / 8) (updQueues qs (updDemand n s))

/-- An entry becomes STOPPED under its words (R197, R245, R463); its status words start from zero (R204). -/
def addCtx (k : Nat) (ws : List Word) (s : State) : State :=
  let s := putEntry k ws s
  let s := setReg (R.CTX_POLLS k) 0 (setReg (R.CTX_CNT k) 0 (setReg (R.CTX_LAG k) 0 (setReg (R.CTX_STAT k) 0 s)))
  let s := ctxMod k (fun _ => {}) (setState k stStopped s)
  let s := bindSlots k (followRing k s)
  trigFollow (cPort s k / 8) (updQueues (ctxQueues s k) s)

/-- A CHANGE takes effect as a whole (R204, R245, R280, R411, R463). The poll due at the boundary keeps its nominal and due time and is the
first under the new entry (R207); the grid of the new entry begins with the next. (DEDUCED, notes/assumptions/62.md.) -/
def changeCtx (k : Nat) (ws : List Word) (s : State) : State :=
  let old := (cPort s k, ctxQueues s k, cRbase s k, cRcnt s k, cPer s k false, cPhase s k, cPer s k true)
  let was := flag s (R.SV_CX_STAT k) F.SV_CX_STAT_ASSIGNED
  let s := svRelease k (ctxLoad s k) (ctxRate s k) (closeRec k s)
  let s := ctxMod k (fun c => { c with oldTpl := none }) (putEntry k ws (unbindSlots k s))
  let s := bindSlots k (followRing k s)
  let s := slRun k (cState s k == stRunning) s
  let s := if was || (cState s k == stRunning && needsSieve s k) then svReassign k s else s
  let s := if (cRbase s k, cRcnt s k) != (old.2.2.1, old.2.2.2.1) then svPut k .clear s else s
  let same := (cPer s k false, cPhase s k, cPer s k true) == old.2.2.2.2
  let s := match (ctxGet s k).sched with
    | some (n, _) =>
      if cBit s k then ctxMod k (fun c => { c with sched := none }) s
      else if same then s
      else ctxMod k (fun c => { c with regrid := true, altBase := if cAlert s k then n else c.altBase }) s
    | none => if cState s k == stRunning then freshSched k (fieldNs s) false s else s
  let s := trigFollow (old.1 / 8) (trigFollow (cPort s k / 8) s)
  updQueues (old.2.1 ++ ctxQueues s k) (updDemand old.1 (updDemand (cPort s k) s))

/-- A STOP or REMOVE takes effect: at once, or when the transaction in flight completes (R205). -/
def endCtx (k : Nat) (remove : Bool) (s : State) : State :=
  if inflight s k then
    updQueues (ctxQueues s k) (updDemand (cPort s k)
      (ctxMod k (fun c => { c with sched := none }) (setActs k [] (setState k (if remove then stRemoving else stStopping) s))))
  else if remove then freeCtx k s
  else stopCtx k s

/-- The slot configuration written to a bound slot takes effect; the slot restarts, with the others of its context, which take their inputs
in step with it (R275, R280, R295). -/
def applySlot (t f : Nat) (v : Word) (s : State) : State :=
  let s := setReg (R.FT_SLOT t f) (v &&& wordOf (namedBits (R.FT_SLOT t f))) s
  if slBound s t f then slRestart t f (ctxRestart (slCtx s t f) s) else slRestart t f s

/-- An action takes effect on its context. -/
def applyAct (k : Nat) (a : CtxAct) (s : State) : State :=
  match a with
  | .change ws => changeCtx k ws s
  | .remove => endCtx k true s
  | .stop => endCtx k false s
  | .start => if cState s k == stStopped then startCtx k s else s
  | .slotWrite t f v => applySlot t f v s
  | .cal g o => setReg (R.CTX_OFFS k) o (setReg (R.CTX_GAIN k) g (closeRec k s))
  | .template _ => applyTemplate k s

/-- Whether an action has to wait for the transaction in flight, so that no poll mixes old and new fields (R204). (DEDUCED, notes/assumptions/44.md.) (DEDUCED, notes/assumptions/53.md.) -/
def actWaits : CtxAct → Bool
  | .remove => false
  | .stop => false
  | _ => true

/-- The actions of a boundary in order (R203, R207). (DEDUCED, notes/assumptions/53.md.) -/
def applyActs (k : Nat) : List CtxAct → State → State
  | [], s => setActs k [] s
  | a :: rest, s =>
    if actWaits a && inflight s k then setActs k (a :: rest) s
    else if cState s k == stRunning || cState s k == stStopped then applyActs k rest (applyAct k a s)
    else setActs k [] s

/-- A period boundary of a context (R185, R203). (DEDUCED, notes/assumptions/53.md.) -/
def boundary (k : Nat) (s : State) : State :=
  let s := ctxMod k (fun c => { c with quarKeep := false }) s
  if (ctxGet s k).acts.isEmpty then s else applyActs k (ctxGet s k).acts s

/-- An action on a context that RUNS waits for the boundary (R203), and what it claims is held from the commit (R237, R245, R463); on another it
acts at once. Answers the status. -/
def actOn (k : Nat) (a : CtxAct) (s : State) : Nat × State :=
  if cState s k == stRunning then
    let s := ctxMod k (fun c => { c with acts := c.acts ++ [a] }) s
    (stACCEPTED, if actMoves a then eachOf ((pendingStates s k).map (fun u => cPort u k / 8)) trigFollow (bindAhead k (followRing k s)) else s)
  else (stOK, applyAct k a s)

-- ---------------------------------------------------------------- profiles (R231, R438, R439)

/-- A pending profile request takes effect (R231, R280, R497). -/
def switchProfile (k : Nat) (s : State) : State :=
  match (ctxGet s k).profReq with
  | none => s
  | some a =>
    let s := ctxMod k (fun c => { c with profReq := none }) s
    if a == cAlert s k || !cHasAlert s k then s
    else
      let s := closeRec k s
      let sched := (ctxGet s k).sched
      let s := setFlag (R.CTX_STAT k) F.CTX_STAT_PROF a s
      let s := match sched with
        | some (n, d) =>
          let nn := if a then n else calmGrid s k n
          ctxMod k (fun c => { c with altBase := if a then n else c.altBase, sched := some (nn, max nn d) }) s
        | none => s
      let s := svPut k (.prof a) (ctxRestart k (ctxPreset k s))
      updDemand (cPort s k) s

-- ---------------------------------------------------------------- the CTX command (R197 to R203)

def actADD : Nat := 1
def actCHANGE : Nat := 2
def actREMOVE : Nat := 3
def actSTART : Nat := 4
def actSTOP : Nat := 5

/-- The lowest-numbered FREE entry (R200). -/
def firstFree (s : State) : Option Nat := (List.range 512).find? (fun k => cState s k == stFree)

/-- The command would make the context run, or keeps it running. -/
def runsAfter (s : State) (k act : Nat) : Bool :=
  act == actSTART || cState s k == stRunning || (act == actADD && flag s (R.CTX_CTL k) F.CTX_CTL_AUTOSTART)

/-- No engine or spectral unit can take the context as `s'` holds it, once it has left what it has in `s` (R411, R425). -/
def sieveClash (s s' : State) (k : Nat) : Bool :=
  needsSieve s' k && (svAssign k (svRelease k (ctxLoad s k) (ctxRate s k) s')).isNone

/-- The checks of R199 in order: the status of the first failure, or the context. `img` says that the image loads the entry,
which then stays STOPPED (R645). -/
def ctxCheck (s : State) (idx act : Nat) (ws : List Word) (img : Bool) : Except Nat Nat :=
  let any := idx == 0xFFFFFFFF
  let entry := act == actADD || act == actCHANGE
  let free := firstFree s
  let k := if any then free.getD 0 else idx
  let s' := if entry then withEntry k ws s else s
  let runs := runsAfter s' k act && !img
  let started := act == actSTART && flag s (R.SV_CX_SPCFG k) F.SV_CX_SPCFG_EN && !flag s R.SV_CTL F.SV_CTL_EN
  let autoSp := runs && entry && flag s (R.SV_CX_SPCFG k) F.SV_CX_SPCFG_EN && !flag s R.SV_CTL F.SV_CTL_EN
  if (any && act != actADD) || (!any && decide (idx > 511)) || decide (act < 1) || decide (act > 5) || (entry && ws.length != 16) ||
     (!entry && !ws.isEmpty) then .error stRANGE
  else if (entry && entryBad s' k) || started || autoSp then .error stRANGE
  else if act != actADD && decide (cState s k ≤ stReserved) then .error stRANGE
  else if act != actADD && decide (cState s k ≥ stStopping) then .error stBUSY
  else if act == actADD && !any && cState s k != stFree then .error stCONFLICT
  else if any && free.isNone then .error stCTX_FULL
  else if (entry && entryFull s' k runs) ||
      (act == actSTART && flag s (R.SV_CX_SPCFG k) F.SV_CX_SPCFG_EN && decide (regionSize (reg s R.TR_SPWS) < 64)) then .error stQUEUE_FULL
  else if (entry && claimClash s' k) || (runs && sieveClash s s' k) then .error stCONFLICT
  else .ok k

/-- A refusal counts (R201). -/
def ctxRefused (st : Nat) (s : State) : State :=
  onlyIf (st == stCTX_FULL) (cnt R.FH_CTXREF) (onlyIf (st == stCONFLICT) (cnt R.FH_CONFREF) s)

/-- A checked CTX command is committed (R198, R203). -/
def ctxCommit (k act : Nat) (ws : List Word) (s : State) : Nat × State :=
  match act with
  | 1 =>
    let s := addCtx k ws s
    (stOK, if flag s (R.CTX_CTL k) F.CTX_CTL_AUTOSTART then startCtx k s else s)
  | 2 => actOn k (.change ws) s
  | 3 => actOn k .remove s
  | 4 => actOn k .start s
  | _ => actOn k .stop s

/-- A staged ADD reserves its entry (R202). An entry that an earlier item of the Graft is to free stays as it is. -/
def reserveCtx (k : Nat) (ws : List Word) (s : State) : State :=
  if cState s k != stFree then s
  else
    let s := putEntry k ws s
    let s := setState k stReserved (setReg (R.CTX_STAT k) 0 s)
    updQueues (ctxQueues s k) s

/-- A reserved entry returns to FREE (R202). -/
def unreserveCtx (k : Nat) (s : State) : State :=
  if cState s k != stReserved then s
  else
    let qs := ctxQueues s k
    updQueues qs (setState k stFree s)

/-- Two waiting actions of one context have the same target (R727). -/
def sameTarget : CtxAct → CtxAct → Bool
  | .slotWrite t f _, .slotWrite t' f' _ => t == t' && f == f'
  | .slotWrite _ _ _, _ => false
  | _, .slotWrite _ _ _ => false
  | .cal _ _, .cal _ _ => true
  | .cal _ _, _ => false
  | _, .cal _ _ => false
  | .template j, .template j' => j == j'
  | .template _, _ => false
  | _, .template _ => false
  | _, _ => true

/-- A later committed item replaces the waiting actions with the same target, which never take effect (R727). (DEDUCED, notes/assumptions/34.md.) -/
def replaceActs (k : Nat) (a : CtxAct) (s : State) : State :=
  let keep (b : CtxAct) : Bool := !sameTarget a b
  let s := setActs k ((ctxGet s k).acts.filter keep) s
  { s with waits := s.waits.map (fun w => { w with acts := w.acts.filter (fun x => x.1 != k || keep x.2) }) }

/-- The action that a CTX command leaves with a RUNNING context. -/
def ctxActOf (act : Nat) (ws : List Word) : Option CtxAct :=
  match act with
  | 2 => some (.change ws)
  | 3 => some .remove
  | 4 => some .start
  | 5 => some .stop
  | _ => none

/-- A CTX command outside a Graft is committed as a Graft of one step (R198, R727). -/
def ctxDirect (k act : Nat) (ws : List Word) (s : State) : Nat × State :=
  ctxCommit k act ws (match ctxActOf act ws with
    | some a => if cState s k == stRunning then replaceActs k a s else s
    | none => s)

end Sys2Proof.Machine
end

