-- ==== Sys2Proof/Machine/Ports.lean ====
section
/-! DEFINITION. Field ports and their transactions: the wire, steps, waits, timeouts, completions, bitstream blocks, the clock
monitor and the bank (R71 to R143, R208 to R242). -/

namespace Sys2Proof.Machine

-- ---------------------------------------------------------------- the wire (R91, R130 to R132)

/-- The wire is free for a slot or a window command: nothing holds it, no release period runs, and the idle gap after the last select
release has ended (R91, R132, R140). -/
def wireFree (s : State) (n : Nat) : Bool :=
  (portGet s n).wire.isNone && decide ((portGet s n).freeAt ≤ s.elapsed)

/-- Slot i takes the wire. -/
def takeWire (n i : Nat) (s : State) : State :=
  slotMod n i (fun t => { t with wired := true }) (portMod n (fun p => { p with wire := some i, wireSince := s.elapsed, relseq := none }) s)

/-- The wire becomes free at the elapsed time `e`, up to which its holder counts in SQn_LOAD (R242). -/
def dropWireAt (n e : Nat) (s : State) : State :=
  portMod n (fun p => { p with wire := none, wireAcc := p.wireAcc + (if p.wire.isSome then e - p.wireSince else 0) }) s

/-- The wire becomes free now: no select is asserted. -/
def dropWire (n : Nat) (s : State) : State := dropWireAt n s.elapsed s

/-- An SCK half-period of port n in ns (R81). -/
def halfNs (s : State) (n : Nat) : Nat := 5 * fld s (R.FP_CLK n) F.FP_CLK_HALF

/-- A select or code is released at the elapsed time `e` by slot `i`, none for a window command; the idle gap follows (R91). -/
def noteRelease (n : Nat) (i : Option Nat) (sel e idle : Nat) (s : State) : State :=
  portMod n (fun p => { p with relSlot := i, relSel := some sel, relAt := e, freeAt := max p.freeAt (e + idle) }) s

/-- Slot i leaves the wire: an asserted select is released once the hold gap after its last SCK edge has passed, and the idle gap
follows; the wire is held until the release (R91, R103, R131, R211). (DEDUCED, notes/assumptions/61.md.) -/
def leaveWire (n i : Nat) (s : State) : State :=
  match slotGet s n i with
  | none => s
  | some t =>
    if (portGet s n).wire != some i then s
    else if t.sel then
      let e := max s.elapsed (t.lastEdge.getD s.elapsed + bitsOf t.gap.toNat 15 8 * halfNs s n)
      slotMod n i (fun t => { t with sel := false })
        (noteRelease n (some i) (cSel s t.ctx) e (bitsOf t.gap.toNat 23 16 * halfNs s n) (dropWireAt n e s))
    else dropWire n s

/-- The elapsed time at which a slot that has just left the wire has released its select. -/
def releasedAt (s : State) (n i : Nat) : Nat :=
  if (portGet s n).relSlot == some i then max s.elapsed (portGet s n).relAt else s.elapsed

/-- Some other slot of the port waits for the wire. -/
def otherWaits (s : State) (n i : Nat) : Bool :=
  (portGet s n).slots.zipIdx.any (fun (x : Option TxnS × Nat) => x.2 != i && (match x.1 with | some t => t.wait == 0 && t.fin.isNone | none => false))

def holdsWire (s : State) (n i : Nat) : Bool := (portGet s n).wire == some i

/-- Slot i may take the wire in this cycle without a grant: it is free and no other slot waits for it. -/
def canTake (s : State) (n i : Nat) : Bool := wireFree s n && !otherWaits s n i

-- ---------------------------------------------------------------- the start of a poll (R223 to R226)

/-- A poll of context k on slot i of port n starts at device time st; the settings of R78 are latched. -/
def pollStart (n i st : Nat) (s : State) : State :=
  match slotGet s n i with
  | none => s
  | some t =>
    let k := t.ctx
    let lag := st - t.nom
    let late := beyondTol s k (st - t.due)
    let s := slotMod n i (fun t => { t with start := some st, began := some s.elapsed, lag := min lag 0xFFFFFFFF, late := late,
                                            gap := reg s (R.FP_GAP n), slen := fld s (R.FP_SLEN n) F.FP_SLEN_LEN,
                                            retry := reg s (R.FP_RETRY n), tlim := fld s (R.FP_TLIM n) F.FP_TLIM_LIMIT,
                                            stuck := fld s (R.FP_STUCK n) F.FP_STUCK_NONES }) s
    if t.sentinel then s
    else
      let s := cnt (R.CTX_POLLS k) s
      let s := onlyIf late (fun s => cntFld (R.CTX_CNT k) F.CTX_CNT_LATE 1 (cnt (R.SQ_CNT_LATE n) s)) s
      let s := onlyIf t.cu (fun s => cntFld (R.CTX_CNT k) F.CTX_CNT_CU 1 (cnt (R.SQ_CNT_CU n) s)) s
      let s := setReg (R.SQ_MAXLAG n) (wordOf (max (reg s (R.SQ_MAXLAG n)).toNat (min lag 0xFFFFFFFF))) s
      let sec := st / secNs
      let s := tileMod (n / 8) (fun x => if x.sec = sec then { x with started := x.started + 1 } else { x with sec := sec, started := 1 })
        (if (tileGet s (n / 8)).sec = sec then s
         else setFld (R.FT_SQ_TPS (n / 8)) F.FT_SQ_TPS_TPS (if (tileGet s (n / 8)).sec + 1 = sec then (tileGet s (n / 8)).started else 0) s)
      if cState s k == stRunning then nextSched k t.nom st s else s

/-- The first step of an attempt begins at `st`. -/
def firstStep (n i st : Nat) (s : State) : State :=
  match slotGet s n i with
  | some t => if t.start.isNone then pollStart n i st s else s
  | none => s

/-- A TRIG pulse of slot i ends: its pin returns to the idle level (R237). -/
def pulseOff (n i : Nat) (s : State) : State :=
  match slotGet s n i with
  | some t =>
    match t.pulseOn with
    | some g => slotMod n i (fun t => { t with pulse := false, pulseOn := none })
        (if g < 4 then tileMod (n / 8) (fun x => { x with trigPulse := x.trigPulse.filter (· != g) }) s else s)
    | none => s
  | none => s

/-- A disable ends with the transaction that it waited for: the outputs are released once the select is (R79). -/
def disableEnd (n : Nat) (s : State) : State :=
  match (portGet s n).disabling with
  | some i =>
    if (match slotGet s n i with | some t => t.fin.isNone | none => false) then s
    else portMod n (fun p => { p with disabling := none, driven := false, offAt := max s.elapsed p.relAt }) s
  | none => s

/-- FPn_TSNS takes the FRAME stamp of a transaction that has one (R120, R158). -/
def frameStamp (n i : Nat) (s : State) : State :=
  match slotGet s n i with
  | some t =>
    match t.tsFrame with
    | some st => setReg (R.FP_TSNS n) (wordOf (tNs st.1)) (portMod n (fun p => { p with lastSec := wordOf (tSecLo st.1) }) s)
    | none => s
  | none => s

/-- The transaction ends with an outcome and a cause: one that had not begun counts as performed for the schedule (R127), its select is
released and the wire becomes free (R103, R112, R131). -/
def finish (n i outcome cause : Nat) (s : State) : State :=
  let s := firstStep n i (fieldNs s) s
  let s := frameStamp n i (leaveWire n i (pulseOff n i s))
  disableEnd n (slotMod n i (fun t => { t with fin := some (outcome, cause), sel := false, wait := 1 }) s)

/-- A transaction that a reset or the loss of the bank stops at once, with no hold gap (R138, R142). -/
def stopNow (n i outcome : Nat) (s : State) : State :=
  let s := if (portGet s n).wire == some i then dropWire n s else s
  finish n i outcome 0 (slotMod n i (fun t => { t with sel := false }) s)

-- ---------------------------------------------------------------- steps (R209 to R216)

/-- The data-ready line of a WAITDR step: 0 DI, 1 to 3 SS0 to SS2. -/
def drLineOf (w : Nat) : Nat := bitsOf w 59 58

def drActive (s : State) (n l : Nat) : Bool := tabGet (fun _ => false) (portGet s n).drOn l
def drStamp (s : State) (n l : Nat) : Option (Nat × Bool) := tabGet (fun _ => none) (portGet s n).drEdge l

/-- The select a context names is a select output (R88); in decoded mode every line is. -/
def selOk (s : State) (n k : Nat) : Bool := portDec s n || ssFn s n (cSel s k) == 1

/-- The frame bits of received wire bits: units in order, each in value order (R213). -/
def frameBits (s : State) (n : Nat) (rx : List Bool) : List Bool :=
  if flag s (R.FP_WCFG n) F.FP_WCFG_LSBF then
    if flag s (R.FP_WCFG n) F.FP_WCFG_STREAM then rx.reverse
    else (chunksOf (max 1 (fld s (R.FP_WCFG n) F.FP_WCFG_UNIT)) rx.length rx).flatMap List.reverse
  else rx

/-- Bits in the port's bit order: most significant first, or least significant first (R87). -/
def inOrder (s : State) (n w v : Nat) : List Bool :=
  if flag s (R.FP_WCFG n) F.FP_WCFG_LSBF then (natBits w v).reverse else natBits w v

/-- A STORE step's value (R214); none where it reaches past the bits received so far. (DEDUCED, notes/assumptions/51.md.) -/
def storeVal (frame : List Bool) (w : Nat) : Option Int :=
  let wd := bitsOf w 52 48 + 1
  let bits := (frame.drop (bitsOf w 43 32)).take wd
  if bits.length = wd then some (if bitOf w 59 then signedOf wd (bitsNat bits) else ((bitsNat bits : Nat) : Int)) else none

/-- A CRC8 step holds over the frame (R215); one that runs before the XFER that receives its bits is computed over the bits received so
far. (DEDUCED, notes/assumptions/51.md.) -/
def crcHolds (frame : List Bool) (w : Nat) : Bool :=
  let st := bitsOf w 27 16
  let len := bitsOf w 11 0
  let c := crc8 (bitsOf w 47 40) (bitsOf w 39 32) (bitsOf w 55 48) ((frame.drop st).take len)
  c == bitsNat ((frame.drop (st + len)).take 8)

/-- Bits of an XFER step under the transaction's own stream length (R78, R86). -/
def txnBits (s : State) (n : Nat) (t : TxnS) (w : Nat) : Nat :=
  if flag s (R.FP_WCFG n) F.FP_WCFG_STREAM then t.slen else bitsOf w 44 32

/-- The bits an XFER step sends, in wire order: the low UNIT bits of DATA as its first unit, or in the stream sub-mode its low bits, and
zeros after them (R87, R212). -/
def xferOut (s : State) (n : Nat) (t : TxnS) (w : Nat) : List Bool :=
  let len := txnBits s n t w
  let k := if flag s (R.FP_WCFG n) F.FP_WCFG_STREAM then min 32 len else min len (fld s (R.FP_WCFG n) F.FP_WCFG_UNIT)
  inOrder s n k (bitsOf w 31 0) ++ List.replicate (len - k) false

/-- The instant of a timed TRIG step (R235). -/
def trigAt (t : TxnS) (w : Nat) : Nat := t.due + bitsOf w 31 16 * 10

/-- The transaction limit has expired (R111, R113). -/
def tlimUp (s : State) (t : TxnS) : Bool :=
  match t.began with
  | some b => decide (b + 1000 * t.tlim ≤ s.elapsed)
  | none => false

/-- A NOT_READY attempt (R103, R104, R113). The retry interval counts from the release of the select. -/
def notReady (n i : Nat) (s : State) : State :=
  let s := evt (R.FP_EVT n) F.FP_EVT_NRDY (cnt (R.FP_CNT n 1) s)
  match slotGet s n i with
  | none => s
  | some t =>
    if t.attempts ≥ bitsOf t.retry.toNat 23 16 + 1 then finish n i 1 (if tlimUp s t then 3 else 1) s
    else
      let s := leaveWire n i s
      slotMod n i (fun t => { t with wait := 4, stepAt := releasedAt s n i }) s

/-- The leading edge of a TRIG step is driven now; the slot keeps the wire until the trailing edge (R131, R236). (DEDUCED, notes/assumptions/51.md.) -/
def driveTrig (n i st : Nat) (s : State) : State :=
  let s := firstStep n i st s
  let stamp := (fieldNs s, stampHold s)
  match slotGet s n i with
  | none => s
  | some t =>
    let g := bitsOf (cStep s t.ctx t.step) 57 55
    let s := if g < 4 then tileMod (n / 8) (fun x => { x with trigPulse := x.trigPulse.filter (· != g) ++ [g] }) s else s
    slotMod n i (fun t => { t with tsTrig := some stamp, pulse := true, pulseOn := some g, wait := 1, stepAt := s.elapsed }) s

/-- The line is seen at its active level at a WAITDR step: the stamp of its latest edge, if there has been one (R109, R133). -/
def seeLine (n i l : Nat) (s : State) : State :=
  let stamp := drStamp s n l
  slotMod n i (fun t => { t with tsDr := stamp, seen := true }) s

/-- A WAITDR step is satisfied: one on DI with no select asserted leaves the wire (R131). -/
def leaveDi (n i l : Nat) (s : State) : State :=
  match slotGet s n i with
  | some t => if l == 0 && !t.sel && holdsWire s n i then dropWire n s else s
  | none => s

/-- The transaction of a slot runs from its present step until it has to wait, or ends (R210). `st` is the time at which a first
step begins. A slot that does not hold the wire and cannot take it waits with code 0. (DEDUCED, notes/assumptions/51.md.) -/
def advance (n i st : Nat) : Nat → State → State
  | 0, s => s
  | fuel + 1, s =>
    match slotGet s n i with
    | none => s
    | some t =>
      let k := t.ctx
      let w := cStep s k t.step
      let op := bitsOf w 63 60
      let next (s : State) : State := advance n i st fuel (slotMod n i (fun t => { t with step := t.step + 1, wait := 1, seen := false }) s)
      let conf (s : State) : State := finish n i 8 0 (firstStep n i st s)
      let stay (s : State) : State := slotMod n i (fun t => { t with wait := 0, stepAt := if t.wait == 0 then t.stepAt else releasedAt s n i }) s
      let withWire (f : State → State) (s : State) : State :=
        if holdsWire s n i then f s
        else if canTake s n i then f (takeWire n i s)
        else stay s
      if t.fin.isSome then s
      else if t.step ≥ 16 then finish n i 0 0 (firstStep n i st s)
      else
        match op with
        | 1 =>
          if !selOk s n k || decide (t.frame.length + txnBits s n t w > 4096) then conf s
          else withWire (fun s =>
            let s := firstStep n i st s
            let u := (slotGet s n i).getD t
            let s := portMod n (fun p => { p with txBits := xferOut s n u w, txSel := cSel s k }) s
            slotMod n i (fun t => { t with wait := 1, sel := true, stepAt := s.elapsed }) s) s
        | 2 =>
          let l := drLineOf w
          if l != 0 && (portDec s n || ssFn s n (l - 1) != 2) then conf s
          else
            let go (s : State) : State :=
              let s := firstStep n i st s
              let s := slotMod n i (fun t => { t with watched := some l }) s
              if t.seen then next (leaveDi n i l s)
              else if drActive s n l then next (leaveDi n i l (seeLine n i l s))
              else slotMod n i (fun t => { t with wait := 2, stepAt := if t.wait == 0 then t.stepAt else releasedAt s n i }) s
            if l != 0 || holdsWire s n i then go s
            else if canTake s n i then go (takeWire n i s)
            else
              let s := slotMod n i (fun t => { t with watched := some l }) (stay s)
              if drActive s n l && !t.seen then seeLine n i l s else s
        | 3 => slotMod n i (fun t => { t with wait := 3, stepAt := releasedAt s n i }) (firstStep n i st s)
        | 4 =>
          if decide (bitsOf w 57 55 ≥ 4) && !selOk s n k then conf s
          else if bitOf w 59 then
            let at_ := trigAt t w
            if fieldNs s < at_ then
              let s := if decide (at_ ≤ fieldNs s + 1000) && !holdsWire s n i && canTake s n i then takeWire n i s else s
              slotMod n i (fun t => { t with wait := 5, stepAt := s.elapsed }) s
            else withWire (driveTrig n i (if fieldNs s < at_ + 5 then at_ else fieldNs s)) s
          else withWire (driveTrig n i st) s
        | 5 =>
          let s := firstStep n i st s
          if flag s (R.CTX_CTL k) F.CTX_CTL_ZERO_VALID || t.lastRx.isEmpty || t.lastRx.any id then next s
          else notReady n i s
        | 6 =>
          let s := firstStep n i st s
          if crcHolds t.frame w then next s
          else next (slotMod n i (fun t => { t with ckp := true }) (ckFail 0 (evt (R.FP_EVT n) F.FP_EVT_CKP s)))
        | 7 =>
          let s := firstStep n i st s
          match storeVal t.frame w with
          | some v => next (slotMod n i (fun t => { t with stores := t.stores ++ [v] }) s)
          | none =>
            let f := takeFree s
            next (slotMod n i (fun t => { t with stores := t.stores ++ [signedOf 32 f.1] }) f.2)
        | 8 =>
          let s := firstStep n i st s
          let left := t.loopLeft.getD (bitsOf w 59 52)
          if left = 0 then next (slotMod n i (fun t => { t with loopLeft := none }) s)
          else advance n i st fuel (slotMod n i (fun t => { t with loopLeft := some (left - 1), step := bitsOf w 51 48, wait := 1, seen := false }) s)
        | _ => finish n i 0 0 (firstStep n i st s)

/-- More steps than any template runs: 256 passes of 15 steps. -/
def stepFuel : Nat := 4400

/-- The slot runs on from its present step, a first step beginning now. -/
def run (n i : Nat) (s : State) : State := advance n i (fieldNs s) stepFuel s

/-- The step the slot is at ends and the next runs. -/
def stepDone (n i : Nat) (s : State) : State := run n i (slotMod n i (fun t => { t with step := t.step + 1, wait := 1, seen := false }) s)

-- ---------------------------------------------------------------- issuing a poll (R218 to R229)

/-- The tile issues polls: the field side is in Run, no entry has gated new work (R679), and the tile does not sleep. -/
def tileRuns (s : State) (t : Nat) : Bool :=
  s.pow.field.st = .run &&
  !(s.pow.autoSleep ++ s.pow.cmdSleep).any (fun x => x.val == t)

/-- A transaction is put into a free slot and begins (R80, R142, R219). `st` is the issue time. -/
def issueTo (n i k st nom due : Nat) (cu : Bool) (s : State) : State :=
  let tn := fld s (R.CTX_STAT k) F.CTX_STAT_NEXTTN
  let s := setFld (R.CTX_STAT k) F.CTX_STAT_NEXTTN (tn + 1) s
  let s := slotSet n i (some { ctx := k, tn := tn, nom := nom, due := due, cu := cu, alert := cAlert s k, wait := 1 }) s
  let en := flag s (R.FP_CTL n) F.FP_CTL_EN && fld s (R.FP_CTL n) F.FP_CTL_MODE != 0
  if !(portGet s n).bankOk then finish n i 5 0 (firstStep n i st s)
  else if !en then finish n i 7 0 (firstStep n i st s)
  else advance n i st stepFuel s

/-- The lowest-numbered free slot of a port. -/
def freeSlot (s : State) (n : Nat) : Option Nat := (List.range 8).find? (fun i => (slotGet s n i).isNone)

/-- The nominal time of a context was not polled because its identity slot is ABSENT (R183). -/
def skipAbsent (k n : Nat) (s : State) : State :=
  ctxMod k (fun c => { c with absent := match c.absent with
                                | some (a, _, m) => some (a, n, m + 1)
                                | none => some (n, n, 1)
                              sched := some (nextNom s k n, nextNom s k n), cuNext := false, regrid := false }) s

/-- The first poll of a context waits for the first identity read of its slot (R181). -/
def idWaits (s : State) (k : Nat) : Bool :=
  match ctxIdSlot s k with
  | some i => !(portGet s (cPort s k)).idDone.contains i
  | none => false

/-- A queue that the context names holds its source (R229, R471). -/
def heldSource (s : State) (k : Nat) : Bool :=
  flag s (R.Q_STAT (cQ s k)) F.Q_STAT_HELD || flag s (R.Q_STAT (cEvq s k)) F.Q_STAT_HELD

/-- A running context's poll can be issued, but for the order among contexts and for the slots. -/
def issuable (s : State) (k : Nat) : Bool :=
  cState s k == stRunning && !cBit s k && !inflight s k &&
  !idWaits s k && !heldSource s k && !bankHeld s (cPort s k) && !portInReset s (cPort s k) &&
  tileRuns s (cPort s k / 8) && fld s R.TB_STAT F.TB_STAT_FSTATE != 0

/-- A running context's poll can be issued at device time `now`, but for the order among contexts: it does not wait for a slot. -/
def pollable (s : State) (k : Nat) : Bool := issuable s k && !(portGet s (cPort s k)).waiters.contains k

/-- A context of the same tile is due earlier, or at the same time with a lower port or number, and can be polled (R220). -/
def dueBefore (s : State) (k due : Nat) : Bool :=
  s.ctxs.any (fun (e : Nat × CtxS) =>
    match e.2.sched with
    | some (_, d) =>
      e.1 != k && cPort s e.1 / 8 == cPort s k / 8 &&
      (decide (d < due) || (d == due && (decide (cPort s e.1 < cPort s k) || (cPort s e.1 == cPort s k && decide (e.1 < k))))) &&
      pollable s e.1
    | none => false)

/-- A tile issues its next transaction not before 250 ns after the last (R220): time passes to then. A poll due in this cycle does not
wait where the tile is ready. -/
def tileReady (t due : Nat) (s : State) : State :=
  match (tileGet s t).lastIssue with
  | some e => if fieldNs s < due + 5 && e + 250 ≤ s.elapsed then s else toElapsed (e + 250) s
  | none => s

/-- The poll of a context takes slot i of its port (R220, R223). -/
def issueNow (k i nom due : Nat) (s : State) : State :=
  let n := cPort s k
  let now := fieldNs s
  let s := tileMod (n / 8) (fun x => { x with lastIssue := some s.elapsed }) s
  issueTo n i k (if now < due + 5 then due else now) nom due (ctxGet s k).cuNext s

/-- The poll of a context falls due and is issued into a free slot, or waits for one (R219, R220, R222, R226). -/
def issuePoll (k : Nat) (s : State) : State :=
  match (ctxGet s k).sched with
  | none => s
  | some (nom, due) =>
    let n := cPort s k
    let t := n / 8
    match freeSlot s n with
    | some i => issueNow k i nom due (tileReady t due s)
    | none =>
      let a := R.FT_SQ_EVT t
      setFld a F.FT_SQ_EVT_SLOTWAIT (fld s a F.FT_SQ_EVT_SLOTWAIT ||| 2 ^ (n % 8))
        (portMod n (fun p => { p with waiters := p.waiters ++ [k] }) s)

/-- The due time of a context comes: its boundary and its pending profile request act first, then its poll is issued (R183,
R203, R207, R222, R231). -/
def pollDue (k : Nat) (s : State) : State :=
  if cState s k != stRunning || cBit s k then s
  else
    match (ctxGet s k).sched with
    | none => s
    | some (_, d0) =>
      let s := switchProfile k (boundary k (toField d0 s))
      match (ctxGet s k).sched with
      | none => s
      | some (nom, due) =>
        if fieldNs s < due || !pollable s k then s
        else if dueBefore s k due then s
        else if ctxAbsent s k then skipAbsent k nom s
        else issuePoll k s

-- ---------------------------------------------------------------- events on a slot

/-- The grant of the wire (R132, R133, R239): the waiting slot with the earliest due time, the lower slot on a tie. -/
def grantKey (s : State) (n i : Nat) : Option Nat :=
  match slotGet s n i with
  | some t =>
    let asks := t.wait == 5 && decide (trigAt t (cStep s t.ctx t.step) ≤ fieldNs s + 1000) && !holdsWire s n i
    if t.fin.isNone && (t.wait == 0 || asks) then some t.due else none
  | none => none

def grantTo (s : State) (n : Nat) : Option Nat :=
  (List.range 8).foldl (fun (b : Option Nat) i =>
    match grantKey s n i with
    | none => b
    | some d => match b with
      | none => some i
      | some j => match grantKey s n j with
        | some e => if d < e then some i else b
        | none => some i) none

/-- The wire is granted once the idle gap, or the release periods and the gap after them, have passed (R132, R140). -/
def grant (n : Nat) (s : State) : State :=
  if (portGet s n).wire.isSome || portInReset s n || bankHeld s n then s
  else
    let s := if (grantTo s n).isSome then toElapsed (portGet s n).freeAt s else s
    match grantTo s n with
    | some i => if wireFree s n then run n i (takeWire n i s) else s
    | none => s

/-- The port stamps edges: it is enabled, or a disable waits for its transaction, and device time is known (R79, R120, R309). (DEDUCED, notes/assumptions/50.md.) -/
def portStamps (s : State) (n : Nat) : Bool :=
  ((flag s (R.FP_CTL n) F.FP_CTL_EN && fld s (R.FP_CTL n) F.FP_CTL_MODE != 0) || (portGet s n).disabling.isSome) &&
  fld s R.TB_STAT F.TB_STAT_FSTATE != 0 && !portInReset s n && (portGet s n).bankOk

/-- The slot's present step is a WAITDR on line l. -/
def awaits (s : State) (t : TxnS) (l : Nat) : Bool :=
  let w := cStep s t.ctx t.step
  t.fin.isNone && bitsOf w 63 60 == 2 && drLineOf w == l

/-- A data-ready line takes a level (R108, R109, R120, R133). An edge into the active level is stamped; a slot that waits for the
level runs on, and one that waits for the wire has seen it. An edge that the port cannot stamp leaves no stamp. (DEDUCED, notes/assumptions/50.md.) -/
def drLevel (n l : Nat) (active : Bool) (s : State) : State :=
  let edge := active && !drActive s n l
  let stamp := if portStamps s n then some (fieldNs s, stampHold s) else none
  let s := portMod n (fun p => { p with drOn := tabSet (fun _ => false) p.drOn l active
                                        drEdge := if edge then tabSet (fun _ => none) p.drEdge l stamp else p.drEdge }) s
  if !edge || portInReset s n || !(portGet s n).bankOk then s
  else
    eachOf (List.range 8) (fun i s =>
      match slotGet s n i with
      | some t =>
        if !awaits s t l then s
        else if t.wait == 2 then stepDone n i (leaveDi n i l (seeLine n i l s))
        else if t.wait == 0 && !t.seen then seeLine n i l s
        else s
      | none => s) s

/-- The XFER on the wire ends with the bits received and the edges read back (R92, R114, R211, R213). (DEDUCED, notes/assumptions/50.md.) -/
def xferEnd (n : Nat) (rx : List Bool) (edges : Nat) (s : State) : State :=
  match (portGet s n).wire with
  | none => s
  | some i =>
    match slotGet s n i with
    | none => s
    | some t =>
      let w := cStep s t.ctx t.step
      if t.wait != 1 || t.pulse || t.fin.isSome || bitsOf w 63 60 != 1 || rx.length != txnBits s n t w then s
      else
        let stamp := (fieldNs s, stampHold s)
        let keep := bitOf w 59
        let fb := frameBits s n rx
        let s := slotMod n i (fun t => { t with frame := t.frame ++ fb, lastRx := rx, drove := t.drove + 2 * rx.length,
                                                read := t.read + edges, tsFrame := some stamp, lastEdge := some s.elapsed,
                                                bits := t.bits || !rx.isEmpty, zeros := t.zeros || rx.any (!·) }) s
        stepDone n i (if keep then s else leaveWire n i s)

/-- The retry interval of a slot ends: the template runs again from its first step with a new frame (R103, R213). What the attempt
showed of edge faults stays (R129). -/
def retryEnd (n i : Nat) (s : State) : State :=
  match slotGet s n i with
  | some t =>
    if t.wait == 4 && t.fin.isNone then
      let s := toElapsed (t.stepAt + 100 * bitsOf t.retry.toNat 15 0) s
      run n i (slotMod n i (fun t => { t with attempts := t.attempts + 1, step := 0, loopLeft := none, frame := [], lastRx := [],
                                              few := t.few || decide (t.read < t.drove), many := t.many || decide (t.drove < t.read),
                                              drove := 0, read := 0, tsFrame := none, tsDr := none, tsTrig := none, watched := none,
                                              lastEdge := none, seen := false, stores := [], ckp := false, wait := 1 }) s)
    else s
  | none => s

/-- A DELAY step ends (R209). -/
def delayDone (n i : Nat) (s : State) : State :=
  match slotGet s n i with
  | some t =>
    if t.wait == 3 && t.fin.isNone then
      stepDone n i (toElapsed (t.stepAt + 10 * bitsOf (cStep s t.ctx t.step) 31 0) s)
    else s
  | none => s

/-- The operation completes under R37 in the port (R137). -/
def portRace (n i : Nat) (s : State) : State :=
  slotMod n i (fun t => { t with race := true }) (evt (R.FP_EVT n) F.FP_EVT_RACE (raceField s))

/-- The limit of a WAITDR step expires; in the same cycle as the level it counts as satisfied (R110, R134). The limit runs on while the
slot waits for the wire, and is met once the level has been seen (R133). With the transaction limit in the same cycle the cause is
TLIM (R113). -/
def waitdrLimit (n i : Nat) (same : Bool) (s : State) : State :=
  match slotGet s n i with
  | some t =>
    let w := cStep s t.ctx t.step
    let l := drLineOf w
    if !(awaits s t l && (t.wait == 2 || (t.wait == 0 && !t.seen))) then s
    else
      let s := toElapsed (t.stepAt + 100 * bitsOf w 23 0) s
      if same then
        let stamp := if portStamps s n then some (fieldNs s, stampHold s) else none
        let s := portMod n (fun p => { p with drEdge := tabSet (fun _ => none) p.drEdge l stamp, drOn := tabSet (fun _ => false) p.drOn l true }) s
        let s := portRace n i (seeLine n i l s)
        if t.wait == 2 then stepDone n i (leaveDi n i l s) else s
      else finish n i 1 (if tlimUp s t then 3 else 2) s
  | none => s

/-- No XFER step follows step j of context k's template (R92). -/
def lastXfer (s : State) (k j : Nat) : Bool := ((cSteps s k).drop (j + 1)).all (fun w => bitsOf w 63 60 != 1 && bitsOf w 63 60 != 8)

/-- The waiting and TRIG steps after the final XFER of a transaction whose limit has expired end at once (R135). (DEDUCED,
notes/assumptions/61.md.) -/
def skipWaits (n i : Nat) : Nat → State → State
  | 0, s => s
  | fuel + 1, s =>
    match slotGet s n i with
    | some t => if t.fin.isSome || t.wait == 4 then s else skipWaits n i fuel (stepDone n i (pulseOff n i s))
    | none => s

/-- The transaction limit expires; with the final SCK edge in the same cycle the transaction completes (R111, R112, R135). (DEDUCED, notes/assumptions/61.md.) -/
def tlimLimit (n i : Nat) (same : Bool) (rx : List Bool) (edges : Nat) (s : State) : State :=
  match slotGet s n i with
  | some t =>
    match t.began with
    | some b =>
      if t.fin.isSome then s
      else
        let s := toElapsed (b + 1000 * t.tlim) s
        let late (s : State) : State := finish n i 1 3 (slotMod n i (fun t => { t with lastEdge := some s.elapsed }) s)
        if same && holdsWire s n i && lastXfer s t.ctx t.step && bitsOf (cStep s t.ctx t.step) 63 60 == 1 then
          let s' := skipWaits n i 16 (xferEnd n rx edges s)
          match slotGet s' n i with
          | some u =>
            if u.fin == some (0, 0) then portRace n i s'
            else if u.fin.isSome then s'
            else late s'
          | none => s'
        else late s
    | none => s
  | none => s

/-- The leading edge of a timed TRIG step (R235, R238). -/
def timedEdge (n i : Nat) (s : State) : State :=
  match slotGet s n i with
  | some t =>
    let w := cStep s t.ctx t.step
    if t.wait == 5 && t.fin.isNone && bitsOf w 63 60 == 4 then
      let s := toField (trigAt t w) s
      let st := if fieldNs s < trigAt t w + 5 then trigAt t w else fieldNs s
      if holdsWire s n i then driveTrig n i st s
      else if canTake s n i then driveTrig n i st (takeWire n i s)
      else slotMod n i (fun t => { t with wait := 0 }) s
    else s
  | none => s

/-- The trailing edge of a TRIG pulse: the wire is released where no select is asserted; a pulse on a select ends with its release, and
the idle gap follows (R91, R131). (DEDUCED, notes/assumptions/51.md.) -/
def trigTrail (n i : Nat) (s : State) : State :=
  match slotGet s n i with
  | some t =>
    if t.pulse && t.fin.isNone then
      let w := cStep s t.ctx t.step
      let s := pulseOff n i (toElapsed (t.stepAt + 5 * bitsOf w 15 0) s)
      let s := if t.sel then s
        else if bitsOf w 57 55 < 4 then dropWire n s
        else noteRelease n (some i) (cSel s t.ctx) s.elapsed (bitsOf t.gap.toNat 23 16 * halfNs s n) (dropWire n s)
      stepDone n i s
    else s
  | none => s

-- ---------------------------------------------------------------- completions (R114 to R129)

/-- FPn_STAT.STUCK follows the conditions (R119). -/
def stuckStat (n : Nat) (s : State) : State :=
  setFlag (R.FP_STAT n) F.FP_STAT_STUCK (!(portGet s n).stuckStreams.isEmpty || !(portGet s n).stuckSel.isEmpty) s

/-- A condition of a list comes or ends. -/
def condSet (l : List Nat) (x : Nat) (b : Bool) : List Nat := l.filter (· != x) ++ (if b then [x] else [])

/-- The all-ones run of a select after a transaction, and whether it completes with STUCK (R117, R119). NONES = 0 as the transaction began
ends the run and the condition. (DEDUCED, notes/assumptions/61.md.) -/
def onesRun (n sel : Nat) (t : TxnS) (s : State) : Bool × State :=
  if !t.bits then (false, s)
  else
    let r := if t.zeros || t.stuck = 0 then 0 else tabGet (fun _ => 0) (portGet s n).ones sel + 1
    let st := t.stuck != 0 && decide (r ≥ t.stuck)
    (st, stuckStat n (portMod n (fun p => { p with ones := tabSet (fun _ => 0) p.ones sel r, stuckSel := condSet p.stuckSel sel st }) s))

/-- The faults of a transaction: each that applied sets its event and counts once, whatever the outcome (R114, R117, R129, R156, R159);
the outcome is the first of R129. (DEDUCED, notes/assumptions/61.md.) -/
def judgeTxn (n k : Nat) (t : TxnS) (o : Nat) (s : State) : Nat × State :=
  let few := t.few || decide (t.read < t.drove)
  let many := t.many || decide (t.drove < t.read)
  let s := onlyIf few (fun s => evt (R.FP_EVT n) F.FP_EVT_TOO_FEW (cnt (R.FP_CNT n 3) s)) s
  let s := onlyIf many (fun s => evt (R.FP_EVT n) F.FP_EVT_TOO_MANY (cnt (R.FP_CNT n 3) s)) s
  let r := onesRun n (cSel s k) t s
  let s := onlyIf r.1 (fun s => evt (R.FP_EVT n) F.FP_EVT_STUCK (cnt (R.FP_CNT n 4) s)) r.2
  (if o ≠ 0 then o else if r.1 then 4 else if few then 2 else if many then 3 else 0, s)

/-- FPn_LAST and the outcome counters (R157, R159). -/
def noteLast (n i k o c : Nat) (race : Bool) (s : State) : State :=
  let v := 2 ^ 31 + k * 2 ^ 16 + (if o = 1 then c else 0) * 2 ^ 12 + b2n race * 2 ^ 11 + cSel s k * 2 ^ 8 + i * 2 ^ 4 + o
  let s := setReg (R.FP_LAST n) (wordOf v) s
  let s := onlyIf (o == 0) (cnt (R.FP_CNT n 0)) s
  onlyIf (o == 1) (fun s => evt (R.FP_EVT n) F.FP_EVT_TIMEOUT (cnt (R.FP_CNT n 2) s)) s

/-- The record stamp of a completion and whether it is the FRAME stamp in place of an invalid one (R124). (DEDUCED, notes/assumptions/61.md.) -/
def recordStamp (s : State) (k : Nat) (t : TxnS) : Nat × Bool × Bool :=
  let frame := t.tsFrame.getD (fieldNs s, stampHold s)
  match fld s (R.CTX_CTL k) F.CTX_CTL_TSSEL with
  | 1 => match t.tsDr with | some x => (x.1, x.2, false) | none => (frame.1, frame.2, true)
  | 2 => match t.tsTrig with | some x => (x.1, x.2, false) | none => (frame.1, frame.2, true)
  | _ => (frame.1, frame.2, false)

/-- The sample of a completion is handed on: to the filter slots of its context, or to the record builder, which verifies the CK-A of
each STORE field: `cka` of them fail (R43, R46, R48, R125, R214, R265, R271). -/
def deliver (k : Nat) (t : TxnS) (marked : Bool) (cka : Nat) (s : State) : State :=
  let st := recordStamp s k t
  let fl := flIf t.late flLate + flIf t.cu flCu + flIf st.2.1 flHoldover + flIf t.race flRace + flIf st.2.2 flStamp
  if cFen s k then
    eachOf ((ctxSlots s k).zip t.stores)
      (fun (x : (Nat × Nat) × Int) s => wordInput x.1.1 x.1.2 { val := x.2, ts := st.1, tn := t.tn, flags := fl } marked t.ckp s) s
  else
    let bad := min cka t.stores.length
    handOn k t.stores st.1 t.tn (fl + flIf t.alert flAlert + flIf (marked || t.ckp || bad != 0) flCorrupt) (onlyIf (bad != 0) (hubCount 1 bad) s)

/-- A PRESENT identity slot becomes ABSENT (R182): beside the STATUS record of the completion that found it stuck, each context of the
slot, that one among them, writes one with the ABSENT flag. (DEDUCED, notes/assumptions/62.md.) -/
def becomeAbsent (n i : Nat) (s : State) : State :=
  let s := evt (R.CW_EVT n) F.CW_EVT_ABSENT (setFld (R.CW_STAT n) (idFld i) 2 s)
  let s := portMod n (fun p => { p with idAt := tabSet (fun _ => 0) p.idAt i s.elapsed }) s
  eachOf (idCtxs s n i) (fun k s => statusChange k flAbsent s) s

/-- The first context that waits for a slot, and may still be issued, is issued into a free one (R183, R219, R229). One whose queue holds its
source leaves the list and is issued when its hold ends. -/
def issueWaiters (n : Nat) : List Nat → State → State
  | [], s => portMod n (fun p => { p with waiters := [] }) s
  | k :: rest, s =>
    match (ctxGet s k).sched, freeSlot s n with
    | some (nom, due), some i =>
      if !issuable s k then issueWaiters n rest s
      else if ctxAbsent s k then issueWaiters n rest (skipAbsent k nom s)
      else issueNow k i nom due (tileReady (n / 8) due (portMod n (fun p => { p with waiters := rest }) s))
    | none, _ => issueWaiters n rest s
    | _, none => portMod n (fun p => { p with waiters := k :: rest }) s

def issueWaiter (n : Nat) (s : State) : State :=
  if (portGet s n).waiters.isEmpty then s else issueWaiters n (portGet s n).waiters s

/-- What a completion comes to at FH, with its outcome, cause and time (R125, R127, R129, R182, R205). -/
def handTxn (n i : Nat) (t : TxnS) (o c cka at_ : Nat) (s : State) : State :=
  let k := t.ctx
  let s :=
    if o = 0 || o = 2 || o = 3 then deliver k t (o != 0) cka s
    else
      let s := writeStatus k t.tn o (if o = 1 then c else 0) (if t.wired then t.attempts - 1 else 0) n (cSel s k) i t.lag
        (flIf t.late flLate + flIf t.cu flCu + flIf t.race flRace + flIf (cAlert s k) flAlert + flIf (ctxQuar s k) flQuar) at_ s
      ctxMod k (fun c => if cFen s k then c else { c with nextSample := (t.tn + 1) % 2 ^ 16 }) s
  let s := match ctxIdSlot s k with
    | some x => if o = 4 && idState s n x == 1 then becomeAbsent n x s else s
    | none => s
  if cState s k == stStopping then stopCtx k s else if cState s k == stRemoving then freeCtx k s else s

/-- FH is in a reset that does not reach the tiles' own work. -/
def fhAway (s : State) : Bool := s.boot.inReset.contains .fh

/-- Bytes that one item takes in a tile's outbound buffer. (DESIGN CHOICE, notes/assumptions/63.md.) -/
def itemBytes : Nat := 64

/-- The 16 KiB outbound buffer of a tile is full (R67). -/
def outFull (s : State) (t : Nat) : Bool := decide ((tileGet s t).outbox.length * itemBytes + itemBytes > 16384)

/-- An item joins the tile's outbound buffer. -/
def boxItem (t : Nat) (x : OutItem) (s : State) : State := tileMod t (fun u => { u with outbox := u.outbox ++ [x] }) s

/-- The completion of a slot leaves its port, and reaches FH or the tile's outbound buffer (R67, R125 to R129, R157, R219, R612). -/
def completeTxn (n i cka : Nat) (s : State) : State :=
  match slotGet s n i with
  | none => s
  | some t =>
    match t.fin with
    | none => s
    | some (o0, c) =>
      let j := judgeTxn n t.ctx t o0 s
      let s := slotSet n i none (noteLast n i t.ctx j.1 c t.race j.2)
      issueWaiter n (if fhAway s then boxItem (n / 8) (.completion n i t j.1 c cka (statusTime s)) s
                     else handTxn n i t j.1 c cka (statusTime s) s)

-- ---------------------------------------------------------------- enabling and disabling (R75 to R81)

/-- The identity slots of a port that are in use. -/
def usedIds (s : State) (n : Nat) : List Nat := (List.range 3).filter (idUsed s n)

/-- A port becomes enabled (R75, R98, R109, R180). The runs and conditions of R117 to R119 stay as they are. (DEDUCED, notes/assumptions/61.md.) -/
def portOn (n : Nat) (s : State) : State :=
  let firstIds := (usedIds s n).filter (fun i => idState s n i == 0 && !(portGet s n).idDue.contains i)
  let s := portMod n (fun p => { p with driven := fld s (R.FP_CTL n) F.FP_CTL_MODE != 0, disabling := none, drEdge := [], lastLvl := [],
                                        runLim := fld s (R.FP_STUCK n) F.FP_STUCK_RUN,
                                        blk := false, clkRun := 0, blkBad := false, clkGap := none, idDue := p.idDue ++ firstIds }) s
  setFlag (R.FP_STAT n) F.FP_STAT_CLKOK false s

/-- Every slot but the one on the wire completes with DISABLED; in bitstream mode the partial block is discarded (R79, R80). The outputs
are released once the transaction on the wire has ended and its select is released. (DEDUCED, notes/assumptions/61.md.) -/
def portOff (n : Nat) (s : State) : State :=
  let holder := (portGet s n).wire
  let s := eachOf (List.range 8) (fun i s =>
    match slotGet s n i with
    | some t => if holder == some i || t.fin.isSome then s else finish n i 7 0 s
    | none => s) s
  let s := portMod n (fun p => { p with disabling := holder, driven := holder.isSome, offAt := if holder.isSome then p.offAt else max s.elapsed p.relAt,
                                        blk := false, clkRun := 0, lastLvl := [], clkGap := none }) s
  setFlag (R.FP_STAT n) F.FP_STAT_CLKOK false s

-- ---------------------------------------------------------------- bitstream mode (R93 to R101, R118, R136)

/-- The running context of a stream of a port. -/
def streamCtx (s : State) (n sel : Nat) : Option Nat :=
  (List.range 512).find? (fun k => cState s k == stRunning && cPort s k == n && cSel s k == sel && cFen s k)

/-- The bitstream contexts of a port that run. -/
def bitCtxs (s : State) (n : Nat) : List Nat := (List.range 512).filter (fun k => cState s k == stRunning && cPort s k == n && cBit s k)

/-- A block of one stream goes to its filter slot (R95, R247). -/
def feedBlock (n sel : Nat) (bits : BitVec 256) (st : Nat × List (Nat × Int)) (hold marked : Bool) (s : State) : State :=
  match streamCtx s n sel with
  | some k => blockInput (n / 8) (cSlot s k) { bits := bits, ts := st.1, hold := hold, steps := st.2 } marked s
  | none => s

/-- The sampling edges at the end of a block that hold its last level. -/
def tailRun (bits : BitVec 256) : Nat :=
  (((List.range 256).reverse).takeWhile (fun i => bits.getLsbD i == bits.getLsbD 255)).length

/-- A stream's level and run after a block. Its stuck condition ends at its first change of level, within the block or at its start; the
run in progress at the block's end is a condition of its own once it has RUN × 16 edges (R118, R119). (DEDUCED, notes/assumptions/61.md.) -/
def streamMoves (n sel : Nat) (bits : BitVec 256) (s : State) : State :=
  let last := bits.getLsbD 255
  let whole := tailRun bits == 256
  let prev := tabGet (fun _ => none) (portGet s n).lastLvl sel
  let joins := match prev with | some (b, _) => b == last | none => true
  let len := tailRun bits + (if whole && joins then (match prev with | some (_, r) => r | none => 0) else 0)
  stuckStat n (portMod n (fun p => { p with
    lastLvl := tabSet (fun _ => none) p.lastLvl sel (some (last, len))
    stuckStreams := if whole && joins then p.stuckStreams else condSet p.stuckStreams sel (p.runLim != 0 && decide (len ≥ 16 * p.runLim)) }) s)

/-- An entry of the field side has passed AP1: SCK of bitstream ports has stopped (R679). -/
def bitsGated (s : State) : Bool := s.pow.field.st = .entering && decide (s.pow.field.ap ≥ 1)

/-- The clock of the port is watched: it is enabled in bitstream mode with its supply, outside a reset and a gate (R97, R679). -/
def clkWatched (s : State) (n : Nat) : Bool :=
  flag s (R.FP_CTL n) F.FP_CTL_EN && portBit s n && (portGet s n).bankOk && !portInReset s n && !bitsGated s

/-- 16 good periods: CLKOK becomes 1 and blocks begin; after a loss the slots of the port restart and a GAP record falls due (R97, R98,
R100, R141, R143, R280). -/
def clockGood (n : Nat) (s : State) : State :=
  let fresh := !flag s (R.FP_STAT n) F.FP_STAT_CLKOK && !(portGet s n).blk
  let run := fld s R.TB_STAT F.TB_STAT_FSTATE != 0
  let gap := (portGet s n).clkGap
  let s := match gap with
    | some (cause, at_) => eachOf (bitCtxs s n) (fun k s => gapMark k cause at_ (ctxRestart k (closeRec k s))) s
    | none => s
  setFlag (R.FP_STAT n) F.FP_STAT_CLKOK true
    (portMod n (fun p => { p with clkGap := none, blk := run, clkRun := 16, blkBad := if fresh then false else p.blkBad
                                  runLim := if fresh then fld s (R.FP_STUCK n) F.FP_STUCK_RUN else p.runLim }) s)

/-- One SCK period is measured (R97, R99): one outside the limits clears CLKOK and counts, the 16th good one in a row sets it. -/
def clkPeriod (n p : Nat) (s : State) : State :=
  if p < fld s (R.FP_CLKMON n) F.FP_CLKMON_PMIN || decide (fld s (R.FP_CLKMON n) F.FP_CLKMON_PMAX < p) then
    setFlag (R.FP_STAT n) F.FP_STAT_CLKOK false
      (portMod n (fun u => { u with clkRun := 0, blkBad := true }) (evt (R.FP_EVT n) F.FP_EVT_CLK_RANGE (cnt (R.FP_CNT n 5) s)))
  else if (portGet s n).clkRun + 1 = 16 && !flag s (R.FP_STAT n) F.FP_STAT_CLKOK then clockGood n s
  else portMod n (fun u => { u with clkRun := min 16 (u.clkRun + 1) }) s

/-- The SCK periods measured since the last row that named any. -/
def clkPeriods (n : Nat) (periods : List Nat) (s : State) : State := onlyIf (clkWatched s n) (eachOf periods (clkPeriod n)) s

/-- Both streams complete a block (R95 to R99, R114, R115). A block is marked where CLKOK was 0 at one of its periods. The settings of R78
are latched for the next one. -/
def blockDone (n : Nat) (a b : BitVec 256) (edges age : Nat) (periods : List Nat) (s : State) : State :=
  let taken := (portGet s n).blk && clkWatched s n && fld s R.TB_STAT F.TB_STAT_FSTATE != 0
  let s := clkPeriods n periods s
  if !taken then s
  else
    let supplied := !flag s (R.FP_BCFG n) F.FP_BCFG_CLKSRC
    let edge := supplied && edges != 512
    let s := onlyIf edge (fun s => evt (R.FP_EVT n) (if edges < 512 then F.FP_EVT_TOO_FEW else F.FP_EVT_TOO_MANY) (cnt (R.FP_CNT n 3) s)) s
    let marked := (portGet s n).blkBad || edge
    let st := stampBack s age
    let ts := st.1
    let hold := stampHold s
    let s := setReg (R.FP_TSNS n) (wordOf (tNs ts)) (portMod n (fun p => { p with lastSec := wordOf (tSecLo ts) }) s)
    let s := if flag s (R.FP_BCFG n) F.FP_BCFG_AEN then streamMoves n 0 a (feedBlock n 0 a st hold marked s) else s
    let s := if flag s (R.FP_BCFG n) F.FP_BCFG_BEN then streamMoves n 1 b (feedBlock n 1 b st hold marked s) else s
    portMod n (fun p => { p with blkBad := !flag s (R.FP_STAT n) F.FP_STAT_CLKOK, runLim := fld s (R.FP_STUCK n) F.FP_STUCK_RUN }) s

/-- The clock monitor finds no edge for 2 × PMAX; an edge in the same cycle wins (R100, R136, R137). (DEDUCED, notes/assumptions/61.md.) -/
def clockLost (n : Nat) (same : Bool) (periods : List Nat) (s : State) : State :=
  let s := clkPeriods n periods s
  if !clkWatched s n then s
  else if same then evt (R.FP_EVT n) F.FP_EVT_RACE (raceField s)
  else
    let now := fieldNs s
    let s := evt (R.FP_EVT n) F.FP_EVT_CLK_LOST (cnt (R.FP_CNT n 5) (setFlag (R.FP_STAT n) F.FP_STAT_CLKOK false s))
    portMod n (fun p => { p with blk := false, clkRun := 0, lastLvl := [], clkGap := some (p.clkGap.getD (1, now)) }) s

/-- 16 good periods have passed, after those the row names (R97). -/
def clockOk (n : Nat) (periods : List Nat) (s : State) : State :=
  let s := clkPeriods n periods s
  onlyIf (clkWatched s n) (clockGood n) s

/-- A stream has held one level for RUN × 16 edges (R118): once for each run. -/
def streamStuckAt (n sel : Nat) (s : State) : State :=
  let en := flag s (R.FP_BCFG n) (if sel = 0 then F.FP_BCFG_AEN else F.FP_BCFG_BEN)
  if !(flag s (R.FP_CTL n) F.FP_CTL_EN && portBit s n && en) || (portGet s n).runLim == 0 then s
  else
    let s := evt (R.FP_EVT n) F.FP_EVT_STUCK (cnt (R.FP_CNT n 4) s)
    stuckStat n (portMod n (fun p => { p with stuckStreams := condSet p.stuckStreams sel true }) s)

/-- A bitstream port that is on stops: the partial block is discarded and the loss falls due in a GAP record, cause RESTART (R141, R679). -/
def bitsStop (n : Nat) (s : State) : State :=
  let s := portMod n (fun p => { p with clkRun := 0 }) s
  if portBit s n && flag s (R.FP_CTL n) F.FP_CTL_EN then
    let now := fieldNs s
    setFlag (R.FP_STAT n) F.FP_STAT_CLKOK false
      (portMod n (fun p => { p with blk := false, clkGap := some (p.clkGap.getD (2, now)) }) s)
  else s

/-- FSTATE leaves NOTIME: ports whose clock is good begin blocks (R98); it enters NOTIME: blocks stop. -/
def blocksFollow (on : Bool) (s : State) : State :=
  eachOf (List.range 48) (fun n s =>
    if !portBit s n then s
    else portMod n (fun p => { p with blk := on && flag s (R.FP_STAT n) F.FP_STAT_CLKOK && flag s (R.FP_CTL n) F.FP_CTL_EN, blkBad := false }) s) s

-- ---------------------------------------------------------------- the release periods and the bank (R140, R142, R143)

/-- The release periods of R140 run from now: 8 SCK periods, and the idle gap after them. -/
def releaseSeq (n : Nat) (s : State) : State :=
  let e := s.elapsed + 16 * halfNs s n
  portMod n (fun p => { p with relseq := some e, relSlot := none, relSel := none, relAt := 0, freeAt := e + fld s (R.FP_GAP n) F.FP_GAP_IDLE * halfNs s n, driven := true }) s

/-- Every transaction of a port stops with an outcome (R138, R142). -/
def stopSlots (n o : Nat) (s : State) : State :=
  eachOf (List.range 8) (fun i s =>
    match slotGet s n i with
    | some t => if t.fin.isSome then s else stopNow n i o s
    | none => s) s

/-- The bank of a port drops (R142, R143). (DEDUCED, notes/assumptions/57.md.) -/
def bankLost (n : Nat) (s : State) : State :=
  let s := evt (R.FP_EVT n) F.FP_EVT_BANK_DOWN (stopSlots n 5 s)
  let bit := portBit s n && flag s (R.FP_CTL n) F.FP_CTL_EN
  let now := fieldNs s
  let s := portMod n (fun p => { p with bankOk := false, bankV := 0, driven := false, disabling := none, offAt := 0, relseq := none, relSlot := none, relSel := none, relAt := 0,
                                        blk := false, clkRun := 0, lastLvl := [],
                                        clkGap := if bit then some (p.clkGap.getD (1, now)) else p.clkGap }) s
  setFlag (R.FP_STAT n) F.FP_STAT_CLKOK false s

/-- The voltage class of a supply in millivolts: 0 none, 1 1.8 V, 2 2.5 V, 3 3.3 V (R73, R778). -/
def bankClass (mv : Nat) : Nat :=
  if 1620 ≤ mv ∧ mv ≤ 1980 then 1 else if 2250 ≤ mv ∧ mv ≤ 2750 then 2 else if 2970 ≤ mv ∧ mv ≤ 3630 then 3 else 0

/-- The bank of a port takes its class (R778): not while it has one, and not outside every window (R779). -/
def bankTakes (s : State) (n mv : Nat) : Bool := !(portGet s n).bankOk && bankClass mv != 0

/-- The bank of a port is good again (R143, R180, R778): an enabled port drives its outputs and runs the release periods. (DEDUCED,
notes/assumptions/57.md.) -/
def bankGood (n mv : Nat) (s : State) : State :=
  if !bankTakes s n mv then s
  else
    let s := portMod n (fun p => { p with bankOk := true, bankV := bankClass mv, idDue := p.idDue ++ (usedIds s n).filter (fun i => !p.idDue.contains i) }) s
    if flag s (R.FP_CTL n) F.FP_CTL_EN && fld s (R.FP_CTL n) F.FP_CTL_MODE != 0 && !bankHeld s n then releaseSeq n s else s

/-- The ports of a tile. -/
def tilePorts (t : Nat) : List Nat := (List.range 8).map (8 * t + ·)

-- ---------------------------------------------------------------- filter outputs (R203, R231, R249, R267, R268, R275)

/-- A residue failure: it is counted, the slots of the context restart together (R275), and a GAP record falls due (R268, R280,
R282). (DEDUCED, notes/assumptions/53.md.) -/
def residueFails (t f : Nat) (s : State) : State :=
  let k := slCtx s t f
  let now := fieldNs s
  gapMark k 2 now (ctxRestart k (closeRec k (evt (R.FT_FLT_EVT t) F.FT_FLT_EVT_DBE (cnt (R.FT_FLT_CNT_DBE t) s))))

/-- The outputs that are complete in every slot of the context reach FH; for a bitstream context it is the boundary of R203 and R231.
(DEDUCED, notes/assumptions/49.md.) -/
def outputHands (t f : Nat) (s : State) : State :=
  let k := slCtx s t f
  let s := handOutputs k ((filtGet s (slotIx t f)).ready.length + 1) s
  if slBit s t f then switchProfile k (boundary k s) else s

/-- An output completes, and reaches FH or the tile's outbound buffer (R67, R249, R612). -/
def outputDone (t f : Nat) (err : FiltErr) (s : State) : State :=
  let s := slOutput t f err s
  if fhAway s then boxItem t (.output f) s else outputHands t f s

/-- FH is back: what waits in a tile's outbound buffer reaches it, oldest first (R67, R612). -/
def drainBox (t : Nat) (s : State) : State :=
  let l := (tileGet s t).outbox
  eachOf l (fun x s =>
    match x with
    | .completion n i u o c cka at_ => handTxn n i u o c cka at_ s
    | .output f => if slBound s t f then outputHands t f s else s) (tileMod t (fun u => { u with outbox := [] }) s)

-- ---------------------------------------------------------------- the load window (R234, R242)

/-- The 1 ms window of a port ends, and the next begins. A hold gap that runs past its end belongs to the next one. -/
def loadEnd (n : Nat) (s : State) : State :=
  let s := toElapsed ((portGet s n).loadAt + 1000000) s
  let p := portGet s n
  let rest := if p.wire.isNone && p.relSlot.isSome then p.relAt - s.elapsed else 0
  let held := p.wireAcc + (if p.wire.isSome then s.elapsed - p.wireSince else 0) - rest
  let load := min (held * 4096 / 1000000) 0xFFFF
  let s := portMod n (fun p => { p with wireAcc := min rest p.wireAcc, wireSince := s.elapsed, loadAt := s.elapsed }) s
  let s := setFld (R.SQ_LOAD n) F.SQ_LOAD_LOAD load s
  let s := setFld (R.SQ_PEAK n) F.SQ_PEAK_PEAK (max (fld s (R.SQ_PEAK n) F.SQ_PEAK_PEAK) load) s
  onlyIf (decide (load > fld s (R.FT_SQ_CTL (n / 8)) F.FT_SQ_CTL_WARN)) (loadHi n) s

end Sys2Proof.Machine
end

