-- ==== Sys2Proof/Machine/PtpWire.lean ====
section
/-! DEFINITION. The bytes of a PTP message that leaves, each field in network byte order (R11, R340 to R343). -/

namespace Sys2Proof.Machine

/-- A timestamp field: 48 bits of seconds and 32 bits of nanoseconds. (PRESUMED, notes/assumptions/22.md.) -/
def ptpStamp (ns : Nat) : List Byte := beBytes 6 (ns / secNs) ++ beBytes 4 (ns % secNs)

/-- The fields of the header that differ from message to message. -/
structure PtpHead where
  kind : Nat
  version : Nat := 0x12
  domain : Nat
  flags : Nat := 0
  /-- correctionField in 2^-16 ns. -/
  corr : Int := 0
  srcId : Nat
  srcPort : Nat := 1
  seq : Nat
  logInt : Nat := 0x7F
  deriving DecidableEq, Repr

/-- A message: the header of 34 bytes and the body, every field in network byte order (R11). (PRESUMED, notes/assumptions/22.md.) -/
def ptpBytes (h : PtpHead) (body : List Byte) : List Byte :=
  beBytes 1 h.kind ++ beBytes 1 h.version ++ beBytes 2 (34 + body.length) ++ beBytes 1 h.domain ++ beBytes 1 0 ++ beBytes 2 h.flags ++
  beBytes 8 (h.corr % 2 ^ 64).toNat ++ beBytes 4 0 ++ beBytes 8 h.srcId ++ beBytes 2 h.srcPort ++ beBytes 2 h.seq ++ beBytes 1 0 ++
  beBytes 1 h.logInt ++ body

/-- The part of an Announce after its timestamp. -/
def announceBody (utc prio1 cls acc var prio2 gmId steps source : Nat) : List Byte :=
  beBytes 2 utc ++ beBytes 1 0 ++ beBytes 1 prio1 ++ beBytes 1 cls ++ beBytes 1 acc ++ beBytes 2 var ++ beBytes 1 prio2 ++ beBytes 8 gmId ++
  beBytes 2 steps ++ beBytes 1 source

/-- The twoStepFlag and the currentUtcOffsetValid flag in flagField. -/
def ptpFlags (two utc : Bool) : Nat := b2n two * 0x200 + b2n utc * 4

/-- An event message: one that is stamped (R340, R341). -/
def ptpIsEvent (kind : Nat) : Bool := decide (kind ≤ 3)

/-- A received message as the transparent clock passes it on: the residence time is added to correctionField of an event message
(R343). Fields that the row does not carry are zero here. (PRESUMED, notes/assumptions/22.md.) -/
def ptpForwarded (m : PtpMsg) (residence : Nat) : List Byte :=
  let body :=
    if m.kind = 11 then announceBody m.utcOff.toNat m.prio1 m.cls m.acc m.var m.prio2 m.gmId m.steps 0
    else if m.kind = 3 ∨ m.kind = 9 ∨ m.kind = 10 then beBytes 8 m.reqId ++ beBytes 2 0
    else if m.kind = 2 then beBytes 10 0
    else []
  ptpBytes { kind := m.kind, version := m.minor * 16 + m.version, domain := m.domain, flags := ptpFlags m.twoStep m.utcValid
             corr := if ptpIsEvent m.kind then m.corr + residence else m.corr, srcId := m.srcId, srcPort := m.srcPort, seq := m.seqId, logInt := 0 }
    (ptpStamp m.origin ++ body)

end Sys2Proof.Machine
end

