-- ==== Sys2Proof/Machine/Time.lean ====
section
/-! DEFINITION. Device time: the servo, steps, the exchange, oscillators, PPS_IN, class-2 pulses and the PTP engine (R296 to
R366). -/

namespace Sys2Proof.Machine

-- ---------------------------------------------------------------- servo states (R319, R344)

def tbState (s : State) : Nat := fld s R.TB_STAT F.TB_STAT_STATE
def tbSrc (s : State) : Nat := fld s R.TB_CTL F.TB_CTL_SRC
def tbEn (s : State) : Bool := flag s R.TB_CTL F.TB_CTL_EN
def fState (s : State) : Nat := fld s R.TB_STAT F.TB_STAT_FSTATE
def pState (s : State) : Nat := fld s R.TB_PTP_STAT F.TB_PTP_STAT_PSTATE
def setPState (x : Nat) (s : State) : State := setFld R.TB_PTP_STAT F.TB_PTP_STAT_PSTATE x s

/-- The PTP port is SLAVE with the servo LOCKED to it and no sample refused, UNCALIBRATED otherwise (R344). -/
def ptpFollow (s : State) : State :=
  if pState s == 8 || pState s == 9 then
    setPState (if tbState s == 2 && tbSrc s == 1 && !flag s R.TB_STAT F.TB_STAT_PEND then 9 else 8) s
  else s

/-- STATE follows EN and SRC (R319). -/
def servoEnables (s : State) : State :=
  ptpFollow (
    if !tbEn s || tbSrc s == 0 then setFld R.TB_STAT F.TB_STAT_STATE 0 s
    else if tbState s == 0 then setFld R.TB_STAT F.TB_STAT_STATE 1 s
    else s)

/-- LOCKCNT has reached LOCKN (R319). -/
def lockCheck (s : State) : State :=
  if (tbState s == 1 || tbState s == 3) && decide (fld s R.TB_STAT F.TB_STAT_LOCKCNT ≥ fld s R.TB_LOCK F.TB_LOCK_LOCKN) then
    evt R.TB_EVT F.TB_EVT_LOCK (setFld R.TB_STAT F.TB_STAT_STATE 2 s)
  else s

/-- TB_OFFS, saturating (R364). -/
def setOffs (theta : Int) (s : State) : State := setReg R.TB_OFFS (BitVec.ofInt 32 (max (-2147483647) (min 2147483647 theta))) s

-- ---------------------------------------------------------------- the servo (R315 to R318)

def freqLim : Int := 500000000

/-- I + KI × u and KP × u + I in binary64, in 0.001 ppb, rounded to even and then clamped (R315, R317). -/
def gainOf (w : Word) : Rat := ((w.toNat : Nat) : Rat) / 16777216

def servoI (ki : Word) (i : Int) (u : Rat) : Int :=
  max (-freqLim) (min freqLim (roundEven (f64 (f64 ((i : Rat) / 1000) + f64 (gainOf ki * u)) * 1000)))

def servoF (kp : Word) (i : Int) (u : Rat) : Int :=
  max (-freqLim) (min freqLim (roundEven (f64 (f64 (gainOf kp * u) + f64 ((i : Rat) / 1000)) * 1000)))

/-- τ in seconds, clamped (R315). -/
def servoTau (dt : Nat) : Rat :=
  let t : Rat := f64 (((dt : Nat) : Rat) / ((nsU * secNs : Nat) : Rat))
  if t < 1 / 128 then 1 / 128 else if 2 < t then 2 else t

/-- WAKEBOUND in ns (R315). -/
def wakeBound (s : State) : Nat := 1000 + 20 * (reg s R.TB_LASTSLP).toNat

/-- A step is asked for at the first master tick 32 µs from now (R322). -/
def askStep (amt : StepAmt) (cmd : Option (Partner × Cmd)) (s : State) : State :=
  { s with tm := { s.tm with step := s.tm.step ++ [{ amt := amt, at_ := s.tm.master + 32000 * nsU, cmd := cmd }] } }

/-- A sample is refused (R315, R318, R319). -/
def servoRefuse (theta : Int) (s : State) : State :=
  let s := setFld R.TB_STAT F.TB_STAT_LOCKCNT 0 (setFlag R.TB_STAT F.TB_STAT_PEND true s)
  let s := { s with tm := { s.tm with refused := theta, refcnt := s.tm.refcnt + 1 } }
  let s := setOffs theta (cnt R.TB_CNT_REF (evt R.TB_EVT F.TB_EVT_STEP_REFUSED s))
  if s.tm.refcnt ≥ fld s R.TB_HOLD F.TB_HOLD_REFN then enterHoldover s else s

/-- A sample is accepted (R315). -/
def servoAccept (theta : Int) (s : State) : State :=
  let s := setFlag R.TB_STAT F.TB_STAT_PEND false { s with tm := { s.tm with refcnt := 0 } }
  let s := match s.tm.last with
    | some l =>
      let u := f64 ((theta : Rat) / servoTau (s.tm.master - l))
      let i := servoI (reg s R.TB_KI) s.tm.integ u
      setReg R.TB_FREQ (BitVec.ofInt 32 (servoF (reg s R.TB_KP) i u)) { s with tm := { s.tm with integ := i } }
    | none => s
  let s := { s with tm := { s.tm with last := some s.tm.master } }
  let n := fld s R.TB_STAT F.TB_STAT_LOCKCNT
  let s := setFld R.TB_STAT F.TB_STAT_LOCKCNT (if theta.natAbs ≤ fld s R.TB_LOCK F.TB_LOCK_THR then min (n + 1) 255 else 0) s
  lockCheck (setOffs theta s)

/-- The servo judges a sample from the selected source (R314, R315). -/
def servoSample (theta : Int) (s : State) : State :=
  if !tbEn s then setOffs theta s
  else
    let first := s.tm.firstSinceWake
    let s := { s with tm := { s.tm with firstSinceWake := false } }
    ptpFollow (
      if !flag s R.TB_STAT F.TB_STAT_ISTEPDONE && flag s R.TB_CTL F.TB_CTL_INITSTEP then
        askStep (.add (theta * nsU)) none (setFlag R.TB_STAT F.TB_STAT_ISTEPDONE true s)
      else if first && flag s R.TB_CTL F.TB_CTL_WAKESTEP && decide (theta.natAbs ≤ wakeBound s) then askStep (.add (theta * nsU)) none s
      else if theta.natAbs > (reg s R.TB_STEP_LIM).toNat then servoRefuse theta s
      else servoAccept theta s)

-- ---------------------------------------------------------------- pulses (R350 to R358)

def plsStart (s : State) (i : Nat) : Nat :=
  ((reg s (R.TB_PLS_SECLO i)).toNat + (reg s (R.TB_PLS_SECHI i)).toNat * 2 ^ 32) * secNs + (reg s (R.TB_PLS_NS i)).toNat

def plsPer (s : State) (i : Nat) : Nat := (reg s (R.TB_PLS_PERLO i)).toNat + fld s (R.TB_PLS_PERHI i) F.TB_PLS_PERHI_PER * 2 ^ 32
def plsWidth (s : State) (i : Nat) : Nat := (reg s (R.TB_PLS_WIDTH i)).toNat
def plsMode (s : State) (i : Nat) : Nat := fld s (R.TB_PLS_CTL i) F.TB_PLS_CTL_MODE
def plsEn (s : State) (i : Nat) : Bool := flag s (R.TB_PLS_CTL i) F.TB_PLS_CTL_EN
def plsIdle (s : State) (i : Nat) : Bool := flag s (R.TB_PLS_CTL i) F.TB_PLS_CTL_POL

/-- The earliest instant S0 + j × PER at or after t (R352, R356). -/
def plsNext (s0 per t : Nat) : Nat := if t ≤ s0 then s0 else s0 + ceilDiv (t - s0) (max 1 per) * max 1 per

/-- A value of a channel is out of its range (R355, R366). -/
def plsBad (s : State) (i mode : Nat) : Bool :=
  let per := plsPer s i
  let w := plsWidth s i
  decide (per < 100) || decide (per > 4294967295000) || decide (w < 10) || (mode == 1 && decide (w + 10 > per)) ||
  decide ((reg s (R.TB_PLS_NS i)).toNat ≥ secNs)

/-- n instants were not driven. -/
def plsMissed (i n : Nat) (s : State) : State :=
  onlyIf (n != 0) (fun s => evt R.TB_EVT F.TB_EVT_MISSED (cntFld (R.TB_PLS_CNT i) F.TB_PLS_CNT_MISSED n s)) s

/-- A channel stops: its pin is released unless a pulse is in progress (R353, R358). -/
def plsStop (i : Nat) (s : State) : State :=
  pulseMod i (fun p => { p with next := none, driven := p.active.isSome }) (setFlag (R.TB_PLS_CTL i) F.TB_PLS_CTL_EN false s)

/-- A channel is enabled at device time A (R351 to R353). -/
def plsStartUp (i : Nat) (s : State) : State :=
  let a := masterNs s
  let s0 := plsStart s i
  let idle := plsIdle s i
  let s := pulseMod i (fun p => { p with driven := true, level := if p.active.isSome then p.level else idle }) s
  match plsMode s i with
  | 0 => if s0 < a + 1000 then plsStop i (plsMissed i 1 s) else pulseMod i (fun p => { p with next := some s0 }) s
  | 1 => pulseMod i (fun p => { p with next := some (plsNext s0 (plsPer s i) (a + 1000)) }) s
  | _ => pulseMod i (fun p => { p with next := none }) s

/-- A leading edge is driven now (R351). -/
def plsEdge (i : Nat) (s : State) : State :=
  let t := masterNs s
  let idle := plsIdle s i
  let s := pulseMod i (fun p => { p with active := some s.elapsed, level := !idle, driven := true, lastSec := wordOf (tSecLo t) }) s
  setReg (R.TB_PLS_LASTNS i) (wordOf (tNs t)) s

/-- The next instant of a ONCE or PERIODIC channel comes (R351). -/
def plsInstant (i : Nat) (s : State) : State :=
  match (pulseGet s i).next with
  | some t =>
    if !plsEn s i then s
    else
      let s := toMaster (t * nsU) s
      if masterNs s < t then s
      else plsEdge i (pulseMod i (fun p => { p with next := if plsMode s i == 1 then some (t + max 1 (plsPer s i)) else none }) s)
  | none => s

/-- A pulse ends after WIDTH ns of elapsed time (R351, R353, R357, R358). -/
def plsEnd (i : Nat) (s : State) : State :=
  match (pulseGet s i).active with
  | some e =>
    let s := toElapsed (e + plsWidth s i) s
    let idle := plsIdle s i
    let s := pulseMod i (fun p => { p with active := none, level := idle }) s
    if plsEn s i && (plsMode s i != 0 || (pulseGet s i).next.isSome) then s else plsStop i s
  | none => s

/-- The list without its first occurrence of a number. -/
def dropNat (x : Nat) : List Nat → List Nat
  | [] => []
  | y :: rest => if y = x then rest else y :: dropNat x rest

/-- A Sieve action reaches channel i (R354). -/
def plsRequest (i : Nat) (s : State) : State :=
  if !s.sv.pulses.contains i then s
  else
    let s := { s with sv := { s.sv with pulses := dropNat i s.sv.pulses } }
    if plsEn s i && plsMode s i == 2 && (pulseGet s i).active.isNone then plsEdge i s
    else cntFld (R.TB_PLS_CNT i) F.TB_PLS_CNT_DROP 1 s

/-- A step reaches a channel (R356). The instants it passes over are those before the new time; one that then lies less than 1 µs ahead is
neither driven nor counted. (DEDUCED, notes/assumptions/62.md.) -/
def plsStep (i : Nat) (forward : Bool) (s : State) : State :=
  match (pulseGet s i).next with
  | none => s
  | some t =>
    let now := masterNs s
    if plsMode s i == 1 then
      let n := plsNext (plsStart s i) (plsPer s i) (now + 1000)
      let s := pulseMod i (fun p => { p with next := some n }) s
      if forward then plsMissed i (ceilDiv (now - t) (max 1 (plsPer s i))) s else s
    else if forward && decide (t < now) then plsStop i (plsMissed i 1 s)
    else s

-- ---------------------------------------------------------------- steps (R322 to R328, R230, R326, R487)

/-- A step reaches the field side: Trellis, schedules and filter stamps (R230, R326, R487). `amt` is in 2^-48 ns. -/
def fieldStepBy (amt : Int) (s : State) : State :=
  let old := fieldNs s
  let new := ((s.tm.field : Int) + amt).toNat
  let s := { s with tm := { s.tm with field := new, stepSum := s.tm.stepSum + new - s.tm.field } }
  let s := { s with tm := { s.tm with lastStep := some (s.elapsed, old, ((fieldNs s : Nat) : Int) - (old : Nat)) } }
  let s := trellisStep (fieldNs s) s
  let s := filterStep old (((fieldNs s : Nat) : Int) - (old : Nat)) s
  stepSchedules (decide (0 < amt)) (fieldNs s) s

/-- The response of a step command (R331). -/
def stepWords (amt : Int) (t : Nat) : List Word :=
  let ns := unsignedOf 64 (amt.fdiv nsU)
  [wordOf (ns % 2 ^ 32), wordOf (ns / 2 ^ 32), wordOf (tNs t), wordOf (tSecLo t)]

/-- The amount of a step applied at the present master time. -/
def stepAmount (s : State) : StepAmt → Int
  | .add d => d
  | .set v => (v : Int) - s.tm.master

/-- The instant of a step that waits, as a jump of the master timebase leaves it: as far ahead as before. -/
def laterStep (amt : Int) (q : StepReq) : StepReq := { q with at_ := ((q.at_ : Int) + amt).toNat }

/-- The instant of the field timebase's own step passes (R323). -/
def fieldStepNow (s : State) : State :=
  match s.tm.fieldStep with
  | q :: rest =>
    let s := toMaster q.at_ s
    if s.tm.master < q.at_ then s
    else fieldStepBy (stepAmount s q.amt) { s with tm := { s.tm with fieldStep := rest } }
  | [] => s

/-- The field timebase's own step comes before the next step of both. -/
def fieldStepFirst (s : State) : Bool :=
  match s.tm.fieldStep, s.tm.step with
  | f :: _, q :: _ => decide (f.at_ ≤ q.at_)
  | _ :: _, [] => true
  | [], _ => false

/-- A step instant passes (R316, R319, R322 to R327, R331). -/
def stepNow (s : State) : State :=
  if fieldStepFirst s then fieldStepNow s else
  match s.tm.step with
  | q :: rest =>
    let s := toMaster q.at_ s
    if s.tm.master < q.at_ then s
    else
      let amt := stepAmount s q.amt
      let new := ((s.tm.master : Int) + amt).toNat
      let s := { s with tm := { s.tm with master := new, step := rest.map (laterStep amt), fieldStep := s.tm.fieldStep.map (laterStep amt)
                                          last := none, refcnt := 0
                                          ptp := { s.tm.ptp with sync := none, t1t2 := none, dreq := none, presp := none } } }
      let s := setFlag R.TB_STAT F.TB_STAT_PEND false (evt R.TB_EVT F.TB_EVT_STEPPED (cnt R.TB_CNT_STEP s))
      let s := enterHoldover s
      let s := if anyLane s then (if fState s == 0 then s else fieldStepBy amt s)
               else { s with tm := { s.tm with fieldPend := s.tm.fieldPend + amt } }
      let s := eachOf (List.range 5) (fun i s => plsStep i (decide (0 < amt)) s) s
      let s := ptpFollow s
      match q.cmd with
      | some (p, c) => answerCmd p.val c stOK false (stepWords amt (masterNs s)) s
      | none => s
  | [] => s

/-- A lane enters SERVICE: a pending step goes to the field side (R323). -/
def sendPendingStep (s : State) : State :=
  if s.tm.fieldPend = 0 then s
  else if fState s == 0 then { s with tm := { s.tm with fieldPend := 0 } }
  else { s with tm := { s.tm with fieldPend := 0, fieldStep := s.tm.fieldStep ++ [{ amt := .add s.tm.fieldPend, at_ := s.tm.master + 32000 * nsU, cmd := none }] } }

-- ---------------------------------------------------------------- the exchange (R304 to R312, R613)

/-- FSTATE leaves NOTIME with master time (R307, R312, R613). -/
def fieldTakesTime (s : State) : State :=
  let s := enterFhold { s with tm := { s.tm with
    field := s.tm.master, fieldPend := 0, frate := freqNow s, stepSum := s.tm.stepSum + s.tm.master - s.tm.field, lastStep := none } }
  blocksFollow true (resumeSchedules (fieldNs s) s)

/-- FSTATE becomes NOTIME: schedules and blocks stop (R309). (DEDUCED, notes/assumptions/21.md.) -/
def enterNotime (s : State) : State :=
  blocksFollow false (haltSchedules (setFld R.TB_STAT F.TB_STAT_FSTATE 0 { s with tm := { s.tm with good := 0 } }))

/-- A two-way exchange on a lane in service, with its offset in 1/16 ns (R304, R307, R311, R312, R323). (DEDUCED, notes/assumptions/14.md.) (DEDUCED, notes/assumptions/23.md.) -/
def exchange (x : Nat) (off : Int) (s : State) : State :=
  if !laneUp s x then s
  else
  let s := { s with tm := { s.tm with exAt := s.elapsed } }
  if s.tm.fromField && fState s != 0 then
    { s with tm := { s.tm with master := s.tm.field, fromField := false, firstSinceWake := true, last := none } }
  else if !masterRuns s then s
  else if fState s == 0 then (if s.pow.field.st = .run && !coldReset s .field then fieldTakesTime s else s)
  else
    let s := setFld R.TB_FOFFS F.TB_FOFFS_FOFF (unsignedOf 16 off) s
    let s := if !s.tm.fieldStep.isEmpty then s else { s with tm := { s.tm with frate := freqNow s } }
    let good := if decide (off.natAbs ≤ 32) then s.tm.good + 1 else 0
    let s := { s with tm := { s.tm with good := min good 16 } }
    if fState s == 2 && decide (good ≥ 16) then setFld R.TB_STAT F.TB_STAT_FSTATE 1 s else s

/-- No exchange for 500 µs in TRACK; an exchange in the same cycle wins (R307, R310). -/
def exchangeLimit (same : Bool) (s : State) : State :=
  if fState s != 1 then s
  else
    let s := toElapsed (s.tm.exAt + 500000) s
    if same then evt R.TB_EVT F.TB_EVT_RACE (raceField s) else enterFhold s

/-- No accepted sample for TMO ms while LOCKED; a sample in the same cycle wins (R319, R321). -/
def servoLimit (same : Bool) (s : State) : State :=
  if tbState s != 2 then s
  else
    let s := match s.tm.last with
      | some l => toMaster (l + fld s R.TB_HOLD F.TB_HOLD_TMO * 1000000 * nsU) s
      | none => s
    if same then evt R.TB_EVT F.TB_EVT_RACE (raceHost s) else ptpFollow (enterHoldover s)

-- ---------------------------------------------------------------- oscillators (R334 to R338)

/-- Device time of one side moves by some ns at a switch of its clock (R335). -/
def shiftSide (x : Side) (d : Int) (s : State) : State :=
  let d := max (-20) (min 20 d) * nsU
  match x with
  | .host => { s with tm := { s.tm with master := ((s.tm.master : Int) + d).toNat } }
  | .field => { s with tm := { s.tm with field := ((s.tm.field : Int) + d).toNat } }

def oscFld : Side → Fld
  | .host => F.TB_STAT_OSCH
  | .field => F.TB_STAT_OSCF

def retryFld : Side → Fld
  | .host => F.TB_CLK_RETRYH
  | .field => F.TB_CLK_RETRYF

/-- The field ports stop for a moment: whether modulator bits came to a port that accepts its clock, and are lost, is a free value, and a
GAP record reports the loss (R65, R336). (DESIGN CHOICE, notes/assumptions/65.md.) -/
def portsPause (s : State) : State :=
  eachOf ((List.range 512).filter (fun k =>
    cState s k == stRunning && cBit s k && flag s (R.FP_BCFG (cPort s k)) F.FP_BCFG_CLKSRC)) (fun k s =>
      let f := takeFree s
      if f.1 % 2 = 1 then gapMark k 2 (fieldNs f.2) f.2 else f.2) s

/-- The reference of a side fails (R335 to R338). -/
def oscFailed (x : Side) (d : Int) (s : State) : State :=
  if flag s R.TB_STAT (oscFld x) then setFlag R.TB_CLK (retryFld x) false s
  else
    let s := shiftSide x d (setFlag R.TB_STAT (oscFld x) true s)
    match x with
    | .host => ptpFollow (enterHoldover (evt R.TB_EVT F.TB_EVT_OSCFAIL_H s))
    | .field =>
      let s := portsPause (evt R.TB_EVT F.TB_EVT_OSCFAIL_F s)
      if fState s == 0 then s else enterFhold s

/-- The crystal of a side has passed its checks for 10 ms after a request (R338). -/
def oscBack (x : Side) (d : Int) (s : State) : State :=
  if flag s R.TB_CLK (retryFld x) && flag s R.TB_STAT (oscFld x) then
    shiftSide x d (setFlag R.TB_CLK (retryFld x) false (setFlag R.TB_STAT (oscFld x) false s))
  else s

-- ---------------------------------------------------------------- PPS_IN (R347 to R349)

/-- θ of a stamp x: the nearest whole second less x, a tie going to the later second (R348). -/
def ppsTheta (x : Int) : Int := (x + 500000000).fdiv secNs * secNs - x

/-- An edge of the selected polarity (R347 to R349). -/
def ppsEdge (s : State) : State :=
  if !flag s R.TB_PPSIN F.TB_PPSIN_EN || !masterRuns s then s
  else
    let t := masterNs s
    let bad := match s.tm.ppsLast with
      | some e => decide (s.elapsed - e < 999000000) || decide (s.elapsed - e > 1001000000)
      | none => false
    let s := setReg R.TB_PPSNS (wordOf (tNs t)) { s with tm := { s.tm with ppsLast := some s.elapsed, ppsSec := wordOf (tSecLo t) } }
    if bad then evt R.TB_EVT F.TB_EVT_PPSREJ (cnt R.TB_CNT_PPSREJ s)
    else if tbSrc s == 2 then servoSample (ppsTheta ((t : Int) - signedOf 16 (fld s R.TB_PPSIN F.TB_PPSIN_DLY))) s
    else s

-- ---------------------------------------------------------------- the TIME command (R329 to R333)

/-- A signed 64-bit number of two words, low word first. -/
def twoWords (lo hi : Word) : Int := signedOf 64 (lo.toNat + hi.toNat * 2 ^ 32)

/-- A SET or STEP would make the seconds negative or pass 64 bits (R296, R330). (DEDUCED, notes/assumptions/62.md.) -/
def timeOut (v : Int) : Bool := decide (v < 0) || decide (v ≥ ((2 ^ 64 * secNs : Nat) : Int))

/-- A TIME action is judged and acts: its status, its payload, whether the answer waits for the step instant, and the state (R330
to R333). -/
def timeAction (act : Nat) (ws : List Word) (cmd : Option (Partner × Cmd)) (s : State) : Nat × List Word × Bool × State :=
  let busy := !s.tm.step.isEmpty
  match act, ws with
  | 1, [lo, hi, ns, fr] =>
    if ns.toNat ≥ secNs || decide (fr.toNat ≥ 2 ^ 16) then (stRANGE, [], false, s)
    else if busy then (stBUSY, [], false, s)
    else
      let v := (((lo.toNat + hi.toNat * 2 ^ 32) * secNs + ns.toNat) * 2 ^ 16 + fr.toNat) * 2 ^ 32
      (stOK, [], true, askStep (.set v) cmd s)
  | 2, [lo, hi] =>
    let d := twoWords lo hi
    if timeOut ((masterNs s : Int) + 32000 + d) then (stRANGE, [], false, s)
    else if busy then (stBUSY, [], false, s)
    else (stOK, [], true, askStep (.add (d * nsU)) cmd s)
  | 3, [lo, hi] =>
    if tbSrc s != 3 then (stCONFLICT, [], false, s) else (stOK, [], false, servoSample (twoWords lo hi) s)
  | 4, [v] =>
    if decide (v.toInt > freqLim) || decide (v.toInt < -freqLim) then (stRANGE, [], false, s)
    else if tbEn s then (stCONFLICT, [], false, s)
    else (stOK, [], false, setReg R.TB_FREQ v s)
  | 5, [] =>
    if busy then (stBUSY, [], false, s)
    else if !flag s R.TB_STAT F.TB_STAT_PEND then (stOK, [0, 0, 0, 0], false, s)
    else (stOK, [], true, askStep (.add (s.tm.refused * nsU)) cmd s)
  | _, _ => (stRANGE, [], false, s)

-- ---------------------------------------------------------------- the PTP engine (R340 to R345)

def ptpEn (s : State) : Bool := flag s R.TB_PTP_CTL F.TB_PTP_CTL_EN
def ptpPeer (s : State) : Bool := flag s R.TB_PTP_CTL F.TB_PTP_CTL_DELAY
def ptpPort (s : State) : Nat := fld s R.TB_PTP_CTL F.TB_PTP_CTL_PORT
def ptpMod (f : PtpS → PtpS) (s : State) : State := { s with tm := { s.tm with ptp := f s.tm.ptp } }

/-- The stamp of a received or sent event message with the latency of the port, 2^-16 ns (R341). -/
def ptpRxT (s : State) (e rx : Nat) : Int := (rx : Int) - fld s (R.TB_PTP_LAT e) F.TB_PTP_LAT_RX * 2 ^ 16
def ptpTxT (s : State) (e tx : Nat) : Int := (tx : Int) + fld s (R.TB_PTP_LAT e) F.TB_PTP_LAT_TX * 2 ^ 16
def ptpAsym (s : State) : Int := (reg s R.TB_PTP_ASYM).toInt * 2 ^ 16

/-- The own clockIdentity, octets in order (R60, R365). -/
def ownClock (s : State) : Nat := beNat (beBytes 4 (reg s R.GLB_UIDHI).toNat ++ beBytes 4 (reg s R.GLB_UIDLO).toNat)

/-- A lexicographic order of numbers. -/
def lexLt : List Nat → List Nat → Bool
  | a :: as, b :: bs => decide (a < b) || (a == b && lexLt as bs)
  | _, _ => false

/-- The data set of a foreign master is better than another (the default comparison of IEEE 1588). (PRESUMED, notes/assumptions/22.md.) -/
def dsBetter (a b : Foreign) : Bool :=
  if a.gmId == b.gmId then lexLt [a.steps, a.srcId, a.srcPort] [b.steps, b.srcId, b.srcPort]
  else lexLt [a.prio1, a.cls, a.acc, a.var, a.prio2, a.gmId] [b.prio1, b.cls, b.acc, b.var, b.prio2, b.gmId]

/-- The device's own data set. -/
def ownDs (s : State) : Foreign :=
  { srcId := ownClock s, srcPort := 1, prio1 := fld s R.TB_PTP_DS F.TB_PTP_DS_PRIO1, cls := fld s R.TB_PTP_DS F.TB_PTP_DS_CLASS
    acc := fld s R.TB_PTP_DS F.TB_PTP_DS_ACC, var := fld s R.TB_PTP_VAR F.TB_PTP_VAR_VAR, prio2 := fld s R.TB_PTP_DS F.TB_PTP_DS_PRIO2
    gmId := ownClock s, steps := 0, utcOff := 0, utcValid := false, heard := 0 }

/-- The header of a message of its own. -/
def ownHead (s : State) (kind seq logInt : Nat) : PtpHead :=
  { kind := kind, domain := fld s R.TB_PTP_CTL F.TB_PTP_CTL_DOMAIN, srcId := ownClock s, seq := seq, logInt := logInt }

/-- A stamp in 2^-16 ns, rounded down to the nanosecond, and what that leaves. -/
def stampNs (t : Int) : Nat := (t.fdiv 65536).toNat
def stampRest (t : Int) : Int := t.fmod 65536

/-- The Sync that leaves at the stamp t: a one-step one carries it, the remainder in correctionField (R342); a two-step one carries none.
(PRESUMED, notes/assumptions/22.md.) -/
def syncSent (s : State) (one : Bool) (t : Int) : List Byte :=
  let h := ownHead s 0 s.tm.ptp.seqSync (fld s R.TB_PTP_INT F.TB_PTP_INT_LOGSYNC)
  if one then ptpBytes { h with corr := stampRest t } (ptpStamp (stampNs t)) else ptpBytes { h with flags := ptpFlags true false } (ptpStamp 0)

/-- The Follow_Up of the Sync that left at the stamp t (R342). (PRESUMED, notes/assumptions/22.md.) -/
def followSent (s : State) (t : Int) : List Byte :=
  ptpBytes { ownHead s 8 s.tm.ptp.seqSync (fld s R.TB_PTP_INT F.TB_PTP_INT_LOGSYNC) with corr := stampRest t } (ptpStamp (stampNs t))

/-- A Delay_Req, or a Pdelay_Req with its reserved bytes. (PRESUMED, notes/assumptions/22.md.) -/
def delaySent (s : State) : List Byte :=
  ptpBytes (ownHead s (if ptpPeer s then 2 else 1) s.tm.ptp.seqDreq 0x7F) (ptpStamp 0 ++ if ptpPeer s then beBytes 10 0 else [])

/-- An Announce with the device's own data set. (PRESUMED, notes/assumptions/22.md.) -/
def announceSent (s : State) : List Byte :=
  let d := ownDs s
  ptpBytes { ownHead s 11 s.tm.ptp.seqAnn (fld s R.TB_PTP_INT F.TB_PTP_INT_LOGANN) with flags := 8 }
    (ptpStamp 0 ++ announceBody (fld s R.TB_PTP_STAT F.TB_PTP_STAT_UTCOFF) d.prio1 (if flag s R.TB_PTP_CTL F.TB_PTP_CTL_MCAP then d.cls else 255) d.acc d.var d.prio2 d.gmId 0 0xA0)

/-- The requestingPortIdentity of the answer to a message. -/
def asker (m : PtpMsg) : List Byte := beBytes 8 m.srcId ++ beBytes 2 m.srcPort

/-- The Delay_Resp to a Delay_Req that arrived at the stamp rx. (PRESUMED, notes/assumptions/22.md.) -/
def delayResp (s : State) (rx : Int) (m : PtpMsg) : List Byte :=
  ptpBytes { ownHead s 9 m.seqId (fld s R.TB_PTP_INT F.TB_PTP_INT_LOGDREQ) with corr := m.corr - stampRest rx } (ptpStamp (stampNs rx) ++ asker m)

/-- The two-step Pdelay_Resp to a Pdelay_Req that arrived at the stamp rx. (PRESUMED, notes/assumptions/22.md.) -/
def pdelayResp (s : State) (rx : Int) (m : PtpMsg) : List Byte :=
  ptpBytes { ownHead s 3 m.seqId 0x7F with flags := ptpFlags true false, corr := -stampRest rx } (ptpStamp (stampNs rx) ++ asker m)

/-- Its Pdelay_Resp_Follow_Up; when the response left is a free value, for no row gives it. (PRESUMED, notes/assumptions/22.md.) -/
def pdelayFollow (s : State) (t : Nat) (m : PtpMsg) : List Byte :=
  ptpBytes { ownHead s 10 m.seqId 0x7F with corr := m.corr + stampRest t } (ptpStamp (stampNs t) ++ asker m)

/-- The best qualified foreign master: one heard at least twice. (PRESUMED, notes/assumptions/22.md.) -/
def bestForeign (l : List Foreign) : Option Foreign :=
  (l.filter (fun f => decide (f.heard ≥ 2))).foldl (fun b f => match b with | none => some f | some x => if dsBetter f x then some f else some x) none

/-- The grandmaster's identity in arrival order (R365). -/
def setGm (id : Nat) (s : State) : State :=
  let bs := beBytes 8 id
  setReg R.TB_PTP_GMHI (wordOf (leNat (bs.drop 4))) (setReg R.TB_PTP_GMLO (wordOf (leNat (bs.take 4))) s)

/-- The best master clock algorithm runs (R340). (PRESUMED, notes/assumptions/22.md.) -/
def bmca (s : State) : State :=
  let mcap := flag s R.TB_PTP_CTL F.TB_PTP_CTL_MCAP
  match bestForeign s.tm.ptp.foreign with
  | some f =>
    if mcap && dsBetter (ownDs s) f then setGm (ownClock s) (setPState 6 (ptpMod (fun p => { p with parent := none }) s))
    else
      let same := match s.tm.ptp.parent with | some g => g.srcId == f.srcId && g.srcPort == f.srcPort | none => false
      let s := if same then ptpMod (fun p => { p with parent := some f }) s
        else ptpMod (fun p => { p with parent := some f, sync := none, t1t2 := none, dreq := none, mpdValid := if ptpPeer s then p.mpdValid else false }) s
      let s := if pState s == 8 || pState s == 9 then s else setPState 8 s
      let s := setFld R.TB_PTP_STAT F.TB_PTP_STAT_UTCOFF f.utcOff.toNat (setFlag R.TB_PTP_STAT F.TB_PTP_STAT_UTCVALID f.utcValid (setGm f.gmId s))
      ptpFollow s
  | none => s

/-- meanPathDelay is measured (R365). (PRESUMED, notes/assumptions/22.md.) -/
def setMpd (d : Int) (s : State) : State :=
  setReg R.TB_PTP_MPD (wordOf (min (roundEven ((d : Rat) / 65536)).toNat 0xFFFFFFFF)) (ptpMod (fun p => { p with mpd := d, mpdValid := true }) s)

/-- A Sync is resolved: t1 with its corrections and t2 (R313). (PRESUMED, notes/assumptions/22.md.) -/
def ptpResolve (t1 t2 : Int) (s : State) : State :=
  let s := ptpMod (fun p => { p with t1t2 := some (t1, t2), sync := none }) s
  if (pState s == 8 || pState s == 9) && s.tm.ptp.mpdValid && tbSrc s == 1 then
    servoSample (roundEven (((t1 + s.tm.ptp.mpd - t2 : Int) : Rat) / 65536)) s
  else s

def ptpCnt (i n : Nat) (s : State) : State := cntAdd (R.TB_PTP_CNT i) n s

/-- The message comes from the parent. -/
def fromParent (s : State) (m : PtpMsg) : Bool :=
  match s.tm.ptp.parent with | some g => g.srcId == m.srcId && g.srcPort == m.srcPort | none => false

/-- The announce receipt interval begins anew. -/
def annHeard (s : State) : State := ptpMod (fun p => { p with annAt := s.elapsed }) s

/-- The announce receipt interval, ns: announceReceiptTimeout times the announce interval (R340, R365). (PRESUMED, notes/assumptions/22.md.) -/
def annWait (s : State) : Nat :=
  let l := signedOf 8 (fld s R.TB_PTP_INT F.TB_PTP_INT_LOGANN)
  fld s R.TB_PTP_INT F.TB_PTP_INT_ARTO * (if l < 0 then secNs / 2 ^ (-l).toNat else secNs * 2 ^ l.toNat)

/-- An Announce message (R297, R340). (PRESUMED, notes/assumptions/22.md.) -/
def ptpAnnounce (m : PtpMsg) (s : State) : State :=
  let old := s.tm.ptp.foreign.find? (fun f => f.srcId == m.srcId && f.srcPort == m.srcPort)
  let f : Foreign := { srcId := m.srcId, srcPort := m.srcPort, prio1 := m.prio1, cls := m.cls, acc := m.acc, var := m.var, prio2 := m.prio2, gmId := m.gmId,
                       steps := m.steps, utcOff := m.utcOff, utcValid := m.utcValid, heard := min 2 ((match old with | some g => g.heard | none => 0) + 1) }
  if m.srcId == ownClock s then s
  else
    let s := bmca (ptpMod (fun p => { p with foreign := p.foreign.filter (fun g => !(g.srcId == m.srcId && g.srcPort == m.srcPort)) ++ [f] }) s)
    onlyIf (fromParent s m) annHeard s

/-- The ordinary clock processes a message of its port (R340, R341). (PRESUMED, notes/assumptions/22.md.) -/
def ptpProcess (e : Nat) (m : PtpMsg) (s : State) : State :=
  let ns (t : Nat) : Int := (t : Int) * 2 ^ 16
  let rx := ptpRxT s e m.rx
  let s := ptpCnt 0 1 s
  let slave := pState s == 8 || pState s == 9
  if m.version != 2 || decide (m.minor > 1) || m.domain != fld s R.TB_PTP_CTL F.TB_PTP_CTL_DOMAIN || m.kind == 12 || m.kind == 13 then ptpCnt 2 1 s
  else match m.kind with
    | 11 => ptpAnnounce m s
    | 0 =>
      if !slave || !fromParent s m then s
      else if m.twoStep then ptpMod (fun p => { p with sync := some (m.seqId, m.rx, m.corr) }) s
      else ptpResolve (ns m.origin + m.corr + ptpAsym s) rx s
    | 8 =>
      match s.tm.ptp.sync with
      | some (q, r, c) =>
        if slave && fromParent s m && q == m.seqId then ptpResolve (ns m.origin + m.corr + c + ptpAsym s) (ptpRxT s e r) s else s
      | none => s
    | 9 =>
      match s.tm.ptp.dreq, s.tm.ptp.t1t2 with
      | some (q, t3), some (t1, t2) =>
        if !ptpPeer s && slave && fromParent s m && q == m.seqId && m.reqId == ownClock s then
          setMpd (((t2 - t1) + (ns m.origin - m.corr + ptpAsym s - (t3 : Nat))).fdiv 2) (ptpMod (fun p => { p with dreq := none }) s)
        else s
      | _, _ => s
    | 3 =>
      match s.tm.ptp.dreq with
      | some (q, t1) =>
        if !ptpPeer s || q != m.seqId || m.reqId != ownClock s then s
        else if m.twoStep then ptpMod (fun p => { p with presp := some (ns m.origin + m.corr, rx) }) s
        else setMpd ((rx - (t1 : Nat) - m.corr).fdiv 2) (ptpMod (fun p => { p with dreq := none }) s)
      | none => s
    | 10 =>
      match s.tm.ptp.dreq, s.tm.ptp.presp with
      | some (q, t1), some (t2, t4) =>
        if !ptpPeer s || q != m.seqId || m.reqId != ownClock s then s
        else setMpd ((t4 - (t1 : Nat) - (ns m.origin + m.corr - t2)).fdiv 2) (ptpMod (fun p => { p with dreq := none, presp := none }) s)
      | _, _ => s
    | 1 => if pState s == 6 && !ptpPeer s then sendPtp ⟨e % 2, by omega⟩ 9 m.seqId (delayResp s rx m) (ptpCnt 1 1 s) else s
    | 2 =>
      if !ptpPeer s then s
      else
        let f := takeFree s
        sendPtp ⟨e % 2, by omega⟩ 10 m.seqId (pdelayFollow s f.1 m) (sendPtp ⟨e % 2, by omega⟩ 3 m.seqId (pdelayResp s rx m) (ptpCnt 1 2 f.2))
    | _ => ptpCnt 2 1 s

/-- The transparent clock passes a message on to the other port; one that has no link is as in R557: the message is dropped (R343). (PRESUMED,
notes/assumptions/22.md.) -/
def ptpPass (e : EthNo) (m : PtpMsg) (s : State) : State :=
  if linkIsUp s (1 - e.val) then
    let f := takeFree s
    sendPtp (1 - e) m.kind m.seqId (ptpForwarded m f.1) (ptpCnt 3 1 f.2)
  else cnt (R.P_ETH_CNT e.val 5) s

/-- A PTP message arrives on port e, counted as a frame received: forwarded by the transparent clock, processed by the ordinary clock (R340, R343,
R573). (PRESUMED, notes/assumptions/22.md.) -/
def ptpRx (e : EthNo) (m : PtpMsg) (s : State) : State :=
  let s := onlyIf (flag s R.TB_PTP_CTL F.TB_PTP_CTL_TC) (ptpPass e m) (cnt (R.P_ETH_CNT e.val 0) s)
  if ptpEn s && ptpPort s == e.val && masterRuns s then ptpProcess e.val m s else s

/-- No Announce message from the parent for announceReceiptTimeout intervals (R340). (PRESUMED, notes/assumptions/22.md.) -/
def ptpAnnLimit (s : State) : State :=
  if !ptpEn s || pState s == 6 then s
  else
    let s := annHeard (toElapsed (s.tm.ptp.annAt + annWait s) s)
    let s := ptpMod (fun p => { p with foreign := match p.parent with
                                         | some g => p.foreign.filter (fun f => !(f.srcId == g.srcId && f.srcPort == g.srcPort))
                                         | none => p.foreign.filter (fun f => decide (f.heard ≥ 2))
                                       parent := none, sync := none, t1t2 := none, dreq := none }) s
    match bestForeign s.tm.ptp.foreign with
    | some _ => bmca s
    | none =>
      if flag s R.TB_PTP_CTL F.TB_PTP_CTL_MCAP then setGm (ownClock s) (setPState 6 s) else setPState 4 s

/-- A Sync leaves a MASTER port (R340, R342). -/
def ptpSyncTx (tx : Nat) (s : State) : State :=
  if !ptpEn s || pState s != 6 then s
  else
    let e : EthNo := ⟨ptpPort s % 2, by omega⟩
    let q := s.tm.ptp.seqSync
    let one := flag s R.TB_PTP_CTL F.TB_PTP_CTL_ONESTEP
    let x := ptpMod (fun p => { p with seqSync := (q + 1) % 2 ^ 16 }) (sendPtp e 0 q (syncSent s one (ptpTxT s e.val tx)) (ptpCnt 1 1 s))
    if one then x else sendPtp e 8 q (followSent s (ptpTxT s e.val tx)) (ptpCnt 1 1 x)

/-- A Delay_Req or Pdelay_Req leaves (R340, R341). -/
def ptpDelayTx (tx : Nat) (s : State) : State :=
  let slave := pState s == 8 || pState s == 9
  if !ptpEn s || !(ptpPeer s || slave) then s
  else
    let e : EthNo := ⟨ptpPort s % 2, by omega⟩
    let q := s.tm.ptp.seqDreq
    let t := (ptpTxT s e.val tx).toNat
    ptpMod (fun p => { p with seqDreq := (q + 1) % 2 ^ 16, dreq := some (q, t), presp := none })
      (sendPtp e (if ptpPeer s then 2 else 1) q (delaySent s) (ptpCnt 1 1 s))

/-- An Announce leaves a MASTER port (R340). -/
def ptpAnnTx (s : State) : State :=
  if !ptpEn s || pState s != 6 then s
  else
    let e : EthNo := ⟨ptpPort s % 2, by omega⟩
    let q := s.tm.ptp.seqAnn
    ptpMod (fun p => { p with seqAnn := (q + 1) % 2 ^ 16 }) (sendPtp e 11 q (announceSent s) (ptpCnt 1 1 s))

/-- The engine is enabled or disabled (R365). -/
def ptpEnable (on : Bool) (s : State) : State :=
  setPState (if on then 4 else 0) (annHeard { s with tm := { s.tm with ptp := {} } })

-- ---------------------------------------------------------------- sleep (R359, R360)

/-- FH writes the measured ratio at the end of a second in Run (R359). -/
def aocRatio (r : Word) (s : State) : State :=
  if s.pow.field.st = .run && fState s != 0 then setReg R.TB_AOC_RATIO r s else s

end Sys2Proof.Machine
end

