-- ==== Sys2Proof/Machine/Clasp.lean ====
section
/-! DEFINITION. The Clasp lanes: their states, the frames that cross them, failover and loss (R578 to R609). A command and
its response cross at once in this model; the frames of the rows keep the books of the lanes (notes/assumptions/16.md). -/

namespace Sys2Proof.Machine

-- ---------------------------------------------------------------- names

def lnEn (s : State) (x : Nat) : Bool := flag s R.CL_CTL (if x = 0 then F.CL_CTL_ENA else F.CL_CTL_ENB)
def lnCauseFld (x : Nat) : Fld := if x = 0 then F.CL_STAT_CAUSEA else F.CL_STAT_CAUSEB
def lnUpFld (x : Nat) : Fld := if x = 0 then F.CL_EVT_UPA else F.CL_EVT_UPB
def lnDownFld (x : Nat) : Fld := if x = 0 then F.CL_EVT_DOWNA else F.CL_EVT_DOWNB

def lnOFF : Nat := 0
def lnTRAIN : Nat := 1
def lnSERVICE : Nat := 2
def lnPARKED : Nat := 3
def lnFAILED : Nat := 4
def lnDRAIN : Nat := 5

/-- The lane's state given, NOLANE following (R601). -/
def setLane (x st : Nat) (s : State) : State := laneMark x (noLane (setFld R.CL_STAT (laneFld x) st s))

/-- The elapsed time at which lane x took its state. -/
def laneSince (s : State) (x : Nat) : Nat := tabGet (fun _ => 0) s.cl.laneAt x

/-- The end of lane x that takes frames to one side (R588). (DEDUCED, notes/assumptions/56.md.) -/
def laneEnd (x : Nat) (toField : Bool) : Nat := 2 * x + b2n toField

/-- A valid frame arrives at an end of a lane (R587). (DEDUCED, notes/assumptions/56.md.) -/
def endHeard (e : Nat) (s : State) : State := { s with cl := { s.cl with rxAt := tabSet (fun _ => 0) s.cl.rxAt e s.elapsed } }

def heardAt (s : State) (e : Nat) : Nat := tabGet (fun _ => 0) s.cl.rxAt e

/-- The end of lane x that has gone longest without a valid frame. -/
def silentEnd (s : State) (x : Nat) : Nat := if heardAt s (2 * x + 1) < heardAt s (2 * x) then 2 * x + 1 else 2 * x

/-- Some lane is in SERVICE or PARKED (R601). (DEDUCED, notes/assumptions/25.md.) -/
def someLane (s : State) : Bool := (List.range 2).any (fun x => laneSt s x == 2 || laneSt s x == 3)

/-- The direction of a frame. -/
def dirGet (s : State) (toField : Bool) : ClaspDir := if toField then s.cl.down else s.cl.up

def dirMod (toField : Bool) (f : ClaspDir → ClaspDir) (s : State) : State :=
  if toField then { s with cl := { s.cl with down := f s.cl.down } } else { s with cl := { s.cl with up := f s.cl.up } }

/-- Bytes that a sender has unacknowledged on a lane (R586). -/
def unackOf (d : ClaspDir) (x : Nat) : Nat := sumNat ((d.unacked.filter (fun o => o.lane == x)).map (·.bytes))

/-- CL_x_UNACK shows the larger of the two senders' bytes, and its peak (R586, R609). (DEDUCED, notes/assumptions/56.md.) -/
def showUnack (s : State) : State :=
  eachOf (List.range 2) (fun x s =>
    let now := max (unackOf s.cl.down x) (unackOf s.cl.up x)
    let a := R.CL_LANE_UNACK x
    let s := setFld a F.CL_LANE_UNACK_NOW now s
    setFld a F.CL_LANE_UNACK_PEAK (max now (fld s a F.CL_LANE_UNACK_PEAK)) s) s

-- ---------------------------------------------------------------- replay, episodes, entering and leaving service

/-- The frames unacknowledged on the lanes `xs` are sent again on lane y, in sequence order (R590, R606). (DEDUCED, notes/assumptions/56.md.) -/
def replayOn (xs : List Nat) (y : Nat) (s : State) : State :=
  let count (x : Nat) : Nat := ((s.cl.down.unacked ++ s.cl.up.unacked).filter (fun o => o.lane == x)).length
  let s := eachOf xs (fun x s => cntAdd (R.CL_LANE_CNT_RETX x) (count x) s) s
  let n := sumNat (xs.map count)
  let move (l : List ClaspOut) : List ClaspOut := l.map (fun o => if xs.contains o.lane then { o with lane := y } else o)
  let s := dirMod true (fun d => { d with unacked := move d.unacked }) s
  let s := dirMod false (fun d => { d with unacked := move d.unacked }) s
  let s := cntAdd (R.CL_LANE_CNT_TX y) n s
  showUnack (if n = 0 then s else evt R.CL_EVT F.CL_EVT_REPLAY s)

/-- An episode of no lane begins, and the LOSSLIM that FH was sent last is the one of that moment (R622), where a lane was in SERVICE or PARKED, or would have been after a wake, and none is now, unless one
runs, no lane has been in service since the start, or a side is in Deep sleep or Off (R601). (DEDUCED, notes/assumptions/25.md.) -/
def beginEpisode (had : Bool) (s : State) : State :=
  let asleep (x : SideS) : Bool := x.st = .deep || x.st = .off
  if !had || someLane s || !s.cl.been || s.cl.epHost || asleep s.pow.host || asleep s.pow.field then s
  else
    { evt R.CL_EVT F.CL_EVT_NOLANE (cnt R.CL_CNT_NOLANE s) with cl := { s.cl with
      epHost := true, epField := true, epHostAt := s.elapsed, epFieldAt := s.elapsed, fhLim := fld s R.CL_LOSS F.CL_LOSS_LOSSLIM } }

/-- Field-side counts that waited for a lane are added (R63). -/
def flushWaiting (s : State) : State :=
  let w := s.cl.waiting
  eachOf w (fun e s => cntAdd (if e.1 = 6 then R.GLB_RACECNT else R.GLB_CKCNT e.1) e.2 s) { s with cl := { s.cl with waiting := [] } }

/-- Lane x enters SERVICE (R580, R602, R607): what waited for a lane crosses. -/
def laneEnters (x : Nat) (s : State) : State :=
  let ep := s.cl.epHost || s.cl.epField
  let s := endHeard (2 * x + 1) (endHeard (2 * x) (setLane x lnSERVICE s))
  let s := { s with cl := { s.cl with been := true, first := false, epHost := false, epField := false }
                    pow := { s.pow with fieldSeen := some s.pow.field.st } }
  let s := if ep then replayOn [0, 1] x s else s
  sendPendingStep (flushWaiting s)

/-- Lane x leaves service with a cause of R608 (R588 to R590, R601). -/
def laneFails (x cause : Nat) (s : State) : State :=
  if !laneUp s x then s
  else
    let s := setFld R.CL_STAT (lnCauseFld x) cause (setLane x lnFAILED s)
    let s := cnt (R.CL_LANE_CNT_DOWN x) (evt R.CL_EVT (lnDownFld x) s)
    let y := 1 - x
    if laneUp s y then replayOn [x] y (addSent (.claspNotice (Fin.ofNat 2 y)) s) else beginEpisode true s

def causeHEART : Nat := 1
def causeERR : Nat := 2
def causeCHAN : Nat := 3
def causeTRAIN : Nat := 4
def causePEER : Nat := 5

-- ---------------------------------------------------------------- frames (R584 to R596)

/-- An address of the field side (R594). -/
def fieldAddr (a : Nat) : Bool :=
  (decide (0x100000 ≤ a) && decide (a ≤ 0x15FFFF)) || (decide (0x200000 ≤ a) && decide (a ≤ 0x25FFFF)) ||
  (decide (0x1000000 ≤ a) && decide (a ≤ 0x17FFFFF)) || (decide (0x40000000 ≤ a) && decide (a ≤ 0x6FFFFFFF))

/-- A READ or WRITE every address of which lies on the field side. -/
def fieldWords (f : ClaspFrame) : Bool :=
  decide (0 < f.words) && fieldAddr f.addr && fieldAddr (f.addr + 4 * (f.words - 1)) && f.addr / 2 ^ 24 == (f.addr + 4 * (f.words - 1)) / 2 ^ 24

/-- A committed WRITE, CAL or TILE item that acts on the field side; its header is the frame's word, and a CTX or SUBSCRIBE item
crosses under the opcode it carries (R594, R719). (DEDUCED, notes/assumptions/16.md.) -/
def fieldItem (f : ClaspFrame) : Bool :=
  match bitsOf f.body.toNat 3 0 with
  | 1 => fieldWords f
  | 2 => decide (f.addr < 512)
  | 3 => decide (bitsOf f.body.toNat 10 8 < 6)
  | _ => false

/-- A RESET word whose TARGET names the field side, a field die or unit, or the field lane ends (R594, R636). (DEDUCED,
notes/assumptions/16.md.) -/
def fieldReset (w : Word) : Bool :=
  let t := bitsOf w.toNat 7 4
  match bitsOf w.toNat 1 0 with
  | 1 => t == 1
  | 2 => t == 1 || t == 2
  | 3 => decide (t < 3) || t == 4 || (t == 5 && bitsOf w.toNat 15 8 == 1)
  | _ => false

/-- The check of R594 and R595 on class, direction, opcode and what the opcode's fields name. -/
def frameAllowed (s : State) (f : ClaspFrame) : Bool :=
  match f.cls with
  | .record => !f.toField
  | .cmd => f.toField &&
    (match f.opcode with
     | 0x01 | 0x02 => fieldWords f
     | 0x10 | 0x11 | 0x12 | 0x13 => decide (f.addr < 128)
     | 0x20 => decide (f.addr < 512) || (f.addr == 0xFFFFFFFF && bitsOf f.body.toNat 3 0 == 1)
     | 0x30 => fieldItem f
     | 0x40 => bitsOf f.body.toNat 3 0 != 15 || bitsOf f.body.toNat 21 16 != 0
     | 0x41 => fieldReset f.body
     | _ => false)
  | .resp => !f.toField && (partGet s f.port.val).outst.any (fun c => c.tag == f.tag)
  | .time | .heart | .pwrrst => true

/-- An unrecoverable frame's command is answered INTERNAL, with zero data in place of data (R593). (DEDUCED, notes/assumptions/56.md.) -/
def internalAnswer (f : ClaspFrame) (s : State) : State :=
  let mine (c : Cmd) : Bool := c.tag == f.tag
  let u := partGet s f.port.val
  match u.resp.find? (fun r => mine r.cmd) with
  | some r =>
    partMod f.port.val (fun u => { u with resp := u.resp.map (fun x =>
      if x = r then { x with status := stINTERNAL, payload := x.payload.map (fun _ => 0) } else x) }) s
  | none =>
    match u.outst.find? mine with
    | some c =>
      let s := answerCmd f.port.val c stINTERNAL false [] { s with stalled := s.stalled.filter (fun x => x != (f.port.val, c)) }
      eachOf (s.ports.map (·.1)) (fun n s =>
        let keep (w : WinCmd) : Bool := !(w.port == f.port && w.cmd = c)
        portMod n (fun p => { p with winQ := p.winQ.filter keep, endWin := ((p.winQ.take p.endWin).filter keep).length }) s) s
    | none => s

/-- The first m records of a delivery marked CORRUPT; `lens` are their descriptors (R539). -/
def corruptRecs : Nat → List Word → List Word → List Word
  | _, [], ws => ws
  | 0, _, ws => ws
  | m + 1, d :: rest, ws =>
    let n := 4 * bitsOf d.toNat 10 0
    corruptWords (ws.take n) ++ corruptRecs m rest (ws.drop n)

/-- The records of an unrecoverable frame reach the delivery they belong to with CORRUPT: a POP or PEEK that waits, or else the port's stream
(R50, R593). -/
def corruptDelivery (f : ClaspFrame) (s : State) : State :=
  let mine (x : Resp) : Bool := x.cmd.tag == f.tag && (x.cmd.op == 0x10 || x.cmd.op == 0x11)
  partMod f.port.val (fun u => { u with badRecs := if u.resp.any mine then u.badRecs else u.badRecs + f.records, resp := u.resp.map (fun x =>
    if mine x then
      let n := bitsOf ((x.payload[1]?).getD 0).toNat 15 0
      let lens := (x.payload.drop 2).take n
      { x with payload := x.payload.take (2 + n) ++ corruptRecs f.records lens (x.payload.drop (2 + n)) }
    else x) }) s

/-- A frame reaches its end in sequence (R593, R595). (DEDUCED, notes/assumptions/16.md.) -/
def deliverFrame (unrec : Bool) (f : ClaspFrame) (s : State) : State :=
  if unrec then
    match f.cls with
    | .record => cntAdd (R.GLB_CKCNT 4) f.records (corruptDelivery f s)
    | .cmd | .resp => internalAnswer f s
    | _ => s
  else if !frameAllowed s f then evt R.CL_EVT F.CL_EVT_BLOCK (cnt R.CL_CNT_BLOCK s)
  else s

/-- Frames received ahead of the sequence are delivered as it reaches them (R585). -/
def drainEarly (toField : Bool) : Nat → State → State
  | 0, s => s
  | fuel + 1, s =>
    let d := dirGet s toField
    match d.early.find? (fun f => f.seq == d.nextRx) with
    | some f =>
      let s := dirMod toField (fun d => { d with nextRx := d.nextRx + 1, early := d.early.filter (fun g => g.seq != f.seq) }) s
      drainEarly toField fuel (deliverFrame (!f.ckl) f s)
    | none => s

/-- A frame in sequence is delivered, then those that waited for it. (DEDUCED, notes/assumptions/56.md.) -/
def passFrame (unrec : Bool) (f : ClaspFrame) (s : State) : State :=
  let s := dirMod f.toField (fun d => { d with nextRx := d.nextRx + 1, bad := tabErase d.bad f.seq }) s
  let s := deliverFrame unrec f s
  drainEarly f.toField ((dirGet s f.toField).early.length) s

/-- The acknowledgement of a heartbeat releases the other direction's frames (R586, R587). -/
def acknowledge (toField : Bool) (n : Nat) (s : State) : State :=
  showUnack (dirMod toField (fun d => { d with unacked := d.unacked.filter (fun o => decide (n ≤ o.seq)) }) s)

/-- A copy of a frame fails CK-L on lane x: it is asked for again, or is unrecoverable (R588, R592, R593). (DEDUCED, notes/assumptions/16.md.) (DEDUCED, notes/assumptions/56.md.) -/
def badFrame (x : Nat) (f : ClaspFrame) (s : State) : State :=
  let s := cnt (R.CL_LANE_CNT_CKL x) s
  let e := laneEnd x f.toField
  let recent := s.elapsed :: (tabGet (fun _ => []) s.cl.errs e).filter (fun t => decide (s.elapsed - t < 1000000))
  let s := { s with cl := { s.cl with errs := tabSet (fun _ => []) s.cl.errs e recent } }
  let s :=
    let d := dirGet s f.toField
    if f.cls = .heart || f.seq < d.nextRx || d.early.any (fun g => g.seq == f.seq) then s
    else
      let k := tabGet (fun _ => 0) d.bad f.seq + 1
      if 8 ≤ k || f.bufDbe then
        let s := evt R.CL_EVT F.CL_EVT_UNREC (cnt R.CL_CNT_UNREC s)
        if f.seq = d.nextRx then passFrame true f s
        else dirMod f.toField (fun d => { d with early := d.early ++ [f], bad := tabErase d.bad f.seq }) s
      else
        cnt (R.CL_LANE_CNT_RETX x) (dirMod f.toField (fun d => { d with bad := tabSet (fun _ => 0) d.bad f.seq k }) s)
  if fld s R.CL_CTL F.CL_CTL_ERRLIM ≤ recent.length then
    laneFails x causeERR { s with cl := { s.cl with errs := tabSet (fun _ => []) s.cl.errs e [] } }
  else s

/-- A valid heartbeat: its acknowledgement and its notice of a lane (R587 to R589). -/
def heartbeat (f : ClaspFrame) (s : State) : State :=
  let s := match f.ack with | some n => acknowledge (!f.toField) n s | none => s
  match f.down with
  | some y => laneFails y.val causePEER s
  | none => s

/-- A frame is sent for the first time: it has not been delivered, and its sender does not keep it yet. (DEDUCED, notes/assumptions/16.md.) -/
def newFrame (s : State) (f : ClaspFrame) : Bool :=
  let d := dirGet s f.toField
  f.cls != .heart && decide (d.nextRx ≤ f.seq) && !d.unacked.any (fun o => o.seq == f.seq)

/-- The lane that a new frame of a direction goes to: of two in SERVICE the one with fewer bytes unacknowledged, lane A on a tie
(R584). -/
def laneFor (s : State) (toField : Bool) : Nat :=
  let d := dirGet s toField
  if laneUp s 0 && laneUp s 1 then (if unackOf d 1 < unackOf d 0 then 1 else 0) else if laneUp s 1 then 1 else 0

/-- The books of a frame's sender: a new frame takes the next number and stays until acknowledged (R584, R586). (DEDUCED, notes/assumptions/16.md.) -/
def sendFrame (x : Nat) (f : ClaspFrame) (s : State) : State :=
  let new := newFrame s f
  let s := cnt (R.CL_LANE_CNT_TX x) s
  if !new then s
  else showUnack (dirMod f.toField (fun d => { d with
    nextTx := max d.nextTx (f.seq + 1)
    unacked := d.unacked ++ [{ seq := f.seq, lane := x, bytes := f.bytes, cls := f.cls, port := f.port, tag := f.tag }] }) s)

/-- A frame is received on lane x (R584 to R587, R592 to R595). A new frame is sent only on the lane that takes it. (DEDUCED, notes/assumptions/16.md.) -/
def frameRx (x : Nat) (f : ClaspFrame) (s : State) : State :=
  let st := laneSt s x
  if !(st == lnSERVICE || (st == lnDRAIN && f.cls = .heart)) then s
  else if newFrame s f && (laneFor s f.toField != x || decide (6144 < unackOf (dirGet s f.toField) x + f.bytes)) then s
  else
    let s := if f.cls = .heart then s else sendFrame x f s
    if !f.ckl then badFrame x f s
    else
      let s := endHeard (laneEnd x f.toField) (cnt (R.CL_LANE_CNT_RX x) s)
      if f.cls = .heart then heartbeat f s
      else
        let d := dirGet s f.toField
        if f.seq < d.nextRx || d.early.any (fun g => g.seq == f.seq) then s
        else if f.seq = d.nextRx then passFrame false f s
        else dirMod f.toField (fun d => { d with early := d.early ++ [f] }) s

-- ---------------------------------------------------------------- registers of the block (R605, R608, R609)

/-- The refusal of a write of CL_CTL (R605, R608). (DEDUCED, notes/assumptions/56.md.) -/
def clCtlRefused (s : State) (v : Word) : Option Nat :=
  if getFld v F.CL_CTL_ERRLIM == 0 || getFld v F.CL_CTL_RETRY == 0 then some stRANGE
  else if (List.range 2).any (fun x => !bitOf v.toNat x && lnEn s x && laneUp s x && !laneUp s (1 - x)) then some stCONFLICT
  else none

/-- ENx of lane x has been written (R580, R582, R605). (DEDUCED, notes/assumptions/56.md.) -/
def lnEnWritten (x : Nat) (was : Bool) (s : State) : State :=
  let now := lnEn s x
  let awake (d : SideS) : Bool := d.st = .run || d.st = .entering || d.st = .waking
  if now && !was then
    (if laneSt s x == lnOFF && awake s.pow.host && awake s.pow.field then setLane x lnTRAIN s else s)
  else if was && !now then
    (if laneUp s x then beginEpisode true (setLane x lnDRAIN s)
     else if laneSt s x == lnDRAIN then s
     else beginEpisode (someLane s) (setLane x lnOFF s))
  else s

/-- An accepted write of CL_CTL. -/
def clCtlApply (v : Word) (s : State) : State :=
  let a := lnEn s 0
  let b := lnEn s 1
  let s := setReg R.CL_CTL (v &&& wordOf (namedBits R.CL_CTL)) s
  lnEnWritten 1 b (lnEnWritten 0 a s)

/-- A write of CL_CLR (R608). -/
def clCleared (v : Word) (s : State) : State := clrBits [R.CL_CNT_BLOCK, R.CL_CNT_UNREC, R.CL_CNT_NOLANE] v s

/-- A write of CL_x_CLR (R609): the peak starts again from the present figure. -/
def clLaneCleared (x : Nat) (v : Word) (s : State) : State :=
  let s := clrBits [R.CL_LANE_CNT_TX x, R.CL_LANE_CNT_RX x, R.CL_LANE_CNT_CKL x, R.CL_LANE_CNT_RETX x, R.CL_LANE_CNT_DOWN x,
    R.CL_LANE_CNT_TRAINFAIL x] v s
  if bitOf v.toNat 6 then
    setFld (R.CL_LANE_UNACK x) F.CL_LANE_UNACK_PEAK (fld s (R.CL_LANE_UNACK x) F.CL_LANE_UNACK_NOW) s
  else s

-- ---------------------------------------------------------------- events

/-- R585. -/
def execClaspFrameRx (x : Lane) (f : ClaspFrame) (s : State) : Host.Outcome State Fault Refusal := done (frameRx x.val f s)

/-- R587: each end of a lane in SERVICE sends a heartbeat. -/
def execHeartbeatSend (x : Lane) (s : State) : Host.Outcome State Fault Refusal :=
  done (if laneUp s x.val then cntAdd (R.CL_LANE_CNT_TX x.val) 2 s else s)

/-- R588, R604: the fourth interval without a valid frame at an end of the lane; a frame in the same cycle wins. -/
def execHeart (x : Lane) (sameCycle : Bool) (s : State) : Host.Outcome State Fault Refusal :=
  done (if !laneUp s x.val then s
        else
          let e := silentEnd s x.val
          let s := toElapsed (heardAt s e + 2000) s
          if sameCycle then evt R.CL_EVT F.CL_EVT_RACE (raceHost (endHeard e s)) else laneFails x.val causeHEART s)

/-- R588: a channel of the lane loses lock. -/
def execChan (x : Lane) (s : State) : Host.Outcome State Fault Refusal := done (laneFails x.val causeCHAN s)

/-- R582: training has not completed within 100 µs. After a wake from Deep sleep, the failure of every lane's first training begins
an episode (R601). -/
def execTrainingTimeout (x : Lane) (s : State) : Host.Outcome State Fault Refusal :=
  done (if laneSt s x.val == lnTRAIN then
      let s := toElapsed (laneSince s x.val + 100000) s
      let s := setFld R.CL_STAT (lnCauseFld x.val) causeTRAIN (setLane x.val lnFAILED (cnt (R.CL_LANE_CNT_TRAINFAIL x.val) s))
      if laneSt s (1 - x.val) == lnTRAIN then s
      else
        let s' := beginEpisode s.cl.first s
        { s' with cl := { s'.cl with first := false } }
    else s)

/-- R583: a FAILED lane whose ENx is 1 trains again. -/
def execRetrain (x : Lane) (s : State) : Host.Outcome State Fault Refusal :=
  done (if laneSt s x.val == lnFAILED && lnEn s x.val then
      setLane x.val lnTRAIN (toElapsed (laneSince s x.val + 1000000 * fld s R.CL_CTL F.CL_CTL_RETRY) s)
    else s)

/-- Frames of a lane wait for their acknowledgement. -/
def laneOwes (s : State) (x : Nat) : Bool := unackOf s.cl.down x != 0 || unackOf s.cl.up x != 0

/-- R605: a draining lane's frames are all acknowledged, or 10 µs have passed and they go to the other lane; it becomes OFF, and a lane enabled again trains (R580). -/
def execDrainEnd (x : Lane) (s : State) : Host.Outcome State Fault Refusal :=
  done (if laneSt s x.val == lnDRAIN then
      let s := if laneOwes s x.val then toElapsed (laneSince s x.val + 10000) s else s
      let s := if laneUp s (1 - x.val) then replayOn [x.val] (1 - x.val) s else s
      let s := setLane x.val lnOFF s
      if lnEn s x.val then setLane x.val lnTRAIN s else s
    else s)

end Sys2Proof.Machine
end

