-- ==== Sys2Proof/Machine/Aes.lean ====
section
/-! DEFINITION. AES (FIPS 197), AES-CMAC as the Signet uses it (R521) and the KW unwrapping of NIST SP 800-38F (R528).
The byte arithmetic is computed in the field GF(2^8); the S-box is the inverse in that field followed by the affine
map of FIPS 197, and is looked up in a table. -/

namespace Sys2Proof.Machine

/-- Multiplication by x in GF(2^8) modulo x^8 + x^4 + x^3 + x + 1. -/
def gfX (a : Nat) : Nat := if a ≥ 128 then Nat.xor (a * 2 % 256) 0x1B else a * 2

/-- Multiplication in GF(2^8), over the bits of b. -/
def gfMulAux : Nat → Nat → Nat → Nat
  | 0, _, _ => 0
  | n + 1, a, b => if b = 0 then 0 else Nat.xor (if b % 2 = 1 then a else 0) (gfMulAux n (gfX a) (b / 2))

/-- Multiplication in GF(2^8). -/
def gfMul (a b : Nat) : Nat := gfMulAux 8 a b

/-- The inverse in GF(2^8), a^254; 0 goes to 0. -/
def gfInv (a : Nat) : Nat :=
  let a2 := gfMul a a
  let a4 := gfMul a2 a2
  let a8 := gfMul a4 a4
  let a16 := gfMul a8 a8
  let a32 := gfMul a16 a16
  let a64 := gfMul a32 a32
  let a128 := gfMul a64 a64
  gfMul a2 (gfMul a4 (gfMul a8 (gfMul a16 (gfMul a32 (gfMul a64 a128)))))

/-- A byte rotated left. -/
def rotl8 (a n : Nat) : Nat := (a * 2 ^ n + a / 2 ^ (8 - n)) % 256

/-- The S-box as FIPS 197 defines it: the inverse, then the affine map. -/
def aesSboxOf (a : Nat) : Nat :=
  let b := gfInv a
  Nat.xor (Nat.xor (Nat.xor (Nat.xor (Nat.xor b (rotl8 b 1)) (rotl8 b 2)) (rotl8 b 3)) (rotl8 b 4)) 0x63

/-- The inverse S-box as FIPS 197 defines it. -/
def aesInvSboxOf (a : Nat) : Nat :=
  gfInv (Nat.xor (Nat.xor (Nat.xor (rotl8 a 1) (rotl8 a 3)) (rotl8 a 6)) 0x05)

/-- The S-box as a table, entry a in bits [8a+7:8a]; Laws/Aes.lean shows that it is `aesSboxOf`. -/
def aesTable : Nat :=
  0x16bb54b00f2d99416842e6bf0d89a18cdf2855cee9871e9b948ed9691198f8e19e1dc186b95735610ef6034866b53e708a8bbd4b1f74dde8c6b4a61c2e2578ba08ae7a65eaf4566ca94ed58d6d37c8e779e4959162acd3c25c2406490a3a32e0db0b5ede14b8ee4688902a22dc4f816073195d643d7ea7c41744975fec130ccdd2f3ff1021dab6bcf5389d928f40a351a89f3c507f02f94585334d43fbaaefd0cf584c4a39becb6a5bb1fc20ed00d153842fe329b3d63b52a05a6e1b1a2c830975b227ebe28012079a059618c323c7041531d871f1e5a534ccf73f362693fdb7c072a49cafa2d4adf04759fa7dc982ca76abd7fe2b670130c56f6bf27b777c63

/-- The inverse S-box as a table in the same form. -/
def aesInvTable : Nat :=
  0x7d0c2155631469e126d677ba7e042b17619953833cbbebc8b0f52aae4d3be0a0ef9cc9939f7ae52d0d4ab519a97f51605fec8027591012b131c7078833a8dd1ff45acd78fec0db9a2079d2c64b3e56fc1bbe18aa0e62b76f89c5291d711af1476edf751ce837f9e28535ade72274ac9673e6b4f0cecff297eadc674f4111913a6b8a130103bdafc1020f3fca8f1e2cd00645b3b80558e4f70ad3bc8c00abd890849d8da75746155edab9edfd5048706c92b6655dcc5ca4d41698688664f6f87225d18b6d49a25b76b224d92866a12e084ec3fa420b954cee3d23c2a632947b54cbe9dec444438e3487ff2f9b8239e37cfbd7f3819ea340bf38a53630d56a0952

/-- The S-box. -/
def aesSbox (a : Nat) : Nat := aesTable / 2 ^ (8 * a) % 256

/-- The inverse S-box. -/
def aesInvSbox (a : Nat) : Nat := aesInvTable / 2 ^ (8 * a) % 256

/-- Two byte strings combined. -/
def xorL (a b : List Nat) : List Nat := List.zipWith Nat.xor a b

/-- The next 4-byte word of the key schedule: `i` is its index, `nk` the key length in words. -/
def keyWord (nk i : Nat) (prev back : List Nat) (rcon : Nat) : List Nat :=
  let t :=
    if i % nk = 0 then
      match (prev.drop 1 ++ prev.take 1).map aesSbox with
      | x :: xs => Nat.xor x rcon :: xs
      | [] => []
    else if nk > 6 ∧ i % nk = 4 then prev.map aesSbox
    else prev
  xorL back t

/-- The key schedule: the words so far newest first, the index of the next word, and the round constant. -/
def keyExpand (nk : Nat) : Nat → List (List Nat) → Nat → Nat → List (List Nat)
  | 0, ws, _, _ => ws.reverse
  | n + 1, ws, i, rcon =>
    let w := keyWord nk i (ws.getD 0 []) (ws.getD (nk - 1) []) rcon
    keyExpand nk n (w :: ws) (i + 1) (if i % nk = 0 then gfX rcon else rcon)

/-- The round keys of a 16-byte or 32-byte key, 16 bytes each. -/
def roundKeys (key : List Byte) : List (List Nat) :=
  let k := key.map (·.toNat)
  let nk := k.length / 4
  let total := 4 * (nk + 7)
  let ws := keyExpand nk (total - nk) (chunksOf 4 nk k).reverse nk 1
  (chunksOf 4 (nk + 7) ws).map (fun l => l.flatten)

/-- ShiftRows on a column-major state. -/
def shiftRows (s : List Nat) : List Nat :=
  [0, 5, 10, 15, 4, 9, 14, 3, 8, 13, 2, 7, 12, 1, 6, 11].map (fun i => s.getD i 0)

/-- The inverse of ShiftRows. -/
def invShiftRows (s : List Nat) : List Nat :=
  [0, 13, 10, 7, 4, 1, 14, 11, 8, 5, 2, 15, 12, 9, 6, 3].map (fun i => s.getD i 0)

/-- One column multiplied by the circulant matrix whose first row is given. -/
def mixCol (m0 m1 m2 m3 : Nat) (c : List Nat) : List Nat :=
  let f := fun a b d e x y z w => Nat.xor (Nat.xor (gfMul x a) (gfMul y b)) (Nat.xor (gfMul z d) (gfMul w e))
  match c with
  | [x, y, z, w] => [f m0 m1 m2 m3 x y z w, f m3 m0 m1 m2 x y z w, f m2 m3 m0 m1 x y z w, f m1 m2 m3 m0 x y z w]
  | _ => c

/-- MixColumns. -/
def mixCols (s : List Nat) : List Nat := (chunksOf 4 4 s).flatMap (mixCol 2 3 1 1)

/-- The inverse of MixColumns. -/
def invMixCols (s : List Nat) : List Nat := (chunksOf 4 4 s).flatMap (mixCol 14 11 13 9)

/-- The rounds of encryption after the first key addition. -/
def aesRounds : List (List Nat) → List Nat → List Nat
  | [], s => s
  | [k], s => xorL (shiftRows (s.map aesSbox)) k
  | k :: ks, s => aesRounds ks (xorL (mixCols (shiftRows (s.map aesSbox))) k)

/-- AES encryption of one 16-byte block. -/
def aesEnc (key blk : List Byte) : List Byte :=
  match roundKeys key with
  | [] => blk
  | k :: ks => (aesRounds ks (xorL (blk.map (·.toNat)) k)).map (BitVec.ofNat 8 ·)

/-- The rounds of decryption, round keys last first. -/
def aesInvRounds : List (List Nat) → List Nat → List Nat
  | [], s => s
  | [k], s => xorL ((invShiftRows s).map aesInvSbox) k
  | k :: ks, s => aesInvRounds ks (invMixCols (xorL ((invShiftRows s).map aesInvSbox) k))

/-- AES decryption of one 16-byte block. -/
def aesDec (key blk : List Byte) : List Byte :=
  match (roundKeys key).reverse with
  | [] => blk
  | k :: ks => (aesInvRounds ks (xorL (blk.map (·.toNat)) k)).map (BitVec.ofNat 8 ·)

/-- Two byte strings combined bit by bit. -/
def xorB (a b : List Byte) : List Byte := List.zipWith (fun x y => x ^^^ y) a b

/-- The doubling of R521: shift left one bit; if a 1 is shifted out, combine byte 15 with 0x87. -/
def cmacDbl (l : List Byte) : List Byte :=
  let n := beNat l
  beBytes 16 (if n ≥ 2 ^ 127 then Nat.xor (n * 2 % 2 ^ 128) 0x87 else n * 2)

/-- The chaining of R521 over the whole blocks before the last. -/
def cmacChain (key : List Byte) : List (List Byte) → List Byte → List Byte
  | [], c => c
  | m :: ms, c => cmacChain key ms (aesEnc key (xorB c m))

/-- R521: the 16-byte Signet of a message under a key. -/
def cmac (key msg : List Byte) : List Byte :=
  let zero := List.replicate 16 (0 : Byte)
  let k1 := cmacDbl (aesEnc key zero)
  let k2 := cmacDbl k1
  let n := max 1 (ceilDiv msg.length 16)
  let init := chunksOf 16 (n - 1) msg
  let tail := msg.drop (16 * (n - 1))
  let last :=
    if tail.length = 16 then xorB tail k1
    else xorB (tail ++ [0x80] ++ List.replicate (15 - tail.length) 0) k2
  aesEnc key (xorB (cmacChain key init zero) last)

/-- One step of KW unwrapping (SP 800-38F, algorithm W^-1): step t down to 1 over n semiblocks, with the list's last
semiblock next. -/
def kwSteps (kek : List Byte) : Nat → List Byte → List (List Byte) → List Byte × List (List Byte)
  | 0, a, rs => (a, rs)
  | t + 1, a, rs =>
    let blk := aesDec kek (xorB a (beBytes 8 (t + 1)) ++ rs.getLastD [])
    kwSteps kek t (blk.take 8) (blk.drop 8 :: rs.dropLast)

/-- R528: the key a wrapped payload holds, if its integrity check is intact. -/
def kwUnwrap (kek wrapped : List Byte) : Option (List Byte) :=
  let n := wrapped.length / 8 - 1
  let r := kwSteps kek (6 * n) (wrapped.take 8) (chunksOf 8 n (wrapped.drop 8))
  if r.1 = List.replicate 8 (0xA6 : Byte) then some r.2.flatten else none

end Sys2Proof.Machine
end

