-- ==== Sys2Proof/Machine/Glaeve.lean ====
section
/-! DEFINITION. Glaeve frames and the Signet (R510 to R514, R521). -/

namespace Sys2Proof.Machine

-- ---------------------------------------------------------------- opcodes (R514)

def opREAD : Nat := 0x01
def opWRITE : Nat := 0x02
def opPOP : Nat := 0x10
def opPEEK : Nat := 0x11
def opACK : Nat := 0x12
def opSUBSCRIBE : Nat := 0x13
def opCTX : Nat := 0x20
def opGRAFT : Nat := 0x30
def opPOWER : Nat := 0x40
def opRESET : Nat := 0x41
def opTIME : Nat := 0x50
def opKEY : Nat := 0x60
def opSTATUS : Nat := 0x70

/-- Word i of a command's payload. -/
def Cmd.word (c : Cmd) (i : Nat) : Word := c.payload.getD i 0

/-- The action of a command whose payload word 0 holds one in bits [3:0], and the rest of that word. -/
def Cmd.act (c : Cmd) : Nat := bitsOf (c.word 0).toNat 3 0
def Cmd.hi (c : Cmd) : Nat := bitsOf (c.word 0).toNat 31 4

/-- The opcodes of the table of R514. -/
def opcodes : List Nat :=
  [opREAD, opWRITE, opPOP, opPEEK, opACK, opSUBSCRIBE, opCTX, opGRAFT, opPOWER, opRESET, opTIME, opKEY, opSTATUS]

-- ---------------------------------------------------------------- requests (R510)

/-- A request as its frame carries it. Without CRIT the counter and the Signet are absent, and are zero here. -/
structure Req where
  op : BitVec 8
  flags : BitVec 8
  tag : BitVec 16
  addr : Word
  resv : BitVec 16
  ctr : BitVec 64
  payload : List Word
  signet : BitVec 128
  crc : Word
  deriving DecidableEq, Repr

def Req.crit (r : Req) : Bool := r.flags.getLsbD 0

/-- Bytes 0 to 11. -/
def reqHead (r : Req) : List Byte :=
  [r.op, r.flags] ++ leBytes 2 r.tag.toNat ++ leBytes 4 r.addr.toNat ++ leBytes 2 r.payload.length ++ leBytes 2 r.resv.toNat

/-- The bytes a Signet covers: header, counter and payload. -/
def reqSigned (r : Req) : List Byte := reqHead r ++ (if r.crit then leBytes 8 r.ctr.toNat else []) ++ wordsBytes r.payload

/-- The bytes the CRC covers. -/
def reqBody (r : Req) : List Byte := reqSigned r ++ (if r.crit then leBytes 16 r.signet.toNat else [])

/-- The whole frame. -/
def reqBytes (r : Req) : List Byte := reqBody r ++ wordBytes r.crc

/-- The length of a frame with these FLAGS and this LEN. -/
def reqLength (flags : Byte) (len : Nat) : Nat := 16 + 4 * len + (if flags.getLsbD 0 then 24 else 0)

/-- The fields of a frame whose length is as its LEN and CRIT say. (DEDUCED, notes/assumptions/27.md.) -/
def parseReq (b : List Byte) : Option Req :=
  let flags := b.getD 1 0
  let len := leNat ((b.drop 8).take 2)
  let crit := flags.getLsbD 0
  let body := (b.drop 12).drop (if crit then 8 else 0)
  let tail := body.drop (4 * len)
  if b.length = reqLength flags len then
    some { op := b.getD 0 0, flags := flags, tag := BitVec.ofNat 16 (leNat ((b.drop 2).take 2))
           addr := BitVec.ofNat 32 (leNat ((b.drop 4).take 4)), resv := BitVec.ofNat 16 (leNat ((b.drop 10).take 2))
           ctr := BitVec.ofNat 64 (if crit then leNat ((b.drop 12).take 8) else 0)
           payload := bytesWords len body
           signet := BitVec.ofNat 128 (if crit then leNat (tail.take 16) else 0)
           crc := BitVec.ofNat 32 (leNat ((tail.drop (if crit then 16 else 0)).take 4)) }
  else none

/-- The CRC field holds the CRC-32C of every byte before it (R512). -/
def reqCrcHolds (r : Req) : Bool := crc32c (reqBody r) == r.crc

/-- The Signet field as AES-CMAC's bytes, the first in bits [7:0] (R513). -/
def signetBytes (v : BitVec 128) : List Byte := leBytes 16 v.toNat

/-- The Signet of a request under a key verifies (R521). -/
def signetHolds (key : List Byte) (r : Req) : Bool := cmac key (reqSigned r) == signetBytes r.signet

/-- The request a command row spells. -/
def reqOf (op : Nat) (h : Hdr) (addr : Word) (payload : List Word) : Req :=
  { op := BitVec.ofNat 8 op, flags := h.flags, tag := h.tag, addr := addr, resv := h.resv
    ctr := if h.flags.getLsbD 0 then h.ctr else 0, payload := payload
    signet := if h.flags.getLsbD 0 then h.signet else 0, crc := h.crc }

-- ---------------------------------------------------------------- responses (R511)

/-- A response's bytes. -/
def respBytes (r : Resp) : List Byte :=
  let c := r.cmd
  let head : List Byte :=
    [BitVec.ofNat 8 (128 + c.op), BitVec.ofNat 8 (b2n (c.flags.getLsbD 0) + 2 * b2n r.race)] ++ leBytes 2 c.tag.toNat ++
    leBytes 4 c.addr.toNat ++ leBytes 2 r.payload.length ++ leBytes 1 r.status ++ leBytes 1 0
  let body := head ++ (match c.ctr with | some x => leBytes 8 x | none => []) ++ wordsBytes r.payload
  body ++ wordBytes (crc32c body)

end Sys2Proof.Machine
end

