-- ==== Sys2Proof/Machine/Fuses.lean ====
section
/-! DEFINITION. The fuse map and the levels of the reset sources (R618 to R621, R626 to R629). -/

namespace Sys2Proof.Machine

/-- Fuse word w: the factory words, and the rest of the OTP (R626). -/
def fuseWord (s : State) (w : Nat) : Word := if w < 8 then Config.factoryWord w else tabGet (fun _ => 0) s.nv.otp w

/-- A bit of fuse word 12: 0 MAPLOCK, 1 PROVLOCK, 2 NOPARTNERBOOT, 3 NOJTAG, 4 NOUART, 5 PKHLOCK. -/
def fuseBit (s : State) (i : Nat) : Bool := bitOf (fuseWord s 12).toNat i

/-- The fuse map locks word w against programming (R577, R626). -/
def fuseLocked (s : State) (w : Nat) : Bool :=
  decide (w < 8) || (decide (8 ≤ w) && decide (w < 12) && fuseBit s 0) || (decide (13 ≤ w) && decide (w < 16)) ||
  (decide (16 ≤ w) && decide (w < 24) && fuseBit s 5)

/-- The sources whose effect is fixed (R618). -/
def srcFixed (i : Nat) : Bool := decide (i ≤ 5) || i == 22 || i == 23 || i == 26 || i == 27

/-- The level that a reset-map field gives: the highest bit set of bits [2:0] (R627). -/
def fieldLevel (x : Nat) : Nat := if bitOf x 2 then 0 else if bitOf x 1 then 1 else if bitOf x 0 then 2 else 3

/-- The level the fuse map gives source i (R627). -/
def mapLevel (s : State) (i : Nat) : Nat := fieldLevel (bitsOf (fuseWord s (8 + i / 8)).toNat (4 * (i % 8) + 3) (4 * (i % 8)))

/-- A source has a unit that an L3 reset can name (R618, R619). -/
def srcHasUnit (i : Nat) : Bool := i == 8 || i == 9 || i == 12 || i == 18 || i == 19 || i == 21

/-- The level at which source i asserts: never narrower than L2 without a unit (R619). -/
def srcLevel (s : State) (i : Nat) : Nat := if mapLevel s i = 3 && !srcHasUnit i then 2 else mapLevel s i

/-- RST_MAPm (R627, R666): LEVEL in bits [4i+1:4i] and FIXED in bit 4i+2 of source 8m + i. -/
def mapWord (s : State) (m : Nat) : Word :=
  wordOf (sumNat ((List.range 8).map (fun i =>
    let n := 8 * m + i
    16 ^ i * (if srcFixed n then 4 else if n ≥ 28 then 0 else mapLevel s n))))

end Sys2Proof.Machine
end

