-- ==== Sys2Proof/Machine/Windows.lean ====
section
/-! DEFINITION. Calibration memory windows and sensor identity (R161 to R189). -/

namespace Sys2Proof.Machine

def winBase : Nat := 0x40000000
def winSize : Nat := 0x01000000

/-- The port of a window address. -/
def winPort (a : Nat) : Nat := (a - winBase) / winSize

/-- A window or identity command can reach port n's wire: the port is enabled in word mode and its bank is good and not held (R164). -/
def wordPortUp (s : State) (n : Nat) : Bool :=
  flag s (R.FP_CTL n) F.FP_CTL_EN && fld s (R.FP_CTL n) F.FP_CTL_MODE == 1 && (portGet s n).bankOk && !bankHeld s n

/-- The window command is answered LINK_DOWN without reaching a wire (R164). -/
def winDown (s : State) (n : Nat) : Bool := !wordPortUp s n || !flag s (R.CW_CTL n) F.CW_CTL_WEN

/-- The select of the window is refused in independent mode (R165). -/
def winSelBad (s : State) (n : Nat) : Bool := !portDec s n && ssFn s n (fld s (R.CW_CFG n) F.CW_CFG_SEL) != 1

/-- The bytes of the next chunk (R166). -/
def chunkLen (s : State) (n : Nat) (w : WinCmd) : Nat := min (fld s (R.CW_CFG n) F.CW_CFG_MAXB) (w.want - w.got.length)

/-- The half-period of a window command in ns (R166). -/
def winHalf (s : State) (n : Nat) : Nat :=
  let h := fld s (R.CW_CFG n) F.CW_CFG_HALF
  5 * (if h = 0 then fld s (R.FP_CLK n) F.FP_CLK_HALF else h)

/-- The address bits and dummy periods of a window command (R161). -/
def addrLen (s : State) (n : Nat) : Nat := (if flag s (R.CW_CFG n) F.CW_CFG_ALEN then 32 else 24) + fld s (R.CW_CFG n) F.CW_CFG_DUMMY

/-- The time from the select of a window command of so many bits to its last SCK edge: the setup gap, and one edge each half-period from
the first (R91, R166, R168). (DEDUCED, notes/assumptions/52.md.) -/
def winTime (s : State) (n bits : Nat) : Nat := (fld s (R.FP_GAP n) F.FP_GAP_SETUP + 2 * bits - 1) * winHalf s n

/-- A transaction slot of the port waits for the wire; one that waits at a timed TRIG step asks for it in the microsecond before its
instant (R167, R239). -/
def slotWaits (s : State) (n : Nat) : Bool := (grantTo s n).isSome

/-- A serial command of the port may take the wire: it is free, with no slot waiting for it (R167, R170). -/
def serialMayRun (s : State) (n : Nat) : Bool := wireFree s n && !slotWaits s n && wordPortUp s n && !portInReset s n

/-- A window command may take the wire (R167, R177). -/
def winMayRun (s : State) (n : Nat) : Bool := serialMayRun s n && !winDown s n && (portGet s n).endWin == 0

/-- The words a READ answers with: the bytes in arrival order (R162). -/
def winWords (bytes : List Byte) (n : Nat) : List Word := bytesWords (n / 4) bytes

/-- The status and the words that a READ which has its bytes is answered with (R56, R162, R536). -/
def winAnswer (w : WinCmd) (bytes : List Byte) : Nat × List Word :=
  (if w.past > 0 then stOVERRUN else stOK, winWords bytes w.want ++ List.replicate w.past 0)

/-- The words of a READ that is answered without its data. (DEDUCED, notes/assumptions/32.md.) -/
def winZeros (w : WinCmd) : List Word := List.replicate (w.want / 4 + w.past) 0

/-- The front window command leaves the queue with a status. -/
def winEnd (n st : Nat) (race : Bool) (payload : List Word) (s : State) : State :=
  match (portGet s n).winQ with
  | [] => s
  | w :: rest =>
    let s := portMod n (fun p => { p with winQ := rest, endWin := p.endWin - 1 }) s
    let s := if w.write then setFlag (R.CW_STAT n) F.CW_STAT_WIP false s else s
    answerCmd w.port.val w.cmd st race payload s

/-- Bytes in the port's bit order, each most or least significant bit first (R87). -/
def bytesOrder (s : State) (n : Nat) (bs : List Byte) : List Bool := bs.flatMap (fun b => inOrder s n 8 b.toNat)

/-- The address of a serial command, most significant bit first, and its dummy periods with DO low (R161). -/
def addrBits (s : State) (n a : Nat) : List Bool :=
  (if flag s (R.CW_CFG n) F.CW_CFG_ALEN then natBits 32 a else natBits 24 a) ++ List.replicate (fld s (R.CW_CFG n) F.CW_CFG_DUMMY) false

/-- A serial command runs on the wire with a select or code, sends its bits and then receives so many: time passes to its last SCK edge;
its select is released after the hold gap, and the idle gap follows (R91, R161, R166, R168). (DEDUCED, notes/assumptions/52.md.) -/
def serialRun (n sel : Nat) (tx : List Bool) (rx : Nat) (s : State) : State :=
  let s := toElapsed (s.elapsed + winTime s n (tx.length + rx)) s
  let s := portMod n (fun p => { p with txBits := tx, txSel := sel }) s
  noteRelease n none sel (s.elapsed + fld s (R.FP_GAP n) F.FP_GAP_HOLD * winHalf s n) (fld s (R.FP_GAP n) F.FP_GAP_IDLE * winHalf s n) s

/-- A command of the port's window runs with the select in CWn_CFG.SEL. -/
def winRun (n : Nat) (tx : List Bool) (rx : Nat) (s : State) : State := serialRun n (fld s (R.CW_CFG n) F.CW_CFG_SEL) tx rx s

/-- An opcode of CWn_CMD in the port's bit order. -/
def opBits (s : State) (n : Nat) (f : Fld) : List Bool := inOrder s n 8 (fld s (R.CW_CMD n) f)

/-- A READ chunk's command (R161): the address advances by the bytes already read. -/
def readBits (s : State) (n a : Nat) : List Bool := opBits s n F.CW_CMD_RDOP ++ addrBits s n a

/-- The program command of a WRITE (R175): its address and its data bytes. The dummy periods belong to the command of R161, which reads;
a program command has none. (DEDUCED, notes/assumptions/52.md.) -/
def progBits (s : State) (n : Nat) (w : WinCmd) : List Bool :=
  opBits s n F.CW_CMD_WROP ++ (if flag s (R.CW_CFG n) F.CW_CFG_ALEN then natBits 32 w.addr else natBits 24 w.addr) ++ bytesOrder s n w.bytes

/-- A status byte ends the WRITE once its bit 0 is 0 (R175, R176); the repeats count from its read. -/
def statusByte (n : Nat) (st : Byte) (s : State) : State :=
  if st.getLsbD 0 then
    match (portGet s n).winQ with
    | w :: rest => portMod n (fun p => { p with winQ := { w with phase := 3, srop := s.elapsed } :: rest }) s
    | [] => s
  else winEnd n stOK false [] s

/-- The status read of a WRITE runs (R175). -/
def statusRead (n : Nat) (st : Byte) (s : State) : State := statusByte n st (winRun n (opBits s n F.CW_CMD_SROP) 8 s)

/-- Every window command of a port ends with LINK_DOWN (R177). -/
def answerWindows (n k : Nat) (s : State) : State :=
  eachOf ((portGet s n).winQ.take k) (fun w s =>
    let s := onlyIf (w.write && decide (w.phase ≥ 2)) (evt (R.CW_EVT n) F.CW_EVT_WFAIL) s
    winEnd n stLINK_DOWN false (if w.write then [] else winZeros w) s) s

/-- The window commands that end are answered once the wire is free: no slot holds it, and a select in its hold gap is released (R79, R177). -/
def portTail (n : Nat) (s : State) : State :=
  if (portGet s n).endWin != 0 && (portGet s n).wire.isNone then answerWindows n (portGet s n).endWin (toElapsed (portGet s n).relAt s) else s

/-- Every window command of a port ends: none starts again, and each is answered LINK_DOWN once the wire is free (R177). -/
def endWindows (n : Nat) (s : State) : State :=
  portTail n (portMod n (fun p => { p with endWin := p.winQ.length }) s)

/-- The next chunk or write command of the port's first window command runs whole (R161, R167, R175); identity reads of the port
come first (R170). One that follows a command in its hold or idle gap takes the wire as the gap ends. (DEDUCED, notes/assumptions/52.md.) -/
def winStep (n : Nat) (rx : List Byte) (s : State) : State :=
  let s := if (portGet s n).wire.isNone && !slotWaits s n && !(portGet s n).winQ.isEmpty then toElapsed (portGet s n).freeAt s else s
  match (portGet s n).winQ with
  | [] => s
  | w :: rest =>
    let put (w : WinCmd) (s : State) : State := portMod n (fun p => { p with winQ := w :: rest }) s
    if !winMayRun s n || !(portGet s n).idDue.isEmpty then s
    else if w.write then
      match w.phase with
      | 0 => setFlag (R.CW_STAT n) F.CW_STAT_WIP true (put { w with phase := 1 } (winRun n (opBits s n F.CW_CMD_WEOP) 0 s))
      | 1 => put { w with phase := 2 } (winRun n (progBits s n w) 0 s)
      | 2 =>
        match rx with
        | [st] => statusRead n st (put { w with wlim := some s.elapsed } s)
        | _ => s
      | _ => s
    else if rx.length != chunkLen s n w then s
    else
      let s := cnt (R.CW_CNT_RD n) (winRun n (readBits s n (w.addr + w.got.length)) (8 * rx.length) s)
      let got := w.got ++ rx
      let s := put { w with got := got } s
      if got.length = w.want then winEnd n (winAnswer w got).1 false (winAnswer w got).2 s else s

/-- The status read repeats 100 µs after the last one (R175). -/
def winStatus (n : Nat) (st : Byte) (s : State) : State :=
  match (portGet s n).winQ with
  | w :: _ =>
    if !w.write || w.phase != 3 || (portGet s n).wire.isSome || slotWaits s n then s
    else
      let s := toElapsed (max (w.srop + 100000) (portGet s n).freeAt) s
      if winMayRun s n && (portGet s n).idDue.isEmpty then statusRead n st s else s
  | [] => s

/-- A READ's last chunk is on the wire with these bytes. -/
def lastChunk (s : State) (n : Nat) (w : WinCmd) (rx : List Byte) : Bool :=
  winMayRun s n && rx.length == chunkLen s n w && w.got.length + rx.length == w.want

/-- The limit of the oldest window READ of a port expires; with the last edge of its last chunk in the same cycle the READ is
answered OK (R171, R172). (DEDUCED, notes/assumptions/59.md.) -/
def winReadLimit (n : Nat) (same : Bool) (rx : List Byte) (s : State) : State :=
  let q := (portGet s n).winQ
  match q.dropWhile (·.write) with
  | [] => s
  | w :: rest =>
    let before := q.takeWhile (·.write)
    let wins := same && before.isEmpty && lastChunk s n w rx
    let s := toElapsed (w.since + 1000000 * fld s (R.CW_TLIM n) F.CW_TLIM_LIMIT) s
    let s' := portMod n (fun p => { p with winQ := before ++ rest, endWin := if before.length < p.endWin then p.endWin - 1 else p.endWin }) s
    if wins then
      let s' := cnt (R.CW_CNT_RD n) (evt (R.CW_EVT n) F.CW_EVT_RACE (raceField s'))
      let half := winHalf s n
      let s' := portMod n (fun p => { p with txBits := readBits s n (w.addr + w.got.length), txSel := fld s (R.CW_CFG n) F.CW_CFG_SEL }) s'
      let s' := noteRelease n none (fld s (R.CW_CFG n) F.CW_CFG_SEL) (s.elapsed + fld s (R.FP_GAP n) F.FP_GAP_HOLD * half)
        (fld s (R.FP_GAP n) F.FP_GAP_IDLE * half) s'
      answerCmd w.port.val w.cmd (winAnswer w (w.got ++ rx)).1 false (winAnswer w (w.got ++ rx)).2 s'
    else answerCmd w.port.val w.cmd stTIMEOUT false (winZeros w) (evt (R.CW_EVT n) F.CW_EVT_TMO s')

/-- The limit of a window WRITE expires (R176): it counts from the start of command 3 (DEDUCED, notes/assumptions/52.md). A status read
that ends in the same cycle with bit 0 at 0 wins (R37). (DEDUCED, notes/assumptions/59.md.) -/
def winWriteLimit (n : Nat) (sameCycle : Option Byte) (s : State) : State :=
  match (portGet s n).winQ with
  | w :: _ =>
    match w.wlim with
    | some b =>
      let s := toElapsed (b + 1000000 * fld s (R.CW_TLIM n) F.CW_TLIM_WLIM) s
      let clear := match sameCycle with | some st => !st.getLsbD 0 | none => false
      if clear then winEnd n stOK false [] (evt (R.CW_EVT n) F.CW_EVT_RACE (raceField s))
      else winEnd n stTIMEOUT false [] (evt (R.CW_EVT n) F.CW_EVT_WFAIL s)
    | none => s
  | [] => s

/-- A window READ of so many words is refused (R163 to R165, R170). -/
def winReadBad (s : State) (a count : Nat) : Option Nat :=
  let n := winPort a
  if a % 4 != 0 || count == 0 || decide (count > 256) then some stRANGE
  else if winDown s n then some stLINK_DOWN
  else if winSelBad s n then some stRANGE
  else if (portGet s n).winQ.length ≥ 4 then some stBUSY
  else none

/-- A critical window WRITE of so many words is refused (R164, R165, R170, R174). The RANGE of R174, which the address and the length show,
is judged before the LINK_DOWN of R164, and a named line that is no select output refuses a WRITE as R165 has it of a READ. (DESIGN
CHOICE, notes/assumptions/65.md.) -/
def winWriteBad (s : State) (a count : Nat) : Option Nat :=
  let n := winPort a
  let page := 2 ^ fld s (R.CW_CFG n) F.CW_CFG_PAGEL
  if a % 4 != 0 || count == 0 || decide (count > 64) || a / page != (a + 4 * count - 1) / page then some stRANGE
  else if winDown s n then some stLINK_DOWN
  else if winSelBad s n then some stRANGE
  else if (portGet s n).winQ.length ≥ 4 then some stBUSY
  else none

/-- A window command joins the queue of its port (R170); its words beyond the window are not read (R56). -/
def winEnqueue (p : Partner) (c : Cmd) (write : Bool) (a count : Nat) (ws : List Word) (s : State) : State :=
  let n := winPort a
  let inside := min count ((winSize - a % winSize) / 4)
  let w : WinCmd := { port := p, cmd := c, write := write, addr := a % winSize, bytes := wordsBytes ws
                      want := if write then 0 else 4 * inside, got := [], past := if write then 0 else count - inside
                      since := c.since.getD s.elapsed }
  portMod n (fun u => { u with winQ := u.winQ ++ [w] }) s

-- ---------------------------------------------------------------- identity (R178 to R187)

/-- The identity read of a slot falls due now. -/
def idAdd (n i : Nat) (s : State) : State :=
  if (portGet s n).idDue.contains i then s
  else portMod n (fun p => { p with idDue := p.idDue ++ [i], idRetry := p.idRetry.filter (· != i), idAt := tabSet (fun _ => 0) p.idAt i s.elapsed }) s

/-- The probe period of a slot ends, and its identity read falls due: while it is ABSENT, while it is PRESENT with RECHK, and after a read that
ended without bytes (R179, R180). One in no state is read at once. (DESIGN CHOICE, notes/assumptions/17.md.) -/
def idReadDue (n i : Nat) (s : State) : State :=
  let st := idState s n i
  let again := (portGet s n).idRetry.contains i
  let probes := again || st == 2 || (st == 1 && flag s (R.CW_PROBE n) F.CW_PROBE_RECHK)
  if !(idUsed s n i && flag s (R.FP_CTL n) F.FP_CTL_EN && (probes || st == 0)) || (portGet s n).idDue.contains i then s
  else if probes then
    idAdd n i (toElapsed (tabGet (fun _ => 0) (portGet s n).idAt i + 1000000 * fld s (R.CW_PROBE n) F.CW_PROBE_PERIOD) s)
  else idAdd n i s

/-- Identity slots that checking is switched off for, or that are no longer in use, are not read (R179). Those of an enabled word-mode port that
no read has judged fall due when checking or a slot is switched on (R180; DESIGN CHOICE, notes/assumptions/17.md). -/
def idsFollow (n : Nat) (s : State) : State :=
  let used := idUsed s n
  let s := portMod n (fun p => { p with idDue := p.idDue.filter used, idRetry := p.idRetry.filter used }) s
  if flag s (R.FP_CTL n) F.FP_CTL_EN && fld s (R.FP_CTL n) F.FP_CTL_MODE == 1 then
    eachOf (usedIds s n) (fun i s => if idState s n i == 0 && !(portGet s n).idRetry.contains i then idAdd n i s else s) s
  else s

/-- The bytes compared: IDLEN of SEEN or of the reference. -/
def idBytes (s : State) (n lo hi : Nat) : List Byte :=
  (wordBytes (reg s lo) ++ wordBytes (reg s hi)).take (fld s (R.CW_ID n) F.CW_ID_IDLEN)

/-- SEEN is copied to the reference. -/
def seenToRef (n i : Nat) (s : State) : State :=
  setReg (R.CW_IDS_REFHI n i) (reg s (R.CW_IDS_SEENHI n i)) (setReg (R.CW_IDS_REFLO n i) (reg s (R.CW_IDS_SEENLO n i)) s)

/-- The slot leaves ABSENT: each of its contexts reports the due times not polled (R183). One that skipped no due time writes no record.
(DEDUCED, notes/assumptions/62.md.) -/
def leaveAbsent (n i : Nat) (s : State) : State :=
  eachOf (idCtxs s n i) (fun k s =>
    match (ctxGet s k).absent with
    | some (a, b, m) => writeGap k 3 a b m (ctxMod k (fun c => { c with absent := none }) s)
    | none => s) s

/-- The slot takes a state. (DEDUCED, notes/assumptions/52.md.) -/
def idEnter (n i st : Nat) (s : State) : State :=
  let old := idState s n i
  let s := setFld (R.CW_STAT n) (idFld i) st s
  let s := onlyIf (st == 2 && old != 2) (evt (R.CW_EVT n) F.CW_EVT_ABSENT) s
  let s := onlyIf (st == 3 && old != 3) (fun s => evt (R.CW_EVT n) F.CW_EVT_SWAP (cnt (R.CW_CNT_SWAP n) s)) s
  if old == 2 && st != 2 then leaveAbsent n i s else s

/-- An accept of slot i (R185). -/
def idAccept (n i : Nat) (s : State) : State :=
  if idState s n i != 3 then s
  else
    let s := evt (R.CW_EVT n) F.CW_EVT_ACCEPTED (seenToRef n i s)
    let s := eachOf (idCtxs s n i) (fun k s => ctxMod k (fun c => { c with quarKeep := cState s k == stRunning }) s) s
    idEnter n i 1 s

/-- The state that an identity read with these bytes leaves its slot in (R179). -/
def idResult (n i : Nat) (bs : List Byte) (s : State) : State :=
  let s := setReg (R.CW_IDS_SEENHI n i) (wordOf (leNat (bs.drop 4))) (setReg (R.CW_IDS_SEENLO n i) (wordOf (leNat (bs.take 4))) s)
  if bs.all (· == 0xFF) then idEnter n i 2 s
  else if bs == idBytes s n (R.CW_IDS_REFLO n i) (R.CW_IDS_REFHI n i) then idEnter n i 1 s
  else if flag s (R.CW_CTL n) F.CW_CTL_AUTOACC then
    idEnter n i 1 (evt (R.CW_EVT n) F.CW_EVT_SWAP (evt (R.CW_EVT n) F.CW_EVT_ACCEPTED (seenToRef n i s)))
  else idEnter n i 3 s

/-- The slot's identity read has ended: it is no longer due, and its first read is done (R181). -/
def idEnded (n i : Nat) (again : Bool) (s : State) : State :=
  portMod n (fun p => { p with idDue := p.idDue.filter (· != i), idDone := if p.idDone.contains i then p.idDone else p.idDone ++ [i]
                               idRetry := if again then p.idRetry ++ [i] else p.idRetry
                               idAt := if again then tabSet (fun _ => 0) p.idAt i s.elapsed else p.idAt }) s

/-- An identity read of slot i ends (R178, R179, R181, R187). One without bytes has met the limit of R171, or the bank is down: it is
repeated after the probe period. Its command does not count in CWn_CNT_RD, and it needs no WEN. (DEDUCED, notes/assumptions/52.md.) -/
def idJudge (n i : Nat) (rx : Option (List Byte)) (withAccept : Bool) (s : State) : State :=
  let accept (s : State) : State := if withAccept then idAccept n i s else s
  if !(portGet s n).idDue.contains i || !idUsed s n i then s
  else
    match rx with
    | none =>
      let at_ := tabGet (fun _ => 0) (portGet s n).idAt i + 1000000 * fld s (R.CW_TLIM n) F.CW_TLIM_LIMIT
      idEnded n i true (accept (if (portGet s n).bankOk then toElapsed at_ s else s))
    | some bs =>
      let s := if (portGet s n).wire.isNone && !slotWaits s n then toElapsed (portGet s n).freeAt s else s
      if bs.length != fld s (R.CW_ID n) F.CW_ID_IDLEN || !serialMayRun s n then s
      else
        let s := serialRun n (fld s (R.CW_IDS_CTL n i) F.CW_IDS_CTL_SEL) (readBits s n (fld s (R.CW_ID n) F.CW_ID_IDADDR)) (8 * bs.length) s
        idResult n i bs (idEnded n i false (accept s))

end Sys2Proof.Machine
end

