-- ==== Sys2Proof/Machine/Pads.lean ====
section
/-! DEFINITION. The release of held banks (R697 to R700, R760 to R762). -/

namespace Sys2Proof.Machine

/-- The side a bank belongs to (R697). -/
def bankSide (b : Nat) : Side := if b < 6 then .field else .host

/-- The banks that exist: 0 to 5, 8, 9 and 10. -/
def allBanks : List Nat := [0, 1, 2, 3, 4, 5, 8, 9, 10]

/-- Bank b is released: its balls return to their functions, each enabled field port runs the release periods of R140 and its
schedules resume, and an HWAKE_OUT that waits for the VHIO bank rises (R690, R693, R698, R760, R762). (DEDUCED, notes/assumptions/57.md.) -/
def releaseBank (b : Nat) (s : State) : State :=
  if !s.pow.held.contains b then s
  else
    let s := { s with pow := { s.pow with held := s.pow.held.filter (· != b) } }
    if b < 6 then
      let s := eachOf (tilePorts b) (fun n s =>
        if flag s (R.FP_CTL n) F.FP_CTL_EN && fld s (R.FP_CTL n) F.FP_CTL_MODE != 0 && (portGet s n).bankOk then releaseSeq n s else s) s
      if fld s R.TB_STAT F.TB_STAT_FSTATE != 0 then resumeBank b (fieldNs s) s else s
    else if b = 8 && s.pow.hwakeDue then driveHwake { s with pow := { s.pow with hwakeDue := false } }
    else s

/-- A write of 1 to a bank's bit of PWR_PADREL: released at once, or as its sleeping side reaches Run (R698, R761). -/
def padRelease (b : Nat) (s : State) : State :=
  match (sideGet s (bankSide b)).st with
  | .sleep | .deep =>
    startWake (bankSide b) 0x0B { s with pow := { s.pow with relDue := s.pow.relDue.filter (· != b) ++ [b] } }
  | .waking => { s with pow := { s.pow with relDue := s.pow.relDue.filter (· != b) ++ [b] } }
  | .off | .wakefail => s
  | _ => releaseBank b s

/-- A write of PWR_PADREL. (DEDUCED, notes/assumptions/57.md.) -/
def padrelWritten (v : Word) (s : State) : State := eachOf (allBanks.filter (fun b => bitOf v.toNat b)) padRelease s

/-- The banks that are released as a side reaches Run: those with AUTOREL and those asked for while it slept (R698, R761). -/
def releaseAtRun (x : Side) (s : State) : State :=
  let due := allBanks.filter (fun b => bankSide b = x && (bitOf (reg s R.PWR_BANKCFG).toNat b || s.pow.relDue.contains b))
  eachOf due releaseBank { s with pow := { s.pow with relDue := s.pow.relDue.filter (fun b => bankSide b ≠ x) } }

/-- A held bank of a host side whose supply fails or returns (R700, R762). -/
def hostSupply (b : Nat) (lost : Bool) (s : State) : State :=
  { s with pow := { s.pow with noSupply := s.pow.noSupply.filter (· != b) ++ (if lost then [b] else []) } }

end Sys2Proof.Machine
end

