-- ==== Sys2Proof/Machine/Timers.lean ====
section
/-! DEFINITION. The tile timers' registers, captures and debug freeze (R373 to R400, R407, R408). -/

namespace Sys2Proof.Machine

/-- The STAT.OWNER code of a source of writes: none is the configuration image, a port its number + 2 (R408). -/
def ownerCode : Option Nat → Nat
  | none => 1
  | some p => p + 2

/-- The channel whose EN, owner and CTL rule channel c: the even channel of a linked pair, else c itself (R374, R375). -/
def tmHead (s : State) (t c : Nat) : Nat := if tmOddOfPair s t c then c - 1 else c

def tmRuns (s : State) (t c : Nat) : Bool := tmCtl s t (tmHead s t c) F.FT_TMC_CTL_EN == 1

/-- A write of a channel's RWS fields by another than its owner (R397). -/
def tmForeign (s : State) (src : Option Nat) (t c : Nat) : Bool :=
  tmRuns s t c && fld s (R.FT_TMC_STAT t (tmHead s t c)) F.FT_TMC_STAT_OWNER != ownerCode src

/-- A TRIG pin that a context or another channel claims (R396). -/
def pinTaken (s : State) (t c pin : Nat) : Bool :=
  (List.range 8).any (fun j => j != c && chanClaims s t j && tmCtl s t j F.FT_TMC_CTL_PIN == pin) ||
  (List.range 512).any (fun k =>
    let mine (c : Claim) : Bool := c.port / 8 == t && bitOf c.trig pin
    cState s k != stFree && (mine (claimOf s k) || (pendingClaims s k).any mine)) ||
  (stagedClaims s 512).any (fun c => c.port / 8 == t && bitOf c.trig pin)

/-- A written CTL word's field. -/
def tmField (v : Word) (f : Fld) : Nat := getFld v f

/-- The refusal of a write of CTL by source `src`, or none (R368, R369, R374, R375, R379, R388, R390, R394, R396, R397,
R404). (DEDUCED, notes/assumptions/41.md.) -/
def tmCtlRefused (s : State) (src : Option Nat) (t c : Nat) (v : Word) : Option Nat :=
  let a := R.FT_TMC_CTL t c
  let v := if c % 2 == 1 then putFld v F.FT_TMC_CTL_LINK 0 else v
  let get := tmField v
  if tmForeign s src t c then some stCONFLICT
  else if tmOddOfPair s t c then (if tmRuns s t c then some stBUSY else none)
  else if flag s a F.FT_TMC_CTL_EN then
    if v &&& wordOf (namedBits a) == putFld (reg s a) F.FT_TMC_CTL_EN 0 then none else some stBUSY
  else if get F.FT_TMC_CTL_SRC == 3 || get F.FT_TMC_CTL_EDGE == 3 || get F.FT_TMC_CTL_ADDON == 3 || 5 ≤ get F.FT_TMC_CTL_OUTACT then some stRANGE
  else
    let en := get F.FT_TMC_CTL_EN == 1
    let src := get F.FT_TMC_CTL_SRC
    let linked := get F.FT_TMC_CTL_LINK == 1
    let intv := (reg s (R.FT_TMC_INTV t c)).toNat + (if linked then 2 ^ 32 * (reg s (R.FT_TMC_INTV t (c + 1))).toNat else 0)
    if en && src == 1 && fld s (R.FT_TMC_PRESC t c) F.FT_TMC_PRESC_PRESC != 0 then some stRANGE
    else if en && get F.FT_TMC_CTL_ADDON != 0 && intv < (if src == 1 then 8 else 1) then some stRANGE
    else if en && get F.FT_TMC_CTL_SLPACC == 1 && src == 2 then some stRANGE
    else if linked && flag s (R.FT_TMC_CTL t (c + 1)) F.FT_TMC_CTL_EN then some stCONFLICT
    else if en && (src == 2 || get F.FT_TMC_CTL_CAPEN == 1 || get F.FT_TMC_CTL_OUTACT != 0) && pinTaken s t c (get F.FT_TMC_CTL_PIN) then
      some stCONFLICT
    else none

/-- EN of a channel becomes 1 (R370, R380, R395, R396, R397). -/
def timerStart (src : Option Nat) (t c : Nat) (s : State) : State :=
  let s := setFlag (R.FT_TMC_STAT t c) F.FT_TMC_STAT_RUN true (setFld (R.FT_TMC_STAT t c) F.FT_TMC_STAT_OWNER (ownerCode src) s)
  let lv := if tmCtl s t c F.FT_TMC_CTL_OUTACT = 0 then none else some (!tmActive s t c)
  tmrMod (8 * t + c) (fun x => { x with on := true, phase := 0, edges := 0, level := lv, pulse := none }) s

/-- EN of a channel is cleared; a pulse in progress completes (R395, R396). -/
def timerStop (t c : Nat) (s : State) : State :=
  let s := setFlag (R.FT_TMC_STAT t c) F.FT_TMC_STAT_RUN false (setFld (R.FT_TMC_STAT t c) F.FT_TMC_STAT_OWNER 0 s)
  tmrMod (8 * t + c) (fun x => { x with on := false, level := if x.pulse.isSome then x.level else none
                                        heldCmp := none, heldIntv := none }) s

/-- An accepted write of CTL (R374, R395, R396). (DEDUCED, notes/assumptions/41.md.) -/
def tmCtlApply (src : Option Nat) (t c : Nat) (v : Word) (s : State) : State :=
  if tmOddOfPair s t c then s
  else
    let a := R.FT_TMC_CTL t c
    let was := flag s a F.FT_TMC_CTL_EN
    let v := if c % 2 == 1 then putFld v F.FT_TMC_CTL_LINK 0 else v
    let s := setReg a (v &&& wordOf (namedBits a)) s
    let now := flag s a F.FT_TMC_CTL_EN
    let s := if c % 2 == 0 then setFlag (R.FT_TMC_STAT t (c + 1)) F.FT_TMC_STAT_LINKED (flag s a F.FT_TMC_CTL_LINK) s else s
    if now && !was then timerStart src t c s else if was && !now then timerStop t c s else s

/-- The refusal of a write of PRESC, INCFG, PWID or CNT (R375, R397); PWID is 1 to 65,535 (R394, R408). -/
def tmCfgRefused (s : State) (src : Option Nat) (t c : Nat) (pwid : Bool) (v : Word) : Option Nat :=
  if tmForeign s src t c then some stCONFLICT
  else if tmRuns s t c then some stBUSY
  else if pwid && getFld v F.FT_TMC_PWID_PWID == 0 then some stRANGE
  else none

/-- The refusal of a write of CMP or INTV (R375, R397). -/
def tmLiveRefused (s : State) (src : Option Nat) (t c : Nat) : Option Nat :=
  if tmForeign s src t c then some stCONFLICT else none

/-- A whole write of CMP lands (R385 to R387). -/
def tmCmpLand (t c : Nat) (ws : List (Nat × Word)) (s : State) : State :=
  let h := tmHead s t c
  let put (a : Nat → Nat → Nat) (s : State) : State := eachOf ws (fun w s => setReg (a t w.1) w.2 s) s
  if !tmRuns s t c then setFlag (R.FT_TMC_STAT t h) F.FT_TMC_STAT_PEND false (put R.FT_TMC_CMP s)
  else if tmCtl s t h F.FT_TMC_CTL_CMPMODE == 1 then put R.FT_TMC_CMP s
  else setFlag (R.FT_TMC_STAT t h) F.FT_TMC_STAT_PEND true (put R.FT_TMC_CMPSH s)

/-- An accepted write of CMP; in a running pair the low half waits for the high half (R385 to R387, R391). -/
def cmpWritten (t c : Nat) (v : Word) (s : State) : State :=
  if tmLinked s t c && tmRuns s t c then tmrMod (8 * t + c) (fun x => { x with heldCmp := some v }) s
  else if tmOddOfPair s t c && tmRuns s t c then
    let low := match (tmrGet s (8 * t + (c - 1))).heldCmp with | some l => [(c - 1, l)] | none => []
    tmrMod (8 * t + (c - 1)) (fun x => { x with heldCmp := none }) (tmCmpLand t c (low ++ [(c, v)]) s)
  else tmCmpLand t c [(c, v)] s

/-- An accepted write of INTV (R390, R391). -/
def intvWritten (t c : Nat) (v : Word) (s : State) : State :=
  if tmLinked s t c && tmRuns s t c then tmrMod (8 * t + c) (fun x => { x with heldIntv := some v }) s
  else if tmOddOfPair s t c && tmRuns s t c then
    let s := match (tmrGet s (8 * t + (c - 1))).heldIntv with | some l => setReg (R.FT_TMC_INTV t (c - 1)) l s | none => s
    tmrMod (8 * t + (c - 1)) (fun x => { x with heldIntv := none }) (setReg (R.FT_TMC_INTV t c) v s)
  else setReg (R.FT_TMC_INTV t c) v s

/-- A write of FTt_TM_SNAP (R377, R378). -/
def snapTaken (t : Nat) (v : Word) (s : State) : State :=
  if v.toNat % 256 = 0 then s
  else
    let chans := (List.range 8).filter (fun c => bitOf v.toNat c || (tmLinked s t c && bitOf v.toNat (c + 1)) ||
      (tmOddOfPair s t c && bitOf v.toNat (c - 1)))
    let s := eachOf chans (fun c s => setReg (R.FT_TMC_SNAP t c) (reg s (R.FT_TMC_CNT t c)) s) s
    let now := fieldNs s
    { setReg (R.FT_TM_SNAPNS t) (wordOf (tNs now)) s with snapSec := tabSet (fun _ => (0 : Word)) s.snapSec t (wordOf (tSecLo now)) }

/-- A write of FTt_TM_CLR (R407). -/
def tmCleared (t : Nat) (v : Word) (s : State) : State :=
  eachOf ((List.range 8).filter (fun c => bitOf v.toNat c)) (fun c s => setReg (R.FT_TMC_MISS t c) 0 (setReg (R.FT_TMC_MATCHES t c) 0 s)) s

/-- A read of FTt_TM_SNAPNS latches SNAPSEC (R407). -/
def snapNsLatched (t : Nat) (s : State) : State := setReg (R.FT_TM_SNAPSEC t) (tabGet (fun _ => 0) s.snapSec t) s

/-- A read of FTt_TMc_CAP copies the capture's companions (R383). -/
def capLatched (t c : Nat) (s : State) : State :=
  if tmOddOfPair s t c then s
  else
    let x := tmrGet s (8 * t + c)
    let s := setReg (R.FT_TMC_CAPSEC t c) x.capSec (setReg (R.FT_TMC_CAPNS t c) x.capNs s)
    if tmLinked s t c then setReg (R.FT_TMC_CAP t (c + 1)) x.capHi s else s

/-- The readable CTL of a channel: zero for the odd channel of a linked pair (R374). -/
def tmCtlView (s : State) (t c : Nat) : Word := if tmOddOfPair s t c then 0 else reg s (R.FT_TMC_CTL t c)

/-- The readable STAT (R398, R408). (DEDUCED, notes/assumptions/41.md.) -/
def tmStatView (s : State) (t c : Nat) : Word :=
  putFld (reg s (R.FT_TMC_STAT t c)) F.FT_TMC_STAT_FROZEN (b2n (tmFrozen s t c))

-- ---------------------------------------------------------------- events

/-- Channel c makes a count step of d; it has to be one that its source can make and that steps into a match or an overflow (R371). -/
def tmEvent (t c d : Nat) (ok : Nat → Nat → Bool) (s : State) : State :=
  let md := tmMod s t c
  let a := tmRd s R.FT_TMC_CNT t c
  let can := match tmCtl s t c F.FT_TMC_CTL_SRC with
    | 1 => fld s R.TB_STAT F.TB_STAT_FSTATE != 0 && decide (4 ≤ d) && decide (d ≤ 6)
    | _ => d == 1
  if (tmrGet s (8 * t + c)).on && tileAwake s t && !tmFrozen s t c && can && ok md a then
    tmStep t c d (if tmCtl s t c F.FT_TMC_CTL_SRC == 0 then tmSetAcc t c 0 s else s)
  else s

/-- R394: a count step of d that steps into the compare value. (DEDUCED, notes/assumptions/41.md.) -/
def execCountMatch (t : TileNo) (c : TmCh) (d : Nat) (s : State) : Host.Outcome State Fault Refusal :=
  done (tmEvent t c d (fun md a => decide (tmDist md a (tmRd s R.FT_TMC_CMP t c) ≤ d)) s)

/-- R371: a count step of d that wraps through zero. (DEDUCED, notes/assumptions/41.md.) -/
def execOverflow (t : TileNo) (c : TmCh) (d : Nat) (s : State) : Host.Outcome State Fault Refusal :=
  done (tmEvent t c d (fun md a => decide (tmDist md a 0 ≤ d)) s)

/-- R394, R395: the pulse in progress ends when its width has passed. -/
def execTimerPulseEnd (t : TileNo) (c : TmCh) (s : State) : Host.Outcome State Fault Refusal :=
  match (tmrGet s (8 * t + c)).pulse with
  | some p => if tileAwake s t && !tmFrozen s t c then done (toElapsed (s.tmrAt + 5 * p) s) else done s
  | none => done s

/-- A capture (R381, R382, R384); `age` is the distance of the threshold crossing before now. -/
def tmCapture (t c age : Nat) (s : State) : State :=
  let st := (stampBack s age).1
  let known := fld s R.TB_STAT F.TB_STAT_FSTATE != 0
  let e := R.FT_TMC_EVT t c
  let s := if flag s e F.FT_TMC_EVT_CAP then cntFld (R.FT_TMC_MISS t c) F.FT_TMC_MISS_CAPOVR 1 (evt e F.FT_TMC_EVT_CAPOVR s) else s
  let s := onlyIf (!known) (evt e F.FT_TMC_EVT_NOSTAMP) (evt e F.FT_TMC_EVT_CAP s)
  let hi := reg s (R.FT_TMC_CNT t (c + 1))
  let s := setReg (R.FT_TMC_CAP t c) (reg s (R.FT_TMC_CNT t c)) s
  tmrMod (8 * t + c) (fun x => { x with
    capNs := if known then wordOf (tNs st) else 0
    capSec := if known then wordOf (tSecLo st) else 0
    capHi := hi }) s

/-- An accepted edge at a channel that watches the pin (R368, R379, R380, R400). (DEDUCED, notes/assumptions/41.md.) -/
def tmEdge (t c : Nat) (level : Bool) (age : Nat) (s : State) : State :=
  let sel := tmCtl s t c F.FT_TMC_CTL_EDGE
  if !(sel == 2 || (sel == 0 && level) || (sel == 1 && !level)) then s
  else
    let s := if tmCtl s t c F.FT_TMC_CTL_SRC == 2 && !tmFrozen s t c then tmStep t c 1 s else s
    if tmCtl s t c F.FT_TMC_CTL_CAPEN == 0 then s
    else
      let n := (tmrGet s (8 * t + c)).edges + 1
      if n = fld s (R.FT_TMC_INCFG t c) F.FT_TMC_INCFG_NDIV + 1 then
        tmCapture t c age (tmrMod (8 * t + c) (fun x => { x with edges := 0 }) s)
      else tmrMod (8 * t + c) (fun x => { x with edges := n }) s

/-- A channel's filter accepts a level whose threshold crossing lies `age` ns back: F + 2 to F + 3 tile cycles, for the F of its INCFG
(R379, R381). -/
def tmAccepts (s : State) (t c age : Nat) : Bool :=
  let f := fld s (R.FT_TMC_INCFG t c) F.FT_TMC_INCFG_FILT + 1
  decide (5 * (f + 2) ≤ age) && decide (age ≤ 5 * (f + 3))

/-- The channels of tile t that watch a pin and accept a level there at this age. -/
def tmWatchers (s : State) (t pin age : Nat) : List Nat :=
  (List.range 8).filter (fun c => (tmrGet s (8 * t + c)).on && tmCtl s t c F.FT_TMC_CTL_PIN == pin && tmAccepts s t c age)

/-- R379: the input filters of a TRIG pin accept a new level; the edge crossed its threshold `age` ns ago. Filters of another length
accept it at another age, in a row of their own. -/
def execTrigEdge (t : TileNo) (pin : Fin 4) (level : Bool) (age : Nat) (s : State) : Host.Outcome State Fault Refusal :=
  if !tileAwake s t then done s
  else done (eachOf (tmWatchers s t pin.val age) (fun c s => tmEdge t c level age s) s)

/-- R398, R399: the debugger halts the supervisory core; the halt reaches the tiles while a lane is in service (`tmFrozen`). -/
def execDebugHalt (s : State) : Host.Outcome State Fault Refusal := done { s with frozen := true }

/-- R399: the core resumes. -/
def execDebugResume (s : State) : Host.Outcome State Fault Refusal := done { s with frozen := false }

end Sys2Proof.Machine
end

