-- ==== Sys2Proof/Machine/Access.lean ====
section
/-! DEFINITION. The address map and what a READ of each register returns (R18, R29 to R34, R53 to R56, R536 and the register
tables of every chapter). -/

namespace Sys2Proof.Machine

-- ---------------------------------------------------------------- the address map (R53)

/-- The blocks of R53; `resv` is a reserved range between two blocks (R56). -/
inductive Blk where
  | glb
  | pp
  | sec
  | pwr
  | tb
  | cl
  | ports
  | filt
  | tmr
  | sq
  | fh
  | ctx
  | tpl
  | sv
  | tr
  | qmem
  | win
  | flash
  | resv
  deriving DecidableEq, Repr

/-- A row of R53, or a reserved range: its kind, its first address and the address past its last one. -/
structure Block where
  kind : Blk
  lo : Nat
  hi : Nat
  deriving DecidableEq, Repr

/-- The block of an address in a tile's 64 KiB. -/
def tileBlock (b off : Nat) : Block :=
  if off < 0x4000 then ⟨.ports, b, b + 0x4000⟩
  else if off < 0x6000 then ⟨.filt, b + 0x4000, b + 0x6000⟩
  else if off < 0x8000 then ⟨.tmr, b + 0x6000, b + 0x8000⟩
  else ⟨.sq, b + 0x8000, b + 0x10000⟩

/-- The block that holds an address (R53, R56). -/
def blockAt (a : Nat) : Block :=
  if a < 0x10000 then ⟨.glb, 0, 0x10000⟩
  else if a < 0x14000 then ⟨.pp, a / 0x1000 * 0x1000, a / 0x1000 * 0x1000 + 0x1000⟩
  else if a < 0x20000 then ⟨.resv, 0x14000, 0x20000⟩
  else if a < 0x30000 then ⟨.sec, 0x20000, 0x30000⟩
  else if a < 0x40000 then ⟨.pwr, 0x30000, 0x40000⟩
  else if a < 0x50000 then ⟨.tb, 0x40000, 0x50000⟩
  else if a < 0x60000 then ⟨.cl, 0x50000, 0x60000⟩
  else if a < 0x100000 then ⟨.resv, 0x60000, 0x100000⟩
  else if a < 0x160000 then tileBlock (a / 0x10000 * 0x10000) (a % 0x10000)
  else if a < 0x200000 then ⟨.resv, 0x160000, 0x200000⟩
  else if a < 0x210000 then ⟨.fh, 0x200000, 0x210000⟩
  else if a < 0x218000 then ⟨.ctx, 0x210000, 0x218000⟩
  else if a < 0x220000 then ⟨.resv, 0x218000, 0x220000⟩
  else if a < 0x240000 then ⟨.tpl, 0x220000, 0x240000⟩
  else if a < 0x250000 then ⟨.sv, 0x240000, 0x250000⟩
  else if a < 0x260000 then ⟨.tr, 0x250000, 0x260000⟩
  else if a < 0x1000000 then ⟨.resv, 0x260000, 0x1000000⟩
  else if a < 0x1800000 then ⟨.qmem, 0x1000000, 0x1800000⟩
  else if a < 0x40000000 then ⟨.resv, 0x1800000, 0x40000000⟩
  else if a < 0x70000000 then ⟨.win, a / 0x1000000 * 0x1000000, a / 0x1000000 * 0x1000000 + 0x1000000⟩
  else if a < 0x80000000 then ⟨.resv, 0x70000000, 0x80000000⟩
  else if a < 0x88000000 then ⟨.flash, 0x80000000, 0x88000000⟩
  else ⟨.resv, 0x88000000, 0x100000000⟩

/-- A block lies on the field side (R34). -/
def fieldBlk : Blk → Bool
  | .ports | .filt | .tmr | .sq | .fh | .ctx | .tpl | .sv | .tr | .qmem | .win => true
  | _ => false

/-- The tile an address belongs to. -/
def tileOf (a : Nat) : Option Nat :=
  match (blockAt a).kind with
  | .ports | .filt | .tmr | .sq => some ((a - 0x100000) / 0x10000)
  | .win => some (winPort a / 8)
  | _ => none

/-- The field port an address in the port registers or a window belongs to. -/
def portOf (a : Nat) : Option Nat :=
  match (blockAt a).kind with
  | .ports => some ((a - 0x100000) / 0x10000 * 8 + a % 0x10000 / 0x800)
  | .win => some (winPort a)
  | _ => none

/-- The addresses of n words from a that lie in a's block, and whether the access runs past it (R56, R536, R537). -/
def wordsIn (a n : Nat) : List Nat := ((List.range n).map (fun i => a + 4 * i)).filter (fun x => decide (x < (blockAt a).hi))
def overruns (a n : Nat) : Bool := decide (a + 4 * n > (blockAt a).hi)

-- ---------------------------------------------------------------- what a READ returns

/-- The slot that holds the wire: it does so until its select is released (R131). -/
def wireHolder (s : State) (n : Nat) : Option Nat :=
  let p := portGet s n
  match p.wire with
  | some i => some i
  | none => if s.elapsed < p.relAt then p.relSlot else none

/-- FPn_STAT (R155). -/
def fpStatView (s : State) (n : Nat) : Word :=
  let p := portGet s n
  let slots := sumNat (p.slots.zipIdx.map (fun (x : Option TxnS × Nat) => b2n x.1.isSome * 2 ^ x.2))
  let v := reg s (R.FP_STAT n)
  let v := putFld v F.FP_STAT_SLOTS slots
  let w := wireHolder s n
  let v := putFld v F.FP_STAT_WVALID (b2n w.isSome)
  let v := putFld v F.FP_STAT_WSLOT (w.getD 0)
  let v := putFld v F.FP_STAT_RELSEQ (b2n (match p.relseq with | some e => decide (s.elapsed < e) | none => false))
  let v := putFld v F.FP_STAT_HOLD (b2n (bankHeld s n))
  let v := putFld v F.FP_STAT_BANKV (if p.bankOk then p.bankV else 0)
  let v := putFld v F.FP_STAT_BANKOK (b2n p.bankOk)
  putFld v F.FP_STAT_BUSY (b2n (p.wire.isSome || decide (s.elapsed < p.relAt) || p.disabling.isSome || decide (s.elapsed < p.offAt)))

/-- CWn_STAT (R188); BUSY while a window command is in its select hold. (DEDUCED, notes/assumptions/52.md.) -/
def cwStatView (s : State) (n : Nat) : Word :=
  let p := portGet s n
  let idle := match p.winQ with | w :: _ => b2n (w.got.isEmpty && w.phase == 0) | [] => 1
  let v := putFld (reg s (R.CW_STAT n)) F.CW_STAT_QDEPTH (p.winQ.length + idle - 1)
  putFld v F.CW_STAT_BUSY (b2n (p.wire.isNone && p.relSlot.isNone && p.relSel.isSome && decide (s.elapsed < p.relAt)))

/-- SQn_SLOTi (R242). -/
def slotView (s : State) (n i : Nat) : Word :=
  match slotGet s n i with
  | some t => wordOf (2 ^ 31 + t.wait % 8 * 2 ^ 28 + t.step % 16 * 2 ^ 24 + t.ctx)
  | none => 0

/-- FTt_SQ_TPS: the transactions started in the last whole second of device time (R242). -/
def tpsView (s : State) (t : Nat) : Word :=
  let x := tileGet s t
  let sec := fieldNs s / secNs
  if x.sec = sec then reg s (R.FT_SQ_TPS t) else if x.sec + 1 = sec then wordOf (x.started % 2 ^ 22) else 0

/-- CTXk_STAT (R191). -/
def ctxStatView (s : State) (k : Nat) : Word :=
  let v := putFld (reg s (R.CTX_STAT k)) F.CTX_STAT_INFLIGHT (b2n (inflight s k))
  putFld v F.CTX_STAT_HELD (b2n (cState s k != stFree && !cBit s k && heldSource s k))

/-- FH_CTXUSE (R243). -/
def ctxUseView (s : State) : Word :=
  let st := (List.range 512).map (cState s)
  wordOf (countP' (· == stReserved) st * 2 ^ 16 + countP' (· != stFree) st)

/-- TR_POOLFREE (R463, R505). -/
def poolFreeView (s : State) : Word :=
  let l := poolFree s
  wordOf (countP' id l * 2 ^ 16 + longestRun l)

/-- Qq_STAT (R506). -/
def qStatView (s : State) (q : Nat) : Word := putFld (reg s (R.Q_STAT q)) F.Q_STAT_FILL (qFill s q)

/-- The 32-bit word with its octets in the other order (R365). -/
def swapOctets (w : Word) : Word := wordOf (beNat (wordBytes w))

/-- The code of R669 for a side's state. (DEDUCED, notes/assumptions/39.md.) -/
def powCode : PowState → Nat
  | .run => 0
  | .sleep => 2
  | .deep => 3
  | .off => 4
  | .entering => 8
  | .waking => 9
  | .wakefail => 10

/-- FPWR and HPWR (R669): the field state is the one last sent. (DEDUCED, notes/assumptions/39.md.) -/
def fpwr (s : State) : Nat := match s.pow.fieldSeen with | some x => powCode x | none => 15
def hpwr (s : State) : Nat := powCode s.pow.host.st

/-- PWR_STAT (R711). -/
def pwrStatView (s : State) : Word :=
  let ent : Option Nat :=
    if s.pow.host.st = .entering then some s.pow.host.ap else if s.pow.field.st = .entering then some s.pow.field.ap else none
  let tiles := sumNat ((List.range 6).map (fun t =>
    b2n (s.pow.field.st = .sleep || (s.pow.autoSleep ++ s.pow.cmdSleep).any (fun x => x.val == t)) * 2 ^ t))
  wordOf (b2n ent.isSome * 2 ^ 19 + ent.getD 0 * 2 ^ 16 + tiles * 2 ^ 8 + hpwr s * 16 + fpwr s)

/-- PWR_PADSTAT (R697, R711). -/
def padStatView (s : State) : Word := wordOf (sumNat ((allBanks.filter s.pow.held.contains).map (2 ^ ·)))

/-- Pp_STAT (R572). -/
def pStatView (s : State) (p : Nat) : Word :=
  let u := partGet s p
  let up := if p < 2 then flag s (R.P_STAT p) F.P_STAT_UP else portEn s p
  wordOf (min u.outst.length 32 * 2 ^ 16 + min u.resp.length 32 * 2 ^ 8 + b2n up)

/-- A key slot is held by a port with KEN = 1. -/
def slotUser (s : State) (i p : Nat) : Bool := flag s (R.P_KEY p) F.P_KEY_KEN && fld s (R.P_KEY p) F.P_KEY_KSLOT == i

def keySlot (s : State) (i : Nat) : KeySlot := tabGet (fun _ => {}) s.nv.keys i

/-- SEC_KSi_STAT (R576). -/
def ksStatView (s : State) (i : Nat) : Word :=
  let k := keySlot s i
  let st := match k.key with | none => 0 | some b => if b.length = 16 then 1 else 2
  let users := sumNat ((List.range 4).map (fun p => b2n (slotUser s i p) * 2 ^ p))
  wordOf (min k.loads 0xFFFF * 2 ^ 16 + users * 2 ^ 8 + st)

/-- RST_BOOT (R666). -/
def bootView (s : State) : Word :=
  let v := reg s R.RST_BOOT
  let v := putFld v F.RST_BOOT_TRIAL (b2n s.nv.trial)
  let v := putFld v F.RST_BOOT_FALLBACK (fld s R.GLB_BOOTSTAT F.GLB_BOOTSTAT_FALLBACK)
  let v := putFld v F.RST_BOOT_SRC (fld s R.GLB_BOOTSTAT F.GLB_BOOTSTAT_SRC)
  let v := putFld v F.RST_BOOT_ACTIVE (b2n s.nv.active)
  putFld v F.RST_BOOT_BOOTCNT s.nv.bootcnt.toNat

/-- The entry of the fault log that RST_FLOG_SEL shows (R664, R666). -/
def flogEntry (s : State) : FlogEntry := tabGet (fun _ => {}) s.nv.flog (fld s R.RST_FLOG_SEL F.RST_FLOG_SEL_IDX)

def flogWord (e : FlogEntry) (i : Nat) : Word :=
  match i with
  | 0 => e.w0
  | 1 => e.w1
  | 2 => e.w2
  | _ => e.w3

/-- A byte of the configuration flash; a byte that nothing has written reads 0xFF. (DESIGN CHOICE, notes/assumptions/4.md.) -/
def flashByte (s : State) (i : Nat) : Byte := tabGet (fun _ => (0xFF : Byte)) s.boot.flash i

def flashBytesAt (s : State) (i n : Nat) : List Byte := (List.range n).map (fun j => flashByte s (i + j))

/-- A register of GLB. -/
def glbView (s : State) (a : Nat) : Word :=
  if a = R.GLB_SILREV then Config.silRev &&& 0xFFFF
  else if a = R.GLB_GRF_STAT then putFld (reg s a) F.GLB_GRF_STAT_TRIAL (b2n s.nv.trial)
  else if a = R.GLB_GRF_MINSEQ then wordOf s.nv.minSeq
  else reg s a

/-- A register of SEC. -/
def secView (s : State) (a : Nat) : Word :=
  let off := a - 0x20000
  if off < 0x20 then ksStatView s (off / 4)
  else if 0x40 ≤ off ∧ off < 0x60 ∧ off % 8 = 0 then wordOf ((partGet s ((off - 0x40) / 8)).lastCtr % 2 ^ 32)
  else if 0x100 ≤ off ∧ off < 0x300 then fuseWord s ((off - 0x100) / 4)
  else reg s a

/-- A register of PWR and RST. -/
def pwrView (s : State) (a : Nat) : Word :=
  let off := a - 0x30000
  if a = R.PWR_STAT then pwrStatView s
  else if a = R.PWR_PADSTAT then padStatView s
  else if a = R.RST_BOOT then bootView s
  else if 0x810 ≤ off ∧ off < 0x820 then mapWord s ((off - 0x810) / 4)
  else if a = R.RST_FLOG_STAT then wordOf (s.nv.flogCount * 2 ^ 10 + s.nv.flogHead)
  else if 0x838 ≤ off ∧ off < 0x848 then flogWord (flogEntry s) ((off - 0x838) / 4)
  else reg s a

/-- A register of TB. -/
def tbView (s : State) (a : Nat) : Word :=
  if a = R.TB_NOWNS then wordOf (tNs (masterNs s))
  else if a = R.TB_AOCLO then wordOf (s.tm.aoc % 2 ^ 32)
  else if a = R.TB_PTP_IDLO then swapOctets (reg s R.GLB_UIDHI)
  else if a = R.TB_PTP_IDHI then swapOctets (reg s R.GLB_UIDLO)
  else reg s a

/-- A register of a tile's timers. -/
def tmrView (s : State) (a : Nat) : Word :=
  let t := (a - 0x100000) / 0x10000
  let off := a % 0x10000 - 0x6000
  if 0x100 ≤ off ∧ off < 0x300 then
    let c := (off - 0x100) / 0x40
    if off % 0x40 = 0 then tmCtlView s t c else if off % 0x40 = 0x30 then tmStatView s t c else reg s a
  else reg s a

/-- A register of a tile's sequencer. -/
def sqView (s : State) (a : Nat) : Word :=
  let t := (a - 0x100000) / 0x10000
  let off := a % 0x10000 - 0x8000
  if off = 8 then tpsView s t
  else if 0x400 ≤ off ∧ off < 0x500 then slotView s (8 * t + (off - 0x400) / 0x20) (off % 0x20 / 4)
  else reg s a

/-- A register of Trellis. -/
def trView (s : State) (a : Nat) : Word :=
  let off := a - 0x250000
  if a = R.TR_STAT then wordOf (heldLines s)
  else if a = R.TR_POOLFREE then poolFreeView s
  else if 0x1000 ≤ off ∧ off < 0x3000 then
    let q := (off - 0x1000) / 0x40
    if off % 0x40 = 0x10 then qStatView s q
    else if off % 0x40 = 0x2C then wordOf (tNs (queueGet s q).mark)
    else reg s a
  else reg s a

/-- The value a READ of the word at an address returns. Reserved addresses and fields read zero, as do write-only fields (R14,
R17, R18); FTt_FLT_LOAD is read by `readWord`. (DEDUCED, notes/assumptions/55.md.) -/
def view (s : State) (a : Nat) : Word :=
  match (blockAt a).kind with
  | .glb => glbView s a
  | .pp => if a % 0x1000 = 0x40 then pStatView s ((a - 0x10000) / 0x1000) else reg s a
  | .sec => secView s a
  | .pwr => pwrView s a
  | .tb => tbView s a
  | .ports =>
    let n := (a - 0x100000) / 0x10000 * 8 + a % 0x10000 / 0x800
    if a % 0x800 = 0x40 then fpStatView s n else if a % 0x800 = 0x418 then cwStatView s n else reg s a
  | .tmr => tmrView s a
  | .sq => sqView s a
  | .fh => if a = R.FH_CTXUSE then ctxUseView s else reg s a
  | .ctx => if a % 0x40 = 0x30 then ctxStatView s ((a - 0x210000) / 0x40) else reg s a
  | .tr => trView s a
  | .qmem => wordOf (leNat (qmemRead s (a - 0x1000000) 4))
  | .flash => wordOf (leNat (flashBytesAt s (a - 0x80000000) 4))
  | .cl | .filt | .tpl | .sv => reg s a
  | .win | .resv => 0

-- ---------------------------------------------------------------- companions that a read latches

/-- A read of FPn_TSNS copies the seconds of its stamp into FPn_TSSEC (R158). -/
def tsnsLatched (n : Nat) (s : State) : State := setReg (R.FP_TSSEC n) (portGet s n).lastSec s

/-- A read of FTt_FLT_SLOTs_INSNS copies the seconds of its instant into INSSEC (R294). -/
def insnsLatched (t f : Nat) (s : State) : State := setReg (R.FT_SLOT_INSSEC t f) (filtGet s (slotIx t f)).lastSec s

/-- A read of TB_NOWNS latches the fraction and the seconds (R364). -/
def nowLatched (s : State) : State :=
  let sec := masterNs s
  setReg R.TB_NOWFRAC (wordOf (s.tm.master % nsU / 2 ^ 32))
    (setReg R.TB_NOWSECLO (wordOf (tSecLo sec)) (setReg R.TB_NOWSECHI (wordOf (tSecHi sec)) s))

/-- A read of TB_PPSNS latches TB_PPSSEC (R364). -/
def ppsLatched (s : State) : State := setReg R.TB_PPSSEC s.tm.ppsSec s

/-- A read of TB_AOCLO latches TB_AOCHI (R364). -/
def aocLatched (s : State) : State := setReg R.TB_AOCHI (wordOf (s.tm.aoc / 2 ^ 32)) s

/-- A read of TB_PLSi_LASTNS latches LASTSEC (R366). -/
def lastLatched (i : Nat) (s : State) : State := setReg (R.TB_PLS_LASTSEC i) (pulseGet s i).lastSec s

/-- A read of Qq_MARKNS latches Qq_MARKSEC (R506). -/
def markLatched (q : Nat) (s : State) : State := setReg (R.Q_MARKSEC q) (wordOf (tSecLo (queueGet s q).mark)) s

/-- A read of SEC_CTRp_LO copies the high word into SEC_CTRp_HI (R576). -/
def ctrLatched (p : Nat) (s : State) : State := setReg (R.SEC_CTR_HI p) (wordOf ((partGet s p).lastCtr / 2 ^ 32)) s

/-- A read of PWR_LWNS latches PWR_LWSEC (R711). -/
def lwLatched (s : State) : State := setReg R.PWR_LWSEC (wordOf s.pow.lwSec) s

/-- What the read of one register does beside returning its value. -/
def readEffect (a : Nat) (s : State) : State :=
  let off := a % 0x10000
  let t := (a - 0x100000) / 0x10000
  match (blockAt a).kind with
  | .ports => if a % 0x800 = 0x4C then tsnsLatched (t * 8 + off / 0x800) s else s
  | .filt => if 0x4100 ≤ off ∧ off < 0x4300 ∧ off % 0x20 = 0x14 then insnsLatched t ((off - 0x4100) / 0x20) s else s
  | .tmr =>
    if off = 0x6004 then snapNsLatched t s
    else if 0x6100 ≤ off ∧ off < 0x6300 ∧ off % 0x40 = 0x20 then capLatched t ((off - 0x6100) / 0x40) s
    else s
  | .tb =>
    if a = R.TB_NOWNS then nowLatched s
    else if a = R.TB_PPSNS then ppsLatched s
    else if a = R.TB_AOCLO then aocLatched s
    else if 0x200 ≤ off ∧ off < 0x340 ∧ off % 0x40 = 0x1C then lastLatched ((off - 0x200) / 0x40) s
    else s
  | .tr => if 0x1000 ≤ off ∧ off < 0x3000 ∧ off % 0x40 = 0x2C then markLatched ((off - 0x1000) / 0x40) s else s
  | .sec => if 0x40 ≤ off ∧ off < 0x60 ∧ off % 8 = 0 then ctrLatched ((off - 0x40) / 8) s else s
  | .pwr => if a = R.PWR_LWNS then lwLatched s else s
  | _ => s

/-- One word is read (R32, R536). The busy share that FTt_FLT_LOAD shows is a free value: no rule says how it is formed. -/
def readWord (a : Nat) (s : State) : Word × State :=
  if (blockAt a).kind = .filt ∧ a % 0x10000 = 0x4010 then
    let f := takeFree s
    (wordOf (f.1 % 2 ^ 12), f.2)
  else (view s a, readEffect a s)

/-- Words are read in ascending order (R536). -/
def readAll : List Nat → State → List Word × State
  | [], s => ([], s)
  | a :: rest, s =>
    let x := readWord a s
    let y := readAll rest x.2
    (x.1 :: y.1, y.2)

/-- A block READ: its words, those past the block zero (R56, R536). -/
def readBlock (a n : Nat) (s : State) : List Word × State :=
  let l := wordsIn a n
  let x := readAll l s
  (x.1 ++ List.replicate (n - l.length) 0, x.2)

-- ---------------------------------------------------------------- whether the owner of an address can answer

/-- The registers that a unit of R610 answers for. The FH control pair holds the blocks FH, CTX and TPL, the host lane ends the
block CL; no register lies in the field lane ends, and commands wait in their port stores for the HB core pair (R612). (DEDUCED,
notes/assumptions/64.md.) -/
def unitHolds (r : Reach) (a : Nat) : Bool :=
  match r with
  | .port n => portOf a == some n.val
  | .filter t => (blockAt a).kind == .filt && tileOf a == some t.val
  | .engine g => (blockAt a).kind == .sv && decide (0x240100 ≤ a) && decide (a < 0x240210) && (a - 0x240100) / 0x10 == g.val
  | .fhCtl => (blockAt a).kind == .fh || (blockAt a).kind == .ctx || (blockAt a).kind == .tpl
  | .lanes .host => (blockAt a).kind == .cl
  | _ => false

/-- A unit that an access needs is held in L3 reset (R34). -/
def unitHeld (s : State) (a : Nat) : Bool := s.boot.episodes.any (fun e => e.srcs.any (fun x => unitHolds x.reach a))

/-- The path to the field side is not available (R34, R599, R708). -/
def fieldAway (s : State) : Bool := !laneAvail s || s.pow.field.st = .off || s.pow.field.st = .wakefail

/-- The side or the die that owns an address sleeps or is in reset, so that a command waits for it (R31, R691). -/
def ownerAway (s : State) (a : Nat) : Bool :=
  fieldBlk (blockAt a).kind &&
  (s.pow.field.st = .sleep || s.pow.field.st = .deep || s.pow.field.st = .waking ||
   (s.pow.field.st = .entering && decide (s.pow.field.ap ≥ 3)) ||
   s.boot.inReset.any (fun d => match d with
     | .hb => false
     | .fh => true
     | .tile t => tileOf a == some t.val))

/-- A tile that sleeps alone wakes for an access to it (R691). (DEDUCED, notes/assumptions/38.md.) -/
def tileWakes (a : Nat) (s : State) : State :=
  match tileOf a with
  | some t =>
    let keep (x : TileNo) : Bool := x.val != t
    tilesFollow { s with pow := { s.pow with autoSleep := s.pow.autoSleep.filter keep, cmdSleep := s.pow.cmdSleep.filter keep } }
  | none => s

end Sys2Proof.Machine
end

