-- ==== Sys2Proof/Machine/Links.lean ====
section
/-! DEFINITION. The links of the Ethernet ports (R509, R548, R561, R573). -/

namespace Sys2Proof.Machine

/-- The address that a pair of registers holds, the first byte on the wire in bits [7:0] (R573). -/
def etherAddr (s : State) (lo hi : Nat) : BitVec 48 := BitVec.ofNat 48 ((reg s lo).toNat + (reg s hi).toNat % 2 ^ 16 * 2 ^ 32)

/-- A bit of Pp_ETH_CTL. -/
def ethCtl (s : State) (e : Nat) (f : Fld) : Bool := flag s (R.P_ETH_CTL e) f

/-- The head of a frame of Glaeve that port e sends: the addresses, with VLAN = 1 the tag, and the EtherType (R551, R573). -/
def etherHead (s : State) (e : Nat) (dst : BitVec 48) : List Byte :=
  let t := R.P_ETH_TYPE e
  let tag := if ethCtl s e F.P_ETH_CTL_VLAN then beBytes 2 0x8100 ++ beBytes 2 (fld s t F.P_ETH_TYPE_PCP * 2 ^ 13 + fld s t F.P_ETH_TYPE_VID) else []
  leBytes 6 dst.toNat ++ leBytes 6 (etherAddr s (R.P_ETH_MACLO e) (R.P_ETH_MACHI e)).toNat ++ tag ++ beBytes 2 (fld s t F.P_ETH_TYPE_ETYPE)

/-- LINK and UP follow the link, and the change is latched (R572, R573). -/
def setLink (e : Nat) (up : Bool) (s : State) : State :=
  if linkIsUp s e == up then s
  else
    let s := setFlag (R.P_STAT e) F.P_STAT_UP up (setFlag (R.P_ETH_STAT e) F.P_ETH_STAT_LINK up s)
    evt (R.P_EVT e) F.P_EVT_LINKCHG s

/-- A response of port p is gone: after that of a RESET answered OK the 20 µs run (R637). (DEDUCED, notes/assumptions/10.md.) -/
def resetGone (p : Nat) (r : Resp) (s : State) : State :=
  if r.cmd.op == opRESET && r.status == stOK then
    { s with boot := { s.boot with resets := s.boot.resets.map (fun x =>
        if x.port == p && x.tag == r.cmd.tag && x.leftAt.isNone then { x with leftAt := some s.elapsed } else x) } }
  else s

/-- Every response that waits on a port is discarded and counts as lost; its command is no longer outstanding (R561). A RESET whose
response is discarded runs its 20 µs from here. (DEDUCED, notes/assumptions/10.md.) -/
def dropResponses (p : Nat) (s : State) : State :=
  let l := (partGet s p).resp
  if l.isEmpty then s
  else
    let s := eachOf l (resetGone p) s
    let s := evt (R.P_EVT p) F.P_EVT_LOST (cntAdd (R.P_CNT p 9) l.length s)
    partMod p (fun u => { u with resp := [], outst := (l.filter (·.kept)).foldl (fun o r => dropCmd r.cmd o) u.outst }) s

/-- The link of an Ethernet port goes down (R561); a pause in force and a part sent of a record end with it (R555). (DEDUCED, notes/assumptions/43.md.) -/
def ethDown (e : Nat) (s : State) : State :=
  if !linkIsUp s e then s
  else
    let s := dropResponses e (setLink e false s)
    let s := setFlag (R.P_ETH_STAT e) F.P_ETH_STAT_PAUSED false (setFlag (R.P_ETH_STAT e) F.P_ETH_STAT_ANDONE false s)
    partMod e (fun u => { u with part := [], reasm := [], ptpOut := [] }) s

/-- The speed a link comes up with: the mode's, or in SGMII-compatible mode what the PHY's control word says, which is free
(R548, R573). -/
def linkSpeed (e : Nat) (s : State) : Nat × State :=
  match fld s (R.P_ETH_CTL e) F.P_ETH_CTL_MODE with
  | 0 => (2, s)
  | 1 => (3, s)
  | _ => let f := takeFree s; (f.1 % 3, f.2)

/-- The link of an enabled Ethernet port comes up (R509, R561). -/
def ethUp (e : Nat) (s : State) : State :=
  if linkIsUp s e || !portEn s e then s
  else
    let v := linkSpeed e s
    let s := setFld (R.P_ETH_STAT e) F.P_ETH_STAT_SPEED v.1 v.2
    let an := flag s (R.P_ETH_CTL e) F.P_ETH_CTL_AN && fld s (R.P_ETH_CTL e) F.P_ETH_CTL_MODE != 1
    setLink e true (setFlag (R.P_ETH_STAT e) F.P_ETH_STAT_ANDONE an s)

end Sys2Proof.Machine
end

