-- ==== Sys2Proof/Machine/Write.lean ====
section
/-! DEFINITION. Writes of registers: which words are refused, in the order of the rules of each chapter, and what an accepted
word does (R14 to R18, R34, R39, R40, R535 to R538 and the register tables). -/

namespace Sys2Proof.Machine

/-- The refusals of a word that hold, in rule order; the first is the answer. -/
def refuseIf (b : Bool) (st : Nat) : List Nat := if b then [st] else []

/-- A value outside the range lo to hi. -/
def outside (x lo hi : Nat) : Bool := decide (x < lo) || decide (x > hi)

/-- A word's masks, those of a reserved address being empty. -/
def descOf (a : Nat) : RegDesc := (regDesc? a).getD ⟨a, [], 0, 0, 0, 0, 0, 0, 0, 0⟩

/-- The stored word after a write: RW fields take the value, RWS fields take it where the write is critical or the image's,
W1C bits written 1 are cleared (R14, R17). -/
def stored (d : RegDesc) (crit : Bool) (old v : Word) : Word :=
  let set := wordOf (d.rw ||| (if crit then d.rws else 0))
  ((old &&& ~~~set) ||| (v &&& set)) &&& ~~~(v &&& wordOf d.w1c)

/-- A word is stored as its access codes say. -/
def putWord (crit : Bool) (a : Nat) (v : Word) (s : State) : State := setReg a (stored (descOf a) crit (reg s a) v) s

/-- A context in STOPPED, RUNNING, STOPPING or RESERVED (R208, R445, R462). -/
def ctxLives (s : State) (k : Nat) : Bool := decide (1 ≤ cState s k) && decide (cState s k ≤ 4)

-- ---------------------------------------------------------------- refusals of critical words, block by block

/-- Field port n (R74, R77, R81, R85, R91, R97, R149 to R152). -/
def fpRefused (s : State) (n off : Nat) (v : Word) : List Nat :=
  let en := flag s (R.FP_CTL n) F.FP_CTL_EN
  let mode := getFld v F.FP_CTL_MODE
  let half := fld s (R.FP_CLK n) F.FP_CLK_HALF
  let lo := if mode = 1 then 2 else if mode = 2 && !flag s (R.FP_BCFG n) F.FP_BCFG_CLKSRC then 4 else 0
  let ss (i : Nat) : Bool := bitsOf v.toNat (2 * i + 1) (2 * i) == 3
  match off with
  | 0x00 =>
    refuseIf (mode == 3 || getFld v F.FP_CTL_DRV == 3) stRANGE ++
    refuseIf (en && (mode != fld s (R.FP_CTL n) F.FP_CTL_MODE || getFld v F.FP_CTL_DRV != fld s (R.FP_CTL n) F.FP_CTL_DRV)) stBUSY ++
    refuseIf (getFld v F.FP_CTL_EN == 1 && decide (half < lo)) stRANGE
  | 0x04 => refuseIf en stBUSY ++ refuseIf (outside (getFld v F.FP_WCFG_UNIT) 4 32) stRANGE
  | 0x08 => refuseIf en stBUSY
  | 0x0C => refuseIf en stBUSY
  | 0x10 => refuseIf (getFld v F.FP_GAP_SETUP == 0 || getFld v F.FP_GAP_HOLD == 0 || getFld v F.FP_GAP_IDLE == 0) stRANGE
  | 0x14 => refuseIf (outside (getFld v F.FP_SLEN_LEN) 1 4096) stRANGE
  | 0x18 => refuseIf en stBUSY ++ refuseIf (ss 0 || ss 1 || ss 2) stRANGE
  | 0x1C => refuseIf (getFld v F.FP_RETRY_INTERVAL == 0) stRANGE
  | 0x20 => refuseIf (getFld v F.FP_TLIM_LIMIT == 0) stRANGE
  | 0x24 => refuseIf en stBUSY ++ refuseIf (decide (getFld v F.FP_CLKMON_PMIN > getFld v F.FP_CLKMON_PMAX)) stRANGE
  | _ => []

/-- The calibration window of port n (R165, R166, R169, R171, R174, R176, R178, R180). -/
def cwRefused (s : State) (n off : Nat) (v : Word) : List Nat :=
  let selMax := if portDec s n then 6 else 2
  let half := getFld v F.CW_CFG_HALF
  let maxb := getFld v F.CW_CFG_MAXB
  match off with
  | 0x408 => refuseIf (decide (getFld v F.CW_CFG_SEL > selMax) || half == 1 || outside maxb 4 128 || maxb % 4 != 0 ||
      outside (getFld v F.CW_CFG_PAGEL) 4 8) stRANGE
  | 0x40C => refuseIf (getFld v F.CW_TLIM_LIMIT == 0 || getFld v F.CW_TLIM_WLIM == 0) stRANGE
  | 0x410 => refuseIf (outside (getFld v F.CW_ID_IDLEN) 1 8) stRANGE
  | 0x414 => refuseIf (getFld v F.CW_PROBE_PERIOD == 0) stRANGE
  | 0x440 | 0x460 | 0x480 => refuseIf (decide (getFld v F.CW_IDS_CTL_SEL > selMax)) stRANGE
  | _ => []

/-- Slot f of tile t (R262, R277, R293). -/
def slotRefused (s : State) (t f : Nat) (v : Word) : List Nat :=
  let scs := getFld v F.FT_SLOT_SCS == 1
  let align := getFld v F.FT_SLOT_ALIGN == 1
  let word := slBound s t f && !slBit s t f
  let k := slCtx s t f
  refuseIf (scs && align) stRANGE ++
  refuseIf (scs && word && (profilesOf s k).any (fun a => cPreset s k a == 0)) stRANGE ++
  refuseIf (align && word) stRANGE ++ refuseIf (decide (getFld v F.FT_SLOT_OSHIFT > 8)) stRANGE

/-- The filter engine of tile t (R246, R262, R277, R286, R293). -/
def fltRefused (s : State) (t off : Nat) (v : Word) : List Nat :=
  if off = 0x4000 then refuseIf (getFld v F.FT_FLT_CTL_EN == 0 && fld s (R.FT_FLT_STAT t) F.FT_FLT_STAT_BOUND != 0) stBUSY
  else if 0x5000 ≤ off ∧ off < 0x5184 then refuseIf (flag s (R.FT_FLT_BANK t) F.FT_FLT_BANK_SWAP) stBUSY
  else if 0x4100 ≤ off ∧ off < 0x4300 ∧ off % 0x20 = 0 then slotRefused s t ((off - 0x4100) / 0x20) v
  else []

/-- The timers of tile t, written by source `src` (R373 to R375, R397). (DEDUCED, notes/assumptions/7.md.) -/
def tmrRefused (s : State) (src : Option Nat) (t off : Nat) (v : Word) : List Nat :=
  if 0x6100 ≤ off ∧ off < 0x6300 then
    let c := (off - 0x6100) / 0x40
    match off % 0x40 with
    | 0x00 => (tmCtlRefused s src t c v).toList
    | 0x04 | 0x08 | 0x10 => (tmCfgRefused s src t c false v).toList
    | 0x0C => (tmCfgRefused s src t c true v).toList
    | 0x14 | 0x1C => (tmLiveRefused s src t c).toList
    | _ => []
  else []

/-- A template word (R208): a context that runs no bitstream names the template. -/
def tplRefused (s : State) (a : Nat) : List Nat :=
  let j := (a - 0x220000) / 0x80
  refuseIf ((List.range 512).any (fun k => ctxLives s k && !cBit s k && cTpl s k == j)) stBUSY

/-- A sentinel's EN cannot be set (R450); `i` holds the word in `v`. -/
def sentBad (s : State) (v : Word) : Bool :=
  let k := getFld v F.SV_SENT_CTL_CTX
  let r := cRbase s k + getFld v F.SV_SENT_CTL_RULE
  let stores := ((cSteps s k).filter isStore).length
  cFen s k || decide (stores > 1) || decide (getFld v F.SV_SENT_CTL_RULE ≥ cRcnt s k) ||
  !(rFeat s r == 0 || rFeat s r == 2) || rComb s r != 0 || rCh s r != 0

/-- Sieve (R412, R445, R450, R455, R456). -/
def svRefused (s : State) (a : Nat) (v : Word) : List Nat :=
  let off := a - 0x240000
  if off = 0 then
    refuseIf (getFld v F.SV_CTL_EN == 0 && (List.range 512).any (fun k => flag s (R.SV_CX_STAT k) F.SV_CX_STAT_ASSIGNED)) stBUSY
  else if 0x400 ≤ off ∧ off < 0x480 then
    let i := (off - 0x400) / 0x10
    let en := flag s (R.SV_SENT_CTL i) F.SV_SENT_CTL_EN
    let keep := wordOf (namedBits a)
    if off % 0x10 = 0 then
      refuseIf (getFld v F.SV_SENT_CTL_EN == 1 && !en && sentBad s v) stRANGE ++
      refuseIf (en && v &&& keep != putFld (reg s a) F.SV_SENT_CTL_EN 0) stBUSY
    else if off % 0x10 = 4 then refuseIf (outside (getFld v F.SV_SENT_PER_PER) 10 65535) stRANGE ++ refuseIf en stBUSY
    else []
  else if 0x2000 ≤ off ∧ off < 0x4000 then
    let k := (off - 0x2000) / 0x10
    let busy := refuseIf (ctxLives s k) stBUSY
    match off % 0x10 with
    | 0 => refuseIf (decide (getFld v F.SV_CX_SPCFG_CH > 3) || getFld v F.SV_CX_SPCFG_WINF == 3 || getFld v F.SV_CX_SPCFG_HOP == 3) stRANGE ++ busy
    | 4 => refuseIf (outside (getFld v F.SV_CX_SNCFG_RINGL) 7 15 && getFld v F.SV_CX_SNCFG_RINGL != 0) stRANGE ++ busy
    | _ => []
  else if 0x8000 ≤ off ∧ off % 0x20 < 0x1C then
    let r := (off - 0x8000) / 0x20
    refuseIf ((List.range 512).any (fun k => ctxLives s k && decide (cRbase s k ≤ r) && decide (r < cRbase s k + cRcnt s k))) stBUSY
  else []

/-- The ring of an enabled queue overlaps a region of queue memory (R460). -/
def regionHits (s : State) (v : Word) : Bool :=
  allQueues.any (fun q => qEn s q && overlap (regionBase v) (regionSize v) (fld s (R.Q_CFG q) F.Q_CFG_BASE) (fld s (R.Q_CFG q) F.Q_CFG_SIZE))

/-- Queue q, register `off` (R460, R462, R472, R482). (DEDUCED, notes/assumptions/7.md.) -/
def queueRefused (s : State) (q off : Nat) (v : Word) : List Nat :=
  let a := R.Q_CFG q
  let en := flag s a F.Q_CFG_EN
  let same (f : Fld) : Bool := getFld v f == fld s a f
  match off with
  | 0x00 =>
    refuseIf (!en && getFld v F.Q_CFG_EN == 1 && queueEnableBad s q v) stRANGE ++
    refuseIf (en && !(same F.Q_CFG_BASE && same F.Q_CFG_SIZE && same F.Q_CFG_POLICY)) stBUSY ++
    refuseIf (en && getFld v F.Q_CFG_EN == 0 && (List.range 512).any (fun k => ctxLives s k && (cQ s k == q || cEvq s k == q))) stBUSY
  | 0x04 =>
    refuseIf (en && !flag s a F.Q_CFG_POLICY && decide (getFld v F.Q_WM_LWM * 256 * 8 ≥ 7 * (fld s a F.Q_CFG_SIZE * 4096))) stRANGE
  | 0x08 =>
    refuseIf (en && v &&& wordOf (namedBits (R.Q_ORD q)) != reg s (R.Q_ORD q)) stBUSY ++
    refuseIf (decide (getFld v F.Q_ORD_HOR > 4000)) stRANGE
  | _ => []

/-- Trellis and the queues. -/
def trRefused (s : State) (a : Nat) (v : Word) : List Nat :=
  let off := a - 0x250000
  if off = 4 then refuseIf (regionHits s v) stRANGE ++ refuseIf (!s.tr.rings.isEmpty) stBUSY
  else if off = 8 then
    refuseIf (regionHits s v) stRANGE ++
    refuseIf ((List.range 512).any (fun k => flag s (R.SV_CX_STAT k) F.SV_CX_STAT_ASSIGNED && flag s (R.SV_CX_SPCFG k) F.SV_CX_SPCFG_EN)) stBUSY
  else if 0x1000 ≤ off ∧ off < 0x3000 then queueRefused s ((off - 0x1000) / 0x40) (off % 0x40) v
  else []

/-- The own address of an Ethernet port: zero, or a group address (R549). -/
def macBad (s : State) (e : Nat) : Bool :=
  (reg s (R.P_ETH_MACLO e) == 0 && fld s (R.P_ETH_MACHI e) F.P_ETH_MACHI_MAC == 0) || bitOf (reg s (R.P_ETH_MACLO e)).toNat 0

/-- A VLAN identifier outside 1 to 4,094. (DEDUCED, notes/assumptions/43.md.) -/
def vidBad (vid : Nat) : Bool := outside vid 1 4094

/-- Partner port p, register `off` (R532, R549, R573 to R575). -/
def ppRefused (s : State) (p off : Nat) (v : Word) : List Nat :=
  let en := portEn s p
  let c := reg s (R.P_ETH_CTL p)
  let slot := getFld v F.P_KEY_KSLOT
  let eth := decide (p < 2)
  match off with
  | 0x000 => refuseIf (eth && getFld v F.P_CTL_EN == 1 && !en && macBad s p) stRANGE
  | 0x008 =>
    refuseIf (getFld v F.P_KEY_KEN == 1 && (List.range 4).any (fun x => x != p && slotUser s slot x)) stCONFLICT ++
    refuseIf (getFld v F.P_KEY_KEN == 1 && (keySlot s slot).key.isNone) stRANGE
  | 0x100 =>
    refuseIf (eth && en && putFld (v &&& 0xFF) F.P_ETH_CTL_EDWAKE 0 != putFld c F.P_ETH_CTL_EDWAKE 0) stBUSY ++
    refuseIf (eth && (getFld v F.P_ETH_CTL_MODE == 3 ||
      (getFld v F.P_ETH_CTL_VLAN == 1 && !flag s (R.P_ETH_CTL p) F.P_ETH_CTL_VLAN && vidBad (fld s (R.P_ETH_TYPE p) F.P_ETH_TYPE_VID)))) stRANGE
  | 0x104 | 0x108 => refuseIf (eth && en) stBUSY
  | 0x114 =>
    refuseIf (eth && en) stBUSY ++
    refuseIf (eth && flag s (R.P_ETH_CTL p) F.P_ETH_CTL_VLAN && vidBad (getFld v F.P_ETH_TYPE_VID)) stRANGE
  | 0x118 => refuseIf (eth && en) stBUSY ++ refuseIf (eth && outside (getFld v F.P_ETH_MTU_MTU) 1500 9000) stRANGE
  | 0x11C => refuseIf (eth && getFld v F.P_ETH_FLUSH_FLUSH == 0) stRANGE
  | 0x200 => refuseIf (!eth && en) stBUSY
  | 0x300 => refuseIf (p == 0 && decide (getFld v F.P0_MDIO_CFG_DIV < 0x63)) stRANGE
  | 0x304 => refuseIf (p == 0 && (flag s R.P0_MDIO_CMD F.P0_MDIO_CMD_BUSY || !flag s R.P0_MDIO_CFG F.P0_MDIO_CFG_EN)) stBUSY
  | _ => []

/-- Pulse channel i, register `off` (R350, R355). The present EN allows no register but CTL to be written, the one that clears
TB_PLSi_CNT among them. (DEDUCED, notes/assumptions/45.md.) -/
def plsRefused (s : State) (i off : Nat) (v : Word) : List Nat :=
  let a := R.TB_PLS_CTL i
  let en := plsEn s i
  let mode := getFld v F.TB_PLS_CTL_MODE
  match off with
  | 0x00 =>
    refuseIf (mode == 3) stRANGE ++
    refuseIf (en && (mode != plsMode s i || getFld v F.TB_PLS_CTL_POL != fld s a F.TB_PLS_CTL_POL)) stBUSY ++
    refuseIf (!en && getFld v F.TB_PLS_CTL_EN == 1 && plsBad s i mode) stRANGE
  | 0x0C => refuseIf en stBUSY ++ refuseIf (decide (v.toNat ≥ secNs)) stRANGE
  | _ => refuseIf en stBUSY

/-- An interval of TB_PTP_INT is not one that R340 supports. (DEDUCED, notes/assumptions/7.md.) -/
def ptpIntBad (v : Word) : Bool :=
  let out (f : Fld) (lo hi : Int) : Bool := decide (signedOf 8 (getFld v f) < lo) || decide (hi < signedOf 8 (getFld v f))
  out F.TB_PTP_INT_LOGSYNC (-7) 4 || out F.TB_PTP_INT_LOGDREQ (-7) 5 || out F.TB_PTP_INT_LOGANN (-3) 4 || decide (getFld v F.TB_PTP_INT_ARTO < 2)

/-- The timebase (R313, R343, R345, R350, R355, R364, R365). -/
def tbRefused (s : State) (a : Nat) (v : Word) : List Nat :=
  let off := a - 0x40000
  let en := flag s R.TB_PTP_CTL F.TB_PTP_CTL_EN
  if off = 0x00 then refuseIf (decide (getFld v F.TB_CTL_SRC ≥ 4)) stRANGE
  else if off = 0x0C then refuseIf (outside v.toNat 1 999999999) stRANGE
  else if off = 0x18 then refuseIf (getFld v F.TB_LOCK_LOCKN == 0) stRANGE
  else if off = 0x1C then refuseIf (getFld v F.TB_HOLD_REFN == 0 || getFld v F.TB_HOLD_TMO == 0) stRANGE
  else if off = 0x100 then
    refuseIf (getFld v F.TB_PTP_CTL_TC == 1 && getFld v F.TB_PTP_CTL_DELAY == 1) stRANGE ++
    refuseIf (en && v &&& wordOf (namedBits a) != putFld (reg s a) F.TB_PTP_CTL_EN 0) stBUSY ++
    refuseIf (decide (getFld v F.TB_PTP_CTL_DOMAIN > 127)) stRANGE
  else if off = 0x104 then refuseIf (ptpIntBad v) stRANGE ++ refuseIf en stBUSY
  else if off = 0x108 then refuseIf en stBUSY
  else if 0x200 ≤ off ∧ off < 0x340 then plsRefused s ((off - 0x200) / 0x40) (off % 0x40) v
  else []

/-- PWR and RST (R663, R666, R711). -/
def pwrRefused (_s : State) (a : Nat) (v : Word) : List Nat :=
  if a = R.PWR_CFG then refuseIf (getFld v F.PWR_CFG_TIDLE == 0 || getFld v F.PWR_CFG_DRAIN == 0) stRANGE
  else if a = R.PWR_HWCFG then refuseIf (getFld v F.PWR_HWCFG_PWID == 0) stRANGE
  else if a = R.RST_WDT then refuseIf (getFld v F.RST_WDT_HBTMO == 0 || outside (getFld v F.RST_WDT_FHTMO) 10 1023) stRANGE
  else []

/-- The refusals of one word that is written critically or by the image, in rule order. (DEDUCED, notes/assumptions/7.md.) -/
def critRefused (s : State) (src : Option Nat) (a : Nat) (v : Word) : List Nat :=
  let t := (a - 0x100000) / 0x10000
  let off := a % 0x10000
  match (blockAt a).kind with
  | .ports => fpRefused s (t * 8 + off / 0x800) (a % 0x800) v ++ cwRefused s (t * 8 + off / 0x800) (a % 0x800) v
  | .filt => fltRefused s t off v
  | .tmr => tmrRefused s src t off v
  | .tpl => tplRefused s a
  | .sv => svRefused s a v
  | .tr => trRefused s a v
  | .pp => ppRefused s ((a - 0x10000) / 0x1000) (a % 0x1000) v
  | .tb => tbRefused s a v
  | .cl =>
    if a = R.CL_CTL then (clCtlRefused s v).toList
    else if a = R.CL_LOSS then refuseIf (getFld v F.CL_LOSS_LOSSLIM == 0) stRANGE
    else []
  | .pwr => pwrRefused s a v
  | .sec =>
    if a = R.SEC_OTPPROG then refuseIf (fuseLocked s (getFld v F.SEC_OTPPROG_WORD)) stLOCKED else []
  | .glb | .sq | .fh | .ctx | .qmem | .win | .flash | .resv => []

/-- Refusals of any word, critical or not: a register of a running pulse channel takes no write but CTL (R350), and outside
LOADWAIT neither GLB_LOADCTL nor the load window takes any (R657; the rows of R656 reach the window by a path of their own). (DEDUCED, notes/assumptions/7.md.) -/
def plainRefused (s : State) (a : Nat) : List Nat :=
  let off := a - 0x40000
  match (blockAt a).kind with
  | .tb => if 0x200 ≤ off ∧ off < 0x340 ∧ off % 0x40 = 0x28 then refuseIf (plsEn s ((off - 0x200) / 0x40)) stBUSY else []
  | .glb => refuseIf (a == R.GLB_LOADCTL || decide (0x8000 ≤ a)) stDENIED
  | _ => []

-- ---------------------------------------------------------------- what an accepted word does

/-- FPn_CTL is written (R75, R79, R177). -/
def fpCtlWritten (crit : Bool) (n : Nat) (v : Word) (s : State) : State :=
  let was := flag s (R.FP_CTL n) F.FP_CTL_EN
  let s := putWord crit (R.FP_CTL n) v s
  let now := flag s (R.FP_CTL n) F.FP_CTL_EN
  if now && !was then portOn n s else if was && !now then endWindows n (portOff n s) else s

/-- FPn_SS is written: a line whose active level changes is active where it was not (R108, R150). -/
def ssWritten (crit : Bool) (n : Nat) (v : Word) (s : State) : State :=
  let was := (reg s (R.FP_SS n)).toNat
  let s := putWord crit (R.FP_SS n) v s
  let now := (reg s (R.FP_SS n)).toNat
  let flips := (List.range 4).filter (fun l => bitOf was (if l = 0 then 11 else 7 + l) != bitOf now (if l = 0 then 11 else 7 + l))
  if flips.isEmpty then s
  else portMod n (fun p => { p with drOn := flips.foldl (fun d l => tabSet (fun _ => false) d l (!tabGet (fun _ => false) d l)) p.drOn }) s

/-- CWn_CTL is written (R177, R180). -/
def cwCtlWritten (crit : Bool) (n : Nat) (v : Word) (s : State) : State :=
  let was := flag s (R.CW_CTL n) F.CW_CTL_WEN
  let s := putWord crit (R.CW_CTL n) v s
  let s := if was && !flag s (R.CW_CTL n) F.CW_CTL_WEN then endWindows n s else s
  idsFollow n s

/-- CWn_ACCEPT is written (R185). -/
def acceptWritten (n : Nat) (v : Word) (s : State) : State :=
  eachOf ((List.range 3).filter (fun i => bitOf v.toNat i)) (fun i s => idAccept n i s) s

def fpCnts (n : Nat) : List Nat := (List.range 6).map (fun i => R.FP_CNT n i)

/-- The port registers and the window registers of port n. -/
def fpWrite (crit : Bool) (n off a : Nat) (v : Word) (s : State) : State :=
  match off with
  | 0x000 => fpCtlWritten crit n v s
  | 0x018 => ssWritten crit n v s
  | 0x078 => clrBits (fpCnts n) v s
  | 0x400 => cwCtlWritten crit n v s
  | 0x420 => acceptWritten n v s
  | 0x42C => clrBits [R.CW_CNT_RD n, R.CW_CNT_SWAP n] v s
  | 0x440 | 0x460 | 0x480 => idsFollow n (putWord crit a v s)
  | _ => putWord crit a v s

/-- FTt_FLT_SLOTs is written critically: a bound slot takes it at its context's boundary (R295). (DEDUCED, notes/assumptions/44.md.) -/
def slotWritten (t f : Nat) (v : Word) (s : State) : Nat × State :=
  if slBound s t f then
    if h : t < 6 ∧ f < 16 then (stACCEPTED, (actOn (slCtx s t f) (.slotWrite ⟨t, h.1⟩ ⟨f, h.2⟩ v) s).2) else (stOK, s)
  else (stOK, putWord true (R.FT_SLOT t f) v s)

/-- FTt_FLT_SLOTs_CLR is written (R293). -/
def slotCleared (t f : Nat) (v : Word) (s : State) : State :=
  let s := onlyIf (bitOf v.toNat 0) (setReg (R.FT_SLOT_OUT t f) 0) s
  onlyIf (bitOf v.toNat 1) (fun s => setFld (R.FT_SLOT_STAT t f) F.FT_SLOT_STAT_SATC 0 (setReg (R.FT_SLOT_MARK t f) 0 s)) s

/-- The filter engine of tile t. -/
def fltWrite (crit : Bool) (t off a : Nat) (v : Word) (s : State) : Nat × State :=
  if off = 0x400C then (stOK, if crit && getFld v F.FT_FLT_BANK_SWAP == 1 then swapRequest t s else s)
  else if off = 0x4020 then (stOK, clrBits [R.FT_FLT_CNT_CKA t, R.FT_FLT_CNT_SBE t, R.FT_FLT_CNT_DBE t] v s)
  else if 0x4100 ≤ off ∧ off < 0x4300 then
    let f := (off - 0x4100) / 0x20
    match off % 0x20 with
    | 0x00 => if crit then slotWritten t f v s else (stOK, s)
    | 0x1C => (stOK, slotCleared t f v s)
    | _ => (stOK, s)
  else (stOK, putWord crit a v s)

/-- The timers of tile t. -/
def tmrWrite (src : Option Nat) (crit : Bool) (t off a : Nat) (v : Word) (s : State) : State :=
  if off = 0x6000 then snapTaken t v s
  else if off = 0x600C then tmCleared t v s
  else if 0x6100 ≤ off ∧ off < 0x6300 then
    let c := (off - 0x6100) / 0x40
    match off % 0x40 with
    | 0x00 => if crit then tmCtlApply src t c v s else s
    | 0x14 => if crit then cmpWritten t c v s else s
    | 0x1C => if crit then intvWritten t c v s else s
    | _ => putWord crit a v s
  else s

/-- SQn_CLR is written (R242). -/
def sqCleared (n : Nat) (v : Word) (s : State) : State := clrBits [R.SQ_PEAK n, R.SQ_MAXLAG n, R.SQ_CNT_LATE n, R.SQ_CNT_CU n] v s

/-- The sequencer of tile t. -/
def sqWrite (crit : Bool) (t off a : Nat) (v : Word) (s : State) : State :=
  if 0x8100 ≤ off ∧ off < 0x8200 ∧ off % 0x20 = 0x18 then sqCleared (8 * t + (off - 0x8100) / 0x20) v s else putWord crit a v s

/-- Sieve. -/
def svWrite (crit : Bool) (a : Nat) (v : Word) (s : State) : State :=
  if a = R.SV_CLR then clrBits [R.SV_CNT_FIRE, R.SV_CNT_TAINT, R.SV_CNT_DBE] v s else putWord crit a v s

/-- Qq_CFG is written (R460, R462); queue memory keeps its bytes. -/
def queueWritten (crit : Bool) (q : Nat) (v : Word) (s : State) : State :=
  let was := qEn s q
  let s := putWord crit (R.Q_CFG q) v s
  if qEn s q && !was then queueStart q s else s

/-- The registers that Qq_CLR clears, in bit order (R506). -/
def queueCnts (q : Nat) : List Nat := [R.Q_CNT_REC q, R.Q_CNT_DROP q, R.Q_CNT_OVW q, R.Q_CNT_LORD q]

/-- Trellis and the queues. -/
def trWrite (crit : Bool) (a : Nat) (v : Word) (s : State) : State :=
  let off := a - 0x250000
  if a = R.TR_CLR then clrBits [R.TR_CNT_SBE, R.TR_CNT_DBE, R.TR_CNT_EARLY] v s
  else if 0x1000 ≤ off ∧ off < 0x3000 then
    let q := (off - 0x1000) / 0x40
    match off % 0x40 with
    | 0x00 => queueWritten crit q v s
    | 0x34 => clrBits (queueCnts q) v s
    | _ => putWord crit a v s
  else putWord crit a v s

/-- Pp_CTL is written (R509): a disabled Ethernet port reports no link. (DEDUCED, notes/assumptions/43.md.) -/
def ppCtlWritten (crit : Bool) (p : Nat) (v : Word) (s : State) : State :=
  let s := putWord crit (R.P_CTL p) v s
  if p < 2 && !portEn s p then ethDown p s else s

/-- P0_MDIO_CMD is written critically: a management frame starts (R574). -/
def mdioStart (v : Word) (s : State) : State :=
  let s := setFlag R.P0_MDIO_CMD F.P0_MDIO_CMD_BUSY true (putWord true R.P0_MDIO_CMD v s)
  addSent (.mdio (reg s R.P0_MDIO_CMD)) s

def ppCnts (p : Nat) : List Nat := (List.range 11).map (fun i => R.P_CNT p i)
def ethCnts (p : Nat) : List Nat := (List.range 7).map (fun i => R.P_ETH_CNT p i)

/-- Partner port p. -/
def ppWrite (crit : Bool) (p off a : Nat) (v : Word) (s : State) : State :=
  match off with
  | 0x000 => ppCtlWritten crit p v s
  | 0x08C => clrBits (ppCnts p) v s
  | 0x17C => if p < 2 then clrBits (ethCnts p) v s else s
  | 0x304 => if crit && p == 0 then mdioStart v s else s
  | _ => putWord crit a v s

/-- TB_CTL is written: where EN rises, the integral term starts from the present frequency (R316, R319). -/
def tbCtlWritten (crit : Bool) (v : Word) (s : State) : State :=
  let was := tbEn s
  let s := putWord crit R.TB_CTL v s
  servoEnables (onlyIf (tbEn s && !was) (fun s => { s with tm := { s.tm with integ := freqNow s, last := none } }) s)

/-- TB_CLK is written with CRIT: a side on its RC is asked to return to its crystal (R338). -/
def tbClkWritten (v : Word) (s : State) : State :=
  let one (x : Side) (s : State) : State :=
    if getFld v (retryFld x) == 1 && flag s R.TB_STAT (oscFld x) then setFlag R.TB_CLK (retryFld x) true s else s
  one .field (one .host s)

/-- TB_PTP_CTL is written (R340, R345). -/
def ptpCtlWritten (crit : Bool) (v : Word) (s : State) : State :=
  let was := ptpEn s
  let s := putWord crit R.TB_PTP_CTL v s
  if ptpEn s != was then ptpEnable (ptpEn s) s else s

/-- TB_PLSi_CTL is written (R351 to R353, R358). -/
def plsCtlWritten (crit : Bool) (i : Nat) (v : Word) (s : State) : State :=
  let was := plsEn s i
  let s := putWord crit (R.TB_PLS_CTL i) v s
  if plsEn s i && !was then plsStartUp i s else if was && !plsEn s i then plsStop i s else s

/-- The timebase. -/
def tbWrite (crit : Bool) (a : Nat) (v : Word) (s : State) : State :=
  let off := a - 0x40000
  if a = R.TB_CTL then tbCtlWritten crit v s
  else if a = R.TB_CLR then clrBits [R.TB_CNT_REF, R.TB_CNT_STEP, R.TB_CNT_PPSREJ] v s
  else if a = R.TB_CLK then (if crit then tbClkWritten v s else s)
  else if a = R.TB_PTP_CTL then ptpCtlWritten crit v s
  else if a = R.TB_PTP_CLR then clrBits ((List.range 4).map (fun i => R.TB_PTP_CNT i)) v s
  else if 0x200 ≤ off ∧ off < 0x340 then
    let i := (off - 0x200) / 0x40
    match off % 0x40 with
    | 0x00 => plsCtlWritten crit i v s
    | 0x28 => if bitOf v.toNat 0 then setReg (R.TB_PLS_CNT i) 0 s else s
    | _ => putWord crit a v s
  else putWord crit a v s

/-- Clasp. -/
def clWrite (crit : Bool) (a : Nat) (v : Word) (s : State) : State :=
  if a = R.CL_CTL then (if crit then clCtlApply v s else s)
  else if a = R.CL_CLR then clCleared v s
  else if a = R.CL_LANE_CLR 0 then clLaneCleared 0 v s
  else if a = R.CL_LANE_CLR 1 then clLaneCleared 1 v s
  else putWord crit a v s

/-- PWR_AOC is written with CRIT (R702): XTAL selects the source, RETRY asks for a failed crystal again. -/
def aocWritten (v : Word) (s : State) : State :=
  let was := flag s R.PWR_AOC F.PWR_AOC_XTAL
  let x := getFld v F.PWR_AOC_XTAL == 1
  let s := setFlag R.PWR_AOC F.PWR_AOC_XTAL x s
  if !x then setFlag R.PWR_AOC F.PWR_AOC_RETRY false (setFlag R.PWR_AOC F.PWR_AOC_ONRC true s)
  else if !was then setFlag R.PWR_AOC F.PWR_AOC_ONRC false s
  else if getFld v F.PWR_AOC_RETRY == 1 && flag s R.PWR_AOC F.PWR_AOC_ONRC then setFlag R.PWR_AOC F.PWR_AOC_RETRY true s
  else s

/-- A write of 1 to PWR_HWCLR (R690). -/
def hwakeCleared (v : Word) (s : State) : State :=
  if bitOf v.toNat 0 then { s with pow := { s.pow with hwakeOut := false, hwakeDue := false } } else s

/-- PWR and RST. -/
def pwrWrite (crit : Bool) (a : Nat) (v : Word) (s : State) : State :=
  if a = R.PWR_HWCLR then hwakeCleared v s
  else if a = R.PWR_PADREL then (if crit then padrelWritten v s else s)
  else if a = R.PWR_AOC then (if crit then aocWritten v s else s)
  else if a = R.PWR_CLR then clrBits [R.PWR_CNT_QLOST, R.PWR_CNT_WKDROP, R.PWR_ABORT] v s
  else if a = R.RST_CLR then clrBits [R.RST_CNT_HOLDOFF] v s
  else putWord crit a v s

/-- GLB_CKCLR is written (R62). -/
def ckCleared (v : Word) (s : State) : State :=
  clrBits ((List.range 6).map (fun i => R.GLB_CKCNT i) ++ [R.GLB_RACECNT]) v s

/-- GLB. -/
def glbWrite (crit : Bool) (a : Nat) (v : Word) (s : State) : State :=
  if a = R.GLB_CKCLR then ckCleared v s
  else if a = R.GLB_GRF_CLR then clrBits [R.GLB_GRF_CNT] v s
  else putWord crit a v s

/-- The bits of a fuse word that are programmed (R577): those asked for that the word takes stay, whatever else fails. Answers
the status. -/
def otpProgram (w : Nat) (took : Word) (s : State) : Nat × State :=
  let want := reg s R.SEC_OTPDATA
  let new := fuseWord s w ||| (want &&& took)
  let nv : NvS := { s.nv with otp := tabSet (fun _ => (0 : Word)) s.nv.otp w new }
  let s := nvPulse nv 200000 { s with nv := nv }
  if new &&& want == want then (stOK, s) else (stINTERNAL, evt R.SEC_EVT F.SEC_EVT_OTPFAIL s)

/-- An accepted word takes effect: the status and the state. Reserved fields and read-only registers are left alone. `took` is
the mask of fuse bits that program. -/
def applyWord (src : Option Nat) (crit : Bool) (took : Word) (a : Nat) (v : Word) (s : State) : Nat × State :=
  let t := (a - 0x100000) / 0x10000
  let off := a % 0x10000
  match (blockAt a).kind with
  | .ports => (stOK, fpWrite crit (t * 8 + off / 0x800) (a % 0x800) a v s)
  | .filt => fltWrite crit t off a v s
  | .tmr => (stOK, tmrWrite src crit t off a v s)
  | .sq => (stOK, sqWrite crit t off a v s)
  | .fh => (stOK, if a = R.FH_CTXCLR then clrBits [R.FH_CTXREF, R.FH_CONFREF] v s else putWord crit a v s)
  | .tpl => (stOK, putWord crit a v s)
  | .sv => (stOK, svWrite crit a v s)
  | .tr => (stOK, trWrite crit a v s)
  | .pp => (stOK, ppWrite crit ((a - 0x10000) / 0x1000) (a % 0x1000) a v s)
  | .tb => (stOK, tbWrite crit a v s)
  | .cl => (stOK, clWrite crit a v s)
  | .pwr => (stOK, pwrWrite crit a v s)
  | .sec =>
    let s' := putWord crit a v s
    if a = R.SEC_OTPPROG ∧ crit then otpProgram (getFld v F.SEC_OTPPROG_WORD) took s' else (stOK, s')
  | .glb => (stOK, glbWrite crit a v s)
  | .ctx | .qmem | .win | .flash | .resv => (stOK, s)

-- ---------------------------------------------------------------- a block of words (R15, R537, R538)

/-- A word needs CRIT as the state stands (R15, R186): it changes an RWS field, or accepts an identity. (DEDUCED, notes/assumptions/42.md.) -/
def wordNeedsCrit (s : State) (a : Nat) (v : Word) : Bool :=
  let rws := wordOf (descOf a).rws
  (v &&& rws != view s a &&& rws) || ((blockAt a).kind == .ports && a % 0x800 == 0x420 && v &&& 7 != 0)

/-- A WRITE needs CRIT: some word does, against what the earlier words leave. -/
def needsCrit (src : Option Nat) : List (Nat × Word) → State → Bool
  | [], _ => false
  | (a, v) :: rest, s => wordNeedsCrit s a v || needsCrit src rest (applyWord src true 0 a v s).2

/-- The refusals of one word (R34's and the address map's apart). (DEDUCED, notes/assumptions/7.md.) (DEDUCED, notes/assumptions/42.md.) -/
def wordRefused (s : State) (src : Option Nat) (crit : Bool) (a : Nat) (v : Word) : List Nat :=
  if crit then critRefused s src a v ++ plainRefused s a else plainRefused s a

/-- The first refusal of a WRITE, each word against the state the earlier words would leave (R538). `waive` lets the words
through that only BUSY would refuse, at the addresses it selects (R722). (DEDUCED, notes/assumptions/7.md.) -/
def firstRefusal (src : Option Nat) (crit : Bool) (waive : Nat → Bool) : List (Nat × Word) → State → Option Nat
  | [], _ => none
  | (a, v) :: rest, s =>
    match (wordRefused s src crit a v).filter (fun x => !(waive a && x == stBUSY)) with
    | st :: _ => some st
    | [] => firstRefusal src crit waive rest (applyWord src crit 0 a v s).2

/-- A later word's status joins: a failure stands, ACCEPTED prevails over OK. -/
def joinStatus (x y : Nat) : Nat := if x ≥ 0x10 then x else if y ≥ 0x10 then y else max x y

/-- The words take effect in order. -/
def applyWords (src : Option Nat) (crit : Bool) (took : Word) : List (Nat × Word) → State → Nat × State
  | [], s => (stOK, s)
  | (a, v) :: rest, s =>
    let x := applyWord src crit took a v s
    let y := applyWords src crit took rest x.2
    (joinStatus x.1 y.1, y.2)

/-- The addresses and values of a WRITE that lie in its block (R56, R537). -/
def wordsOf (a : Nat) (ws : List Word) : List (Nat × Word) := (wordsIn a ws.length).zip ws

/-- What stands of a WRITE that is answered INTERNAL: the fuse bits that did program, and the event (R21, R577). `s` is the state before
it, `t` the state its words left. -/
def fusesOnly (s t : State) : State := evt R.SEC_EVT F.SEC_EVT_OTPFAIL { s with nv := t.nv, nvOld := t.nvOld }

/-- A WRITE's own checks and effect, once it may run (R54, R56, R537, R538). (DEDUCED, notes/assumptions/32.md.) -/
def writeBlock (src : Option Nat) (crit : Bool) (waive : Nat → Bool) (took : Word) (a : Nat) (ws : List Word) (s : State) : Nat × State :=
  let l := wordsOf a ws
  match (blockAt a).kind with
  | .qmem | .flash => (stDENIED, s)
  | _ =>
    match firstRefusal src crit waive l s with
    | some st => (st, s)
    | none =>
      let x := applyWords src crit took l s
      (if x.1 < 0x10 && overruns a ws.length then stOVERRUN else x.1, if x.1 == stINTERNAL then fusesOnly s x.2 else x.2)

end Sys2Proof.Machine
end

