-- ==== Sys2Proof/Machine/Reset.lean ====
section
/-! DEFINITION. Resets: sources, episodes, what a reset's assertion stops and what its release does (R138 to R141, R302, R405,
R571, R600, R610 to R638, R664, R739). -/

namespace Sys2Proof.Machine

-- ---------------------------------------------------------------- reaches (R610, R630, R666)

def tileDies : List Die := (List.finRange 6).map Die.tile

/-- The dies of a side (R24). -/
def sideDies : Side → List Die
  | .host => [.hb]
  | .field => .fh :: tileDies

def portTile (n : PortNo) : TileNo := ⟨n.val / 8, by omega⟩

/-- The dies a reach lies on (R630). -/
def reachDies : Reach → List Die
  | .device => allDies
  | .side x => sideDies x
  | .die d => [d]
  | .port n => [.tile (portTile n)]
  | .filter t => [.tile t]
  | .engine _ => [.fh]
  | .hbCore => [.hb]
  | .fhCtl => [.fh]
  | .lanes x => [if x = .host then .hb else .fh]

/-- The dies that a reach resets as a whole: none for a unit (R610). -/
def wholeDies : Reach → List Die
  | .device => allDies
  | .side x => sideDies x
  | .die d => [d]
  | _ => []

/-- The code of a reach in RST_LAST.REACH (R666); a unit shows its die. (DEDUCED, notes/assumptions/11.md.) -/
def reachCode : Reach → Nat
  | .device => 15
  | .side .host => 14
  | .side .field => 13
  | .die .hb => 0
  | .die .fh => 1
  | .die (.tile t) => 2 + t.val
  | .port n => 2 + n.val / 8
  | .filter t => 2 + t.val
  | .engine _ => 1
  | .hbCore => 0
  | .fhCtl => 1
  | .lanes x => if x = .host then 0 else 1

/-- The reach of a level for a source with this unit and die (R610, R618, R619). -/
def reachAt (unit : Option Reach) (d : Die) (level : Nat) : Reach :=
  match level with
  | 0 => .device
  | 1 => .side (if d = .hb then .host else .field)
  | 2 => .die d
  | _ => unit.getD (.die d)

/-- Source `no` reaches side x in its power state: a side in Off answers only its own power-on (R667), and a field side held by
WAKEFAILF only a field power-on or FRST_N (R695). (DEDUCED, notes/assumptions/19.md.) -/
def sideAnswers (s : State) (no : Nat) (x : Side) : Bool :=
  match (sideGet s x).st with
  | .off => no == (if x = .host then 0 else 3)
  | .wakefail => x = .host || no == 3 || no == 7
  | _ => true

/-- The sides a reach lies on. -/
def reachSides (r : Reach) : List Side :=
  match r with
  | .device => [.host, .field]
  | .side x => [x]
  | .lanes x => [x]
  | .die .hb => [.host]
  | .hbCore => [.host]
  | _ => [.field]

/-- What is left of a source's reach with the sides that do not answer left out; none where no side answers. -/
def reachLeft (s : State) (c : SrcOn) : Option SrcOn :=
  match (reachSides c.reach).filter (sideAnswers s c.no), c.reach with
  | [], _ => none
  | [x], .device => some { c with reach := .side x }
  | _, _ => some c

-- ---------------------------------------------------------------- the end of a Graft (R739)

/-- The contexts whose entries the open Graft's ADD items reserve (R202). -/
def stagedAdds (g : GraftS) : List Nat :=
  g.items.filterMap (fun it =>
    match it.words with
    | i :: act :: _ => if it.kind == gkCtx && act == wordOf actADD then some i.toNat else none
    | _ => none)

/-- The open Graft ends with a cause of R739 and a status. -/
def graftEnds (code st : Nat) (s : State) : State :=
  match s.graft with
  | none => s
  | some g =>
    let s := if code = 1 then s else eachOf (stagedAdds g) unreserveCtx s
    let s := setReg R.GLB_GRF_LAST (wordOf (g.gid * 2 ^ 16 + st * 2 ^ 8 + code * 2 ^ 4)) { s with graft := none }
    let s := setFld R.GLB_GRF_STAT F.GLB_GRF_STAT_STATE 0 (setFld R.GLB_GRF_STAT F.GLB_GRF_STAT_HOLDER 0 s)
    let s := setFld R.GLB_GRF_ITEMS F.GLB_GRF_ITEMS_STAGED 0 s
    let s := if code = 1 then evt R.GLB_GRF_EVT F.GLB_GRF_EVT_COMMIT (cntFld R.GLB_GRF_CNT F.GLB_GRF_CNT_COMMITS 1 s)
      else cntFld R.GLB_GRF_CNT F.GLB_GRF_CNT_ABORTS 1 s
    if code = 3 then evt R.GLB_GRF_EVT F.GLB_GRF_EVT_TMO s else s

-- ---------------------------------------------------------------- what an assertion stops

/-- Partner port p loses every command and response (R571). -/
def portDrops (p : Nat) (s : State) : State :=
  partMod p (fun u => { u with outst := [], resp := [], reasm := [], part := [], fwd := [], rxFill := 0 })
    { s with stalled := s.stalled.filter (fun c => c.1 != p) }

/-- Both lanes go to OFF, which begins an episode of no lane where one was in service (R600, R601). (DEDUCED, notes/assumptions/19.md.) -/
def lanesOff (s : State) : State :=
  if laneSt s 0 == lnOFF && laneSt s 1 == lnOFF then s
  else beginEpisode (someLane s) (setLane 1 lnOFF (setLane 0 lnOFF s))

/-- The enabled lanes train once neither end is in reset (R582, R600). -/
def lanesTrain (s : State) : State :=
  if s.boot.inReset.contains .hb || s.boot.inReset.contains .fh then s
  else eachOf [0, 1] (fun x s => if laneSt s x == lnOFF && lnEn s x then setLane x lnTRAIN s else s) s

/-- A warm reset reaches HB (R525, R571, R600, R739). The side runs again once released. -/
def hbStops (s : State) : State :=
  let s := lanesOff (graftEnds 4 stINTERNAL (eachOf [0, 1, 2, 3] portDrops s))
  let s := { s with stalled := [], boot := { s.boot with resets := [], load := {} } }
  { s with pow := { s.pow with fieldSeen := none, hostReqs := [], host := { s.pow.host with st := .run, ap := 0, saved := [] } } }

/-- A warm reset reaches field port n: the transaction on its wire stops at once and will complete with ABORT (R138, R139,
R141). The runs and the conditions behind STAT.STUCK stay, whose own Warm value is 0. (DESIGN CHOICE, notes/assumptions/65.md.) -/
def portStops (n : Nat) (s : State) : State :=
  let p := portGet s n
  let sel := (selAsserted s n).isSome
  let s := match p.wire with | some i => stopNow n i 6 s | none => s
  bitsStop n (portMod n (fun p => { p with selHeld := p.selHeld || sel, relseq := none, relSlot := none, relSel := none, relAt := 0 }) s)

def tileStops (t : Nat) (s : State) : State := tilesFollow (eachOf (tilePorts t) portStops s)

/-- A warm reset reaches FH (R600). -/
def fhStops (s : State) : State :=
  let s := lanesOff s
  { s with pow := { s.pow with field := { s.pow.field with st := .run, ap := 0, saved := [] } } }

/-- A warm reset reaches the whole field side (R307, R309, R614). -/
def fieldStops (s : State) : State :=
  let s := eachOf (List.range 48) portStops (fhStops s)
  let s := { s with pow := { s.pow with autoSleep := [], cmdSleep := [] } }
  tilesFollow (enterNotime s)

/-- The host side starts cold: all its registers and state, but for NV memory, fuses and flash, take their Cold values (R12,
R298, R611). What the field side shows in host registers stays. (DEDUCED, notes/assumptions/19.md.) (DEDUCED, notes/assumptions/25.md.) -/
def coldHost (s : State) : State :=
  let fs := fState s
  let fside := fld s R.GLB_BOOTSTAT F.GLB_BOOTSTAT_FSIDE
  let osc := flag s R.TB_STAT F.TB_STAT_OSCF
  let s := eachOf (match s.graft with | some g => stagedAdds g | none => []) unreserveCtx s
  let s := { s with
    regs := s.regs.filter (fun e => decide (0x100000 ≤ e.1)), part := [], stalled := [], graft := none
    tm := { field := s.tm.field, stepSum := s.tm.stepSum, good := s.tm.good, frate := s.tm.frate, fromField := fs != 0
            aoc := s.tm.aoc, aocFrac := s.tm.aocFrac, v0 := s.tm.v0, aoc0 := s.tm.aoc0
            exAt := s.tm.exAt, lastStep := s.tm.lastStep, fieldStep := s.tm.fieldStep }
    cl := { epField := s.cl.epField || someLane s, epFieldAt := if s.cl.epField then s.cl.epFieldAt else s.elapsed
            fhLim := if s.cl.epField then s.cl.fhLim else fld s R.CL_LOSS F.CL_LOSS_LOSSLIM, fhReport := s.cl.fhReport, fhAt := s.cl.fhAt, waiting := s.cl.waiting }
    boot := { s.boot with heldSrcs := [], load := {}, fused := false, hostHeld := false, resets := [], schedule := [], schedAt := [], firmware := [] }
    pow := { s.pow with host := {}, fieldSeen := none, held := s.pow.held.filter (fun b => bankSide b = .field)
                        relDue := s.pow.relDue.filter (fun b => bankSide b = .field)
                        hwakeOut := false, hwakeDue := false, hostReqs := [], lwSec := 0 } }
  setFlag R.TB_STAT F.TB_STAT_OSCF osc (setFld R.TB_STAT F.TB_STAT_FSTATE fs (setFld R.GLB_BOOTSTAT F.GLB_BOOTSTAT_FSIDE fside s))

/-- The field side starts cold (R12, R307, R611, R660, R800). The host side sees the loss of both lanes; for the field side no lane has been
in service since its start (R601). (DEDUCED, notes/assumptions/19.md.) (DEDUCED, notes/assumptions/25.md.) -/
def coldField (s : State) : State :=
  let banks : Tab PortS := s.ports.filterMap (fun e =>
    let pol (l : Nat) : Bool := bitOf (reg s (R.FP_SS e.1)).toNat (if l = 0 then 11 else 7 + l)
    let lines : Tab Bool := ((List.range 4).map (fun l => (l, tabGet (fun _ => false) e.2.drOn l != pol l))).filter (fun x => x.2)
    let p : PortS := { bankV := e.2.bankV, bankOk := e.2.bankOk, drOn := lines }
    if p = {} then none else some (e.1, p))
  let s := { s with
    regs := s.regs.filter (fun e => decide (e.1 < 0x100000)), ports := banks
    qmem := [], tr := {}, ctxs := [], tiles := [], filt := [], sv := {}, tmrs := [], snapSec := [], tmrAt := s.elapsed
    tm := { s.tm with field := 0, good := 0, frate := 0, stepSum := 0, fieldStep := [], fieldPend := 0, aoc := 0, aocFrac := 0, v0 := 0, aoc0 := 0 }
    cl := { s.cl with fhReport := false, waiting := [] }
    boot := { s.boot with wakeFailF := false, fieldSeq := none }
    pow := { s.pow with field := {}, autoSleep := [], cmdSleep := [], wkdrop := 0
                        held := s.pow.held.filter (fun b => bankSide b = .host), relDue := s.pow.relDue.filter (fun b => bankSide b = .host) } }
  let s := setFld R.TB_STAT F.TB_STAT_FSTATE 0 (setFld R.GLB_BOOTSTAT F.GLB_BOOTSTAT_FSIDE 0 s)
  let s := eachOf [0, 1] (fun x s => laneFails x causeHEART s) s
  { s with cl := { s.cl with epField := false } }

/-- Waiting Graft items of a side that starts cold are discarded (R728); they all wait on the field side. (DEDUCED, notes/assumptions/35.md.) -/
def dropWaits (s : State) : State :=
  if s.waits.isEmpty then s
  else evt R.GLB_GRF_EVT F.GLB_GRF_EVT_LOSTPEND (setFld R.GLB_GRF_ITEMS F.GLB_GRF_ITEMS_PEND 0 { s with waits := [] })

/-- What a source's assertion does at once. WAKEFAILF leaves the field side in Deep sleep (R623). (DEDUCED, notes/assumptions/10.md.) -/
def reachStops (c : SrcOn) (s : State) : State :=
  if c.no == 23 then s
  else if c.cold then
    let h := c.startsCold .host
    let f := c.startsCold .field
    let s := if f then coldField (dropWaits s) else s
    if h then coldHost s else s
  else
    match c.reach with
    | .device => fieldStops (hbStops s)
    | .side .host | .die .hb => hbStops s
    | .side .field => fieldStops s
    | .die .fh => fhStops s
    | .die (.tile t) => tileStops t.val s
    | .port n => portStops n.val s
    | .fhCtl => cntFld R.FH_LKSTAT F.FH_LKSTAT_RELOADS 1 s
    | .lanes _ => lanesOff s
    | .filter _ | .engine _ | .hbCore => s

-- ---------------------------------------------------------------- episodes (R630 to R633)

/-- The RST_CAUSE value of an episode (R632). (DEDUCED, notes/assumptions/11.md.) -/
def causeOf (e : Episode) : Nat :=
  sumNat ((List.range 32).map (fun i => b2n (e.srcs.any (fun c => c.no == i)) * 2 ^ i))

/-- The first source of the widest level (R632). (DEDUCED, notes/assumptions/11.md.) -/
def widest (e : Episode) : SrcOn :=
  e.srcs.foldl (fun a c => if c.level < a.level then c else a) (e.srcs.headD { no := 31, level := 3, reach := .hbCore, on := false, detail := 0 })

/-- RST_LAST of an episode; bits [31:18] are zero (R632, R666). (DEDUCED, notes/assumptions/11.md.) -/
def lastOf (s : State) (e : Episode) : Nat :=
  let w := widest e
  b2n (flag s R.RST_LAST F.RST_LAST_ROLLBACK) * 2 ^ 17 + w.detail % 512 * 2 ^ 8 + reachCode w.reach * 16 +
    b2n e.heldOff * 8 + b2n (e.srcs.any (·.cold)) * 4 + w.level

/-- The reset registers show an episode (R632). (DEDUCED, notes/assumptions/10.md.) -/
def showEpisode (e : Episode) (s : State) : State :=
  let m := wordOf (causeOf e)
  setReg R.RST_LAST (wordOf (lastOf s e)) (setReg R.RST_CAUSEACC (reg s R.RST_CAUSEACC ||| m) (setReg R.RST_CAUSE m s))

/-- The dies in reset: those that a running episode reaches as a whole (R631). -/
def resetFollow (s : State) : State :=
  let ds := allDies.filter (fun d => s.boot.episodes.any (fun e => e.srcs.any (fun c => (wholeDies c.reach).contains d)))
  tilesFollow { s with boot := { s.boot with inReset := ds } }

/-- The time of an assertion that the fault log keeps: device time (R664). -/
def episodeTime (s : State) : Nat := if masterRuns s then masterNs s else fieldNs s

/-- A source that reaches HB before the image runs starts the host side cold (R659). -/
def hostStartCold (s : State) (c : SrcOn) : SrcOn :=
  if (wholeDies c.reach).contains .hb && fld s R.GLB_BOOTSTAT F.GLB_BOOTSTAT_STAGE != 6 then { c with cold := true } else c

/-- A field side held by WAKEFAILF leaves that state by a cold start (R695). -/
def fieldHeldCold (s : State) (c : SrcOn) : SrcOn :=
  if s.pow.field.st = .wakefail && (wholeDies c.reach).contains .fh then { c with cold := true } else c

/-- A source asserts: it joins the episodes with which it shares a die, or begins one (R630), and the reset registers show it. -/
def joinEpisode (c : SrcOn) (held : Bool) (s : State) : State :=
  let began := episodeTime s
  let shares (e : Episode) : Bool := e.srcs.any (fun x => (reachDies x.reach).any (fun d => (reachDies c.reach).contains d))
  let joined := s.boot.episodes.filter shares
  let e : Episode := { srcs := joined.flatMap (·.srcs) ++ [c], heldOff := held || joined.any (·.heldOff)
                       began := (joined.head?.map (·.began)).getD began }
  let s := reachStops c { s with boot := { s.boot with episodes := s.boot.episodes.filter (fun x => !shares x) ++ [e] } }
  showEpisode e (resetFollow s)

/-- A source of R618 asserts. A source of 6 to 31 that reaches HB during an NV write is held off until the write ends (R633,
R634). A field side in LOADING that a cold start of the host interrupts starts cold too (R659). (DEDUCED, notes/assumptions/10.md.) -/
def assertSrc (c : SrcOn) (s : State) : State :=
  match reachLeft s c with
  | none => s
  | some c =>
  let c := hostStartCold s (fieldHeldCold s c)
  if decide (6 ≤ c.no) && (wholeDies c.reach).contains .hb && decide (s.elapsed < s.nv.busyUntil) then
    cnt R.RST_CNT_HOLDOFF { s with boot := { s.boot with heldSrcs := s.boot.heldSrcs ++ [c] } }
  else
    let loading := c.startsCold .host && fld s R.GLB_BOOTSTAT F.GLB_BOOTSTAT_FSIDE == 2
    let s := joinEpisode c false s
    if loading then setFld R.GLB_BOOTSTAT F.GLB_BOOTSTAT_FSIDE 1 (coldField s) else s

/-- A source of the reset map asserts as a pulse at the level of the map (R618 to R621). -/
def assertMap (no : Nat) (unit : Option Reach) (d : Die) (detail : Nat) (s : State) : State :=
  let level := srcLevel s no
  assertSrc { no := no, level := level, reach := reachAt unit d level, on := false, detail := detail, cold := level == 0 } s

/-- The held-off sources assert as the NV write ends (R633). -/
def assertHeld (s : State) : State :=
  let l := s.boot.heldSrcs
  eachOf l (fun c s => joinEpisode c true s) { s with boot := { s.boot with heldSrcs := [] } }

/-- An NV write pulse or a fuse programming ends. (DEDUCED, notes/assumptions/9.md.) -/
def nvEnd (s0 : State) : State :=
  let s := toElapsed s0.nv.busyUntil s0
  assertHeld { s with nv := { s.nv with busyUntil := 0 } }

-- ---------------------------------------------------------------- the fault log (R664)

/-- One entry is written. -/
def flogPut (w0 w1 cause last : Nat) (s : State) : State :=
  let e : FlogEntry := { w0 := wordOf w0, w1 := wordOf w1, w2 := wordOf cause, w3 := wordOf (last + s.nv.bootcnt.toNat % 2 ^ 14 * 2 ^ 18) }
  let nv : NvS :=
    { s.nv with flog := tabSet (fun _ => ({} : FlogEntry)) s.nv.flog s.nv.flogHead e, flogHead := (s.nv.flogHead + 1) % 1024
                flogCount := min (s.nv.flogCount + 1) 1024 }
  nvPulse s.nv 50000 { s with nv := nv }

/-- The entry of an episode: a cold start of the host side has no time. (DEDUCED, notes/assumptions/10.md.) -/
def flogEpisode (e : Episode) (s : State) : State :=
  let cold := e.srcs.any (fun c => c.startsCold .host)
  flogPut (if cold then 0 else tSecLo e.began) (if cold then 0 else tNs e.began) (causeOf e) (lastOf s e) s

-- ---------------------------------------------------------------- what a release does

/-- A register's value after a warm reset (R13). (DEDUCED, notes/assumptions/10.md.) -/
def warmWord (a : Nat) (v : Word) : Word :=
  let d := descOf a
  (v &&& ~~~wordOf d.warmMask) ||| wordOf d.warmVal

/-- The registers that a test selects take their Warm values. A register at its Cold value has it already. (DEDUCED, notes/assumptions/10.md.) -/
def warmRegs (p : Nat → Bool) (s : State) : State :=
  eachOf (s.regs.filter (fun e => p e.1)) (fun e s => setReg e.1 (warmWord e.1 e.2) s) s

/-- The address lies in HB, in FH, in tile t. -/
def hbAddr (a : Nat) : Bool := decide (a < 0x100000)
def fhAddr (a : Nat) : Bool := decide (0x200000 ≤ a)
def tileAddr (t a : Nat) : Bool := decide (0x100000 + t * 0x10000 ≤ a) && decide (a < 0x110000 + t * 0x10000)

/-- A context that was ending while its transaction was in a slot ends (R205). -/
def ctxEnds (k : Nat) (s : State) : State :=
  if inflight s k then s
  else if cState s k == stStopping then stopCtx k s
  else if cState s k == stRemoving then freeCtx k s
  else s

/-- Field port n leaves a warm reset: its window commands end, and a select that was active brings the release periods (R140,
R177). -/
def portLeaves (n : Nat) (s : State) : State :=
  let s := endWindows n s
  if (portGet s n).selHeld then releaseSeq n (portMod n (fun p => { p with selHeld := false }) s) else s

/-- A bank swap that was pending as a reset of tile t's engine asserted completes as the reset releases, before the engine's registers
take their Warm values (R287). -/
def swapEnds (t : Nat) (s : State) : State :=
  swapCheck t (eachOf ((List.range 16).filter (fun f => (filtGet s (slotIx t f)).swapDue)) (fun f s => slSwap t f s) s)

/-- The filter engine of tile t leaves a reset: the slots restart, and the contexts that lose outputs report them (R280, R282). -/
def filterLeaves (t : Nat) (report : State → Nat → Bool) (s : State) : State :=
  let now := fieldNs s
  eachOf ((List.range 512).filter (fun k => cState s k == stRunning && cPort s k / 8 == t && cFen s k)) (fun k s =>
    let s := slRun k true (ctxRestart k (closeRec k s))
    if report s k then gapMark k 2 now s else s) s

/-- The poll of a slot is issued again with the same transaction number (R614). -/
def reissue (n i : Nat) (s : State) : State :=
  match slotGet s n i with
  | some t =>
    let fresh : TxnS := { ctx := t.ctx, tn := t.tn, nom := t.nom, due := t.due, cu := t.cu, alert := t.alert, wait := 1, sentinel := t.sentinel }
    run n i (slotSet n i (some fresh) s)
  | none => s

/-- Tile t leaves an L2 reset (R140, R405, R614). -/
def tileLeaves (t : Nat) (s : State) : State :=
  let s := tileMod t (fun x => { x with sec := 0, started := 0 }) (warmRegs (tileAddr t) (swapEnds t s))
  let s := eachOf (tilePorts t) (fun n s =>
    let s := portLeaves n s
    let slots := (List.range 8).filter (fun i => (slotGet s n i).isSome)
    let begun (i : Nat) : Bool := match slotGet s n i with | some x => x.wired || x.fin.isSome | none => false
    let s := eachOf (slots.filter begun) (fun i s =>
      match slotGet s n i with
      | some x => completeTxn n i 0 (if x.fin.isSome then s else finish n i 6 0 s)
      | none => s) s
    eachOf (slots.filter (fun i => !begun i)) (fun i s => reissue n i s) s) s
  tilesFollow (filterLeaves t (fun _ _ => true) s)

/-- The whole field side leaves an L1 reset: no transaction completes, and bitstream contexts report their lost outputs (R613,
R614). -/
def fieldLeaves (s : State) : State :=
  let s := warmRegs (fun a => decide (0x100000 ≤ a)) (eachOf (List.range 6) swapEnds s)
  let s := eachOf (List.range 6) (fun t s => tileMod t (fun x => { x with sec := 0, started := 0, outbox := [] }) s) s
  let s := eachOf (List.range 48) (fun n s =>
    portLeaves n (portMod n (fun p => { p with slots := [none, none, none, none, none, none, none, none], wire := none, waiters := [] }) s)) s
  let s := eachOf (usedCtxs s) ctxEnds s
  let s := eachOf (List.range 6) (fun t s => filterLeaves t cBit s) s
  lanesTrain (tilesFollow s)

/-- Every start of the host side: the boot count, the accepted counters at their bounds, and an unconfirmed image given up (R525,
R650, R666). -/
def hostStart (cold : Bool) (s : State) : State :=
  let s := if s.nv.trial then { s with nv := { s.nv with active := !s.nv.active, trial := false } } else s
  let s := nvPulse s.nv 50000 { s with nv := { s.nv with bootcnt := s.nv.bootcnt + 1 } }
  let s := eachOf [0, 1, 2, 3] (fun p s => partMod p (fun u => { u with lastCtr := nvBound s p }) s) s
  if cold then setFld R.GLB_BOOTSTAT F.GLB_BOOTSTAT_STAGE 0 { s with boot := { s.boot with fused := false } } else s

/-- Host wake requests that were dropped while the host side was Off are counted as it is next in Run (R707). -/
def addDrops (s : State) : State :=
  if s.pow.wkdrop = 0 then s
  else evt R.PWR_EVT F.PWR_EVT_WKDROP (cntAdd R.PWR_CNT_WKDROP s.pow.wkdrop { s with pow := { s.pow with wkdrop := 0 } })

/-- HB leaves a warm reset. -/
def hbLeaves (s : State) : State := lanesTrain (hostStart false (warmRegs hbAddr s))

/-- A side leaves a cold reset (R298, R659, R660). -/
def coldLeaves (x : Side) (s : State) : State :=
  match x with
  | .host => addDrops (hostStart true s)
  | .field => lanesTrain (setFld R.GLB_BOOTSTAT F.GLB_BOOTSTAT_FSIDE 1 s)

/-- FH leaves an L2 reset; the context whose entry was damaged becomes FREE (R615). What the tiles hold for it reaches it (R67, R612). -/
def fhLeaves (s : State) : State := eachOf (List.range 6) drainBox (lanesTrain (warmRegs fhAddr s))

/-- A unit leaves an L3 reset. -/
def unitLeaves (r : Reach) (s : State) : State :=
  match r with
  | .port n => portLeaves n.val (warmRegs (fun a => portOf a == some n.val) s)
  | .filter t => filterLeaves t.val (fun _ _ => true) (warmRegs (fun a => (blockAt a).kind == .filt && tileOf a == some t.val) (swapEnds t.val s))
  | .lanes x => lanesTrain (if x = .host then showUnack (warmRegs (fun a => (blockAt a).kind == .cl) s) else s)
  | _ => s

/-- A die is reached by the episode at a level no wider than `lv`. -/
def dieWithin (e : Episode) (d : Die) (lv : Nat) : Bool := e.srcs.any (fun c => decide (c.level ≤ lv) && (wholeDies c.reach).contains d)

/-- An episode's release sequence runs: each side, die and unit leaves by the widest level that reaches it (R612, R631), and the
fault log takes its entry (R664). (DEDUCED, notes/assumptions/10.md.) -/
def releaseEpisode (e : Episode) (s : State) : State :=
  let cold (x : Side) : Bool := e.srcs.any (fun c => c.startsCold x)
  let fieldAll := e.srcs.any (fun c => decide (c.level ≤ 1) && (wholeDies c.reach).contains .fh)
  let s := resetFollow { s with boot := { s.boot with episodes := s.boot.episodes.filter (· != e) } }
  let s :=
    if cold .field then coldLeaves .field s
    else if fieldAll then fieldLeaves s
    else
      let s := if dieWithin e .fh 2 then fhLeaves s else s
      eachOf ((List.finRange 6).filter (fun t => dieWithin e (.tile t) 2)) (fun t s => tileLeaves t.val s) s
  let s := if cold .host then coldLeaves .host s else if dieWithin e .hb 2 then hbLeaves s else s
  let s := eachOf (e.srcs.filter (fun c => (wholeDies c.reach).isEmpty && !(reachDies c.reach).any (fun d => dieWithin e d 2)))
    (fun c s => unitLeaves c.reach s) s
  let s := eachOf (e.srcs.filter (fun c => c.no == 13 && !c.cold && decide (c.level ≤ 2))) (fun c s => endCtx c.detail true s) s
  flogEpisode e s

/-- The oldest episode all of whose sources have released. -/
def releasable (s : State) : Option Episode := s.boot.episodes.find? (fun e => e.srcs.all (fun c => !c.on))

/-- The last source of an episode has released, and its dies leave reset. -/
def resetRelease (s : State) : State :=
  match releasable s with
  | some e => releaseEpisode e s
  | none => s

-- ---------------------------------------------------------------- damaged configuration and timebases (R615, R616)

/-- Each damaged word takes its Cold value, and the contexts that name a damaged template, rule or filter slot stop (R615). -/
def damage (words : List Word) (s : State) : State :=
  let hits (s : State) (k : Nat) (a : Nat) : Bool :=
    match (blockAt a).kind with
    | .tpl => !cBit s k && cTpl s k == (a - 0x220000) / 0x80
    | .sv =>
      let r := (a - 0x248000) / 0x20
      decide (0x248000 ≤ a) && decide (cRbase s k ≤ r) && decide (r < cRbase s k + cRcnt s k)
    | .filt =>
      let f := (a % 0x10000 - 0x4100) / 0x20
      cFen s k && some (cPort s k / 8) == tileOf a && decide (0x4100 ≤ a % 0x10000) && decide (a % 0x10000 < 0x4300) &&
        decide (cSlot s k ≤ f) && decide (f < cSlot s k + cVals s k)
    | _ => false
  let ks := (usedCtxs s).filter (fun k => decide (cState s k ≥ stRunning) && words.any (fun a => hits s k a.toNat))
  let s := eachOf words (fun a s => setReg a.toNat (regCold a.toNat) s) s
  eachOf ks (fun k s => if cState s k == stRunning then stopCtx k s else s) s

/-- The first context that damaged words affect, for RST_LAST.DETAIL. -/
def firstDamaged (words : List Word) (s : State) : Nat :=
  ((List.range 512).find? (fun k => cState s k == stRunning && cState (damage words s) k == stStopped)).getD 0

/-- The master timebase restarts from field time, or from zero where no lane is in service (R311, R319, R616). (DEDUCED, notes/assumptions/21.md.) -/
def masterRestart (s : State) : State :=
  let up := anyLane s
  let s := { s with tm := { s.tm with fromField := true, last := none, step := [] } }
  if up then enterHoldover s
  else setFld R.TB_STAT F.TB_STAT_STATE 0 { s with tm := { s.tm with master := 0 } }

end Sys2Proof.Machine
end

