-- ==== Sys2Proof/Machine/Image.lean ====
section
/-! DEFINITION. The Ocvas image: its checks in pass 1, what pass 2 applies, the load from flash or from a partner, and the start of
the loaded contexts (R639 to R662, R709). -/

namespace Sys2Proof.Machine

-- ---------------------------------------------------------------- the image as bytes (R639 to R641)

/-- One entry of the section table (R640). -/
structure Sect where
  kind : Nat
  zero : Nat
  off : Nat
  len : Nat
  crc : Nat
  deriving DecidableEq, Repr

/-- n bytes at an offset of an image. -/
def imgBytes (b : List Byte) (off n : Nat) : List Byte := (b.drop off).take n

/-- A little-endian number of n bytes at an offset. -/
def imgNum (b : List Byte) (off n : Nat) : Nat := leNat (imgBytes b off n)

def imgTotal (b : List Byte) : Nat := imgNum b 12 4
def imgSeq (b : List Byte) : Nat := imgNum b 16 4
def imgVersion (b : List Byte) : Nat := imgNum b 20 4
def imgNsect (b : List Byte) : Nat := imgNum b 24 2
def imgSigned (b : List Byte) : Bool := bitOf (imgNum b 26 2) 0

/-- The i-th entry of the section table. -/
def imgSect (b : List Byte) (i : Nat) : Sect :=
  let o := 256 + 16 * i
  { kind := imgNum b o 2, zero := imgNum b (o + 2) 2, off := imgNum b (o + 4) 4, len := imgNum b (o + 8) 4, crc := imgNum b (o + 12) 4 }

def imgSects (b : List Byte) : List Sect := (List.range (imgNsect b)).map (imgSect b)

/-- The bytes of a section. -/
def sectBytes (b : List Byte) (x : Sect) : List Byte := imgBytes b x.off x.len

/-- The bytes of the section of a kind, none where it is missing. -/
def sectOf (b : List Byte) (kind : Nat) : List Byte :=
  match (imgSects b).find? (fun x => x.kind == kind) with
  | some x => sectBytes b x
  | none => []

/-- The little-endian words of bytes. -/
def wordsIn4 (l : List Byte) : List Word := bytesWords (l.length / 4) l

def kFIRMWARE : Nat := 1
def kHOSTREG : Nat := 2
def kFIELDREG : Nat := 3
def kCONTEXTS : Nat := 4
def kSCHEDULE : Nat := 5
def kSUBS : Nat := 6
def kSIGNATURE : Nat := 0xFF

-- ---------------------------------------------------------------- the power schedule (R676, R709)

/-- The coding of FREQ or HREQ. -/
def reqBad (x : Nat) : Bool := !(x == 0 || x == 2 || x == 3 || x == 4 || x == 15)

/-- Payload word 0 of a POWER request breaks R676 or R677. -/
def powerBad (w : Nat) : Bool :=
  let f := bitsOf w 3 0
  let h := bitsOf w 7 4
  let deep := f == 3 || f == 4
  reqBad f || reqBad h || decide (w / 2 ^ 22 ≠ 0) || bitsOf w 15 10 != 0 ||
  ((bitOf w 8 || bitOf w 9) && !deep) || (bitsOf w 21 16 != 0 && f != 15)

def schedEntry (l : List Byte) : SchedE := { req := wordOf (imgNum l 0 4), period := imgNum l 4 4, start := imgNum l 8 8 }

def schedOf (l : List Byte) : List SchedE := (chunksOf 16 l.length l).map schedEntry

/-- The structure of a SCHEDULE section (R709). -/
def schedBad (l : List Byte) : Bool :=
  l.length % 16 != 0 || outside (l.length / 16) 1 16 ||
  (schedOf l).any (fun e => powerBad e.req.toNat || decide (e.req.toNat / 2 ^ 10 ≠ 0))

-- ---------------------------------------------------------------- pass 1 (R642 to R644)

/-- The blocks whose registers a HOSTREG pair may name (R641). -/
def hostRegAddr (a : Nat) : Bool :=
  match (blockAt a).kind with
  | .glb | .pp | .sec | .pwr | .tb | .cl => true
  | _ => false

/-- The addresses of a FIELDREG pair (R641). -/
def fieldRegAddr (a : Nat) : Bool := decide (0x100000 ≤ a) && decide (a ≤ 0x25FFFF) && (blockAt a).kind != .ctx

/-- The address and value pairs of a register section. -/
def pairsOf (l : List Byte) : List (Nat × Word) :=
  (chunksOf 8 l.length l).map (fun x => (imgNum x 0 4, wordOf (imgNum x 4 4)))

/-- The structure of a section breaks R641. -/
def structBad (signed : Bool) (total : Nat) (x : Sect) (l : List Byte) : Bool :=
  match x.kind with
  | 1 => false
  | 2 => l.length % 8 != 0 || (pairsOf l).any (fun p => p.1 % 4 != 0 || !hostRegAddr p.1)
  | 3 => l.length % 8 != 0 || (pairsOf l).any (fun p => p.1 % 4 != 0 || !fieldRegAddr p.1)
  | 4 => l.length % 68 != 0 || (chunksOf 68 l.length l).any (fun e => decide (imgNum e 0 4 > 511))
  | 5 => schedBad l
  | 6 => l.length % 4 != 0 || (wordsIn4 l).any (fun w => bitsOf w.toNat 31 12 != 0 || bitOf w.toNat 7)
  | 0xFF => !signed || l.length != 128 || x.off + 128 != total
  | _ => true

/-- The header and the table rules of R639 and R640, the CRCs apart. -/
def tableBad (b : List Byte) (avail : Nat) : Bool :=
  let total := imgTotal b
  let ss := imgSects b
  let mhz := imgNum b 28 1
  imgNum b 4 4 != 0x00010000 || total % 16 != 0 || decide (total > 0x4000000) || decide (total > avail) || outside (imgNsect b) 1 64 ||
  decide (imgNum b 26 2 > 1) || (mhz != 0 && outside mhz 25 100) || decide (imgNum b 29 1 > 2) || (imgBytes b 30 218).any (· != 0) ||
  ss.any (fun x => x.zero != 0 || x.off % 16 != 0 || decide (x.off < 256 + 16 * imgNsect b) || decide (x.off + x.len > total)) ||
  (ss.zip ss.tail).any (fun p => decide (p.2.kind ≤ p.1.kind)) ||
  (ss.zipIdx.any (fun p => ss.zipIdx.any (fun q => p.2 != q.2 && overlap p.1.off p.1.len q.1.off q.1.len))) ||
  !ss.any (fun x => x.kind == kFIRMWARE) || imgSigned b != ss.any (fun x => x.kind == kSIGNATURE)

/-- The fuse hash of the signing key (R626). -/
def fuseHash (s : State) : List Byte := (List.range 8).flatMap (fun i => wordBytes (fuseWord s (16 + i)))

/-- The error of R642: 0, 7, 8 or 9. -/
def signErr (s : State) (b : List Byte) : Nat :=
  if (fuseHash s).all (· == 0) then 0
  else if !imgSigned b then 7
  else
    let total := imgTotal b
    let g := imgBytes b (total - 128) 128
    if sha256 (g.take 64) != fuseHash s then 8
    else if ecdsaVerify (beNat (g.take 32)) (beNat (imgBytes g 32 32)) (beNat (imgBytes g 64 32)) (beNat (imgBytes g 96 32))
      (sha256 (b.take (total - 128))) then 0 else 9

/-- Pass 1 over the bytes of a slot or of a partner's load, `avail` of them in all: the error code of GLB_BOOTSTAT.ERR and the
section index (R644, R665). (DEDUCED, notes/assumptions/12.md.) -/
def passOne (s : State) (b : List Byte) (avail : Nat) : Nat × Nat :=
  let ss := imgSects b
  if imgBytes b 0 4 != [0x4F, 0x43, 0x56, 0x53] then (2, 0)
  else if imgNum b 8 4 != 0x4C594808 then (4, 0)
  else if (crc32c (imgBytes b 0 252)).toNat != imgNum b 252 4 ||
      (crc32c (imgBytes b 256 (16 * min 64 (imgNsect b)))).toNat != imgNum b 248 4 then (3, 0)
  else if tableBad b avail then (5, 0)
  else
    match ss.zipIdx.find? (fun x => (crc32c (sectBytes b x.1)).toNat != x.1.crc) with
    | some x => (6, x.2)
    | none =>
      match ss.zipIdx.find? (fun x => structBad (imgSigned b) (imgTotal b) x.1 (sectBytes b x.1)) with
      | some x => (5, x.2)
      | none =>
        let e := signErr s b
        if e != 0 then (e, 0) else if imgSeq b < s.nv.minSeq then (0x0C, 0) else (0, 0)

/-- The slot of flash holds an image; slot B exists only above 64 MiB (R638, R653). -/
def slotBase (b : Bool) : Nat := if b then 0x4000000 else 0
def slotExists (s : State) (b : Bool) : Bool := if b then decide (s.boot.flashBytes > 0x4000000) else decide (s.boot.flashBytes > 0)
def slotAvail (s : State) (b : Bool) : Nat := min 0x4000000 (s.boot.flashBytes - slotBase b)

/-- The bytes of a slot, as far as its header says, or the header alone where it says too much. -/
def slotImage (s : State) (b : Bool) : List Byte :=
  let total := leNat (flashBytesAt s (slotBase b + 12) 4)
  flashBytesAt s (slotBase b) (if total ≤ slotAvail s b then max total 1280 else 1280)

def passSlot (s : State) (b : Bool) : Nat × Nat := if slotExists s b then passOne s (slotImage s b) (slotAvail s b) else (1, 0)

-- ---------------------------------------------------------------- applying sections (R645, R646)

/-- Where an application stops: the section's kind, the item's index, the status. -/
abbrev LoadStop := Option (Nat × Nat × Nat)

/-- Register pairs, each one WRITE of the image (R645). A fuse word it programs takes what the fuses take. -/
def applyPairs (kind : Nat) : Nat → List (Nat × Word) → State → LoadStop × State
  | _, [], s => (none, s)
  | i, (a, v) :: rest, s =>
    let f := if a = R.SEC_OTPPROG then takeFree s else (0, s)
    let x := writeBlock none true (fun _ => false) (wordOf f.1) a [v] f.2
    if x.1 ≥ 0x10 then (some (kind, i, x.1), x.2) else applyPairs kind (i + 1) rest x.2

/-- Context entries, each a CTX ADD that stays STOPPED (R645). -/
def applyEntries : Nat → List (List Byte) → State → LoadStop × State
  | _, [], s => (none, s)
  | i, e :: rest, s =>
    let ws := wordsIn4 (e.drop 4)
    match ctxCheck s (imgNum e 0 4) actADD ws true with
    | .error st => (some (kCONTEXTS, i, st), ctxRefused st s)
    | .ok k => applyEntries (i + 1) rest (addCtx k ws s)

/-- A subscription, with the refusals of R544. -/
def subCheck (s : State) (q p : Nat) : Nat :=
  if !qEn s q then stRANGE else if qSub s q p then stCONFLICT else stOK

/-- The words of a SUBS section. -/
def applySubs : Nat → List Word → State → LoadStop × State
  | _, [], s => (none, s)
  | i, w :: rest, s =>
    let q := bitsOf w.toNat 6 0
    let ps := (List.range 4).filter (fun p => bitOf w.toNat (8 + p))
    match ps.find? (fun p => subCheck s q p != stOK) with
    | some p => (some (kSUBS, i, subCheck s q p), s)
    | none => applySubs (i + 1) rest (eachOf ps (fun p s => subAdd q p s) s)

/-- A section that the field side takes. -/
def applyField (b : List Byte) (s : State) : LoadStop × State :=
  let x := applyPairs kFIELDREG 0 (pairsOf (sectOf b kFIELDREG)) s
  if x.1.isSome then x
  else
    let e := sectOf b kCONTEXTS
    let y := applyEntries 0 (chunksOf 68 e.length e) x.2
    if y.1.isSome then y else applySubs 0 (wordsIn4 (sectOf b kSUBS)) y.2

/-- A refused item stops the load (R646). -/
def loadStops (b : List Byte) (x : Nat × Nat × Nat) (s : State) : State :=
  let sect := ((imgSects b).zipIdx.find? (fun y => y.1.kind == x.1)).map (·.2)
  let s := setReg R.GLB_LOADERR (wordOf (x.2.2 * 2 ^ 24 + x.2.1 % 2 ^ 24)) s
  let s := setFld R.GLB_BOOTSTAT F.GLB_BOOTSTAT_SECT (sect.getD 0) (setFld R.GLB_BOOTSTAT F.GLB_BOOTSTAT_ERR 0x0B s)
  setFld R.GLB_BOOTSTAT F.GLB_BOOTSTAT_STAGE 8 s

/-- The loaded contexts start and the image runs (R647). -/
def loadRuns (seq : Nat) (s : State) : State :=
  let s := eachOf ((List.range 512).filter (fun k => cState s k == stStopped && flag s (R.CTX_CTL k) F.CTX_CTL_AUTOSTART)) startCtx s
  let s := setFld R.GLB_BOOTSTAT F.GLB_BOOTSTAT_FSIDE 3 (setFld R.GLB_BOOTSTAT F.GLB_BOOTSTAT_STAGE 6 s)
  { s with boot := { s.boot with fieldSeq := some seq, load := {} } }

/-- The field side's sections are applied and the device runs. -/
def fieldPart (b : List Byte) (s : State) : State :=
  let x := applyField b (setFld R.GLB_BOOTSTAT F.GLB_BOOTSTAT_FSIDE 2 s)
  match x.1 with
  | some e => loadStops b e x.2
  | none => loadRuns (imgSeq b) x.2

/-- The field side can take its part: it awaits the host out of reset and in Run, and a lane is enabled, whose training the load
waits for (R654, R660). (DEDUCED, notes/assumptions/12.md.) -/
def fieldTakes (s : State) : Bool :=
  (fld s R.GLB_BOOTSTAT F.GLB_BOOTSTAT_FSIDE == 1 || fld s R.GLB_BOOTSTAT F.GLB_BOOTSTAT_FSIDE == 2) &&
  s.pow.field.st = .run && !s.boot.inReset.contains .fh && (lnEn s 0 || lnEn s 1)

/-- Pass 2: the host's sections, then the field side's, or none of these where it is READY (R644 to R647, R661, R662). Without an
enabled lane the load waits at FIELD for R660. -/
def passTwo (b : List Byte) (s : State) : State :=
  let s := { s with boot := { s.boot with firmware := sectOf b kFIRMWARE } }
  let x := applyPairs kHOSTREG 0 (pairsOf (sectOf b kHOSTREG)) s
  match x.1 with
  | some e => loadStops b e x.2
  | none =>
    let s := { x.2 with boot := { x.2.boot with schedule := schedOf (sectOf b kSCHEDULE) } }
    if fld s R.GLB_BOOTSTAT F.GLB_BOOTSTAT_FSIDE == 3 then
      let s := setFlag R.GLB_BOOTSTAT F.GLB_BOOTSTAT_FSEQDIFF (s.boot.fieldSeq != some (imgSeq b)) s
      { setFld R.GLB_BOOTSTAT F.GLB_BOOTSTAT_STAGE 6 s with boot := { s.boot with load := {} } }
    else if fieldTakes s then fieldPart b s
    else setFld R.GLB_BOOTSTAT F.GLB_BOOTSTAT_STAGE 5 s

-- ---------------------------------------------------------------- the start of the host side (R649 to R656)

/-- The host side enters LOADWAIT with P2 enabled, or holds where partner boot is fused off (R629, R651, R655). (DEDUCED, notes/assumptions/12.md.) -/
def loadWait (s : State) : State :=
  if fuseBit s 2 then { s with boot := { s.boot with hostHeld := true } }
  else
    let s := setFlag (R.P_CTL 2) F.P_CTL_EN true (setReg (R.P_SHP_CTL 2) 0 s)
    setFld R.GLB_BOOTSTAT F.GLB_BOOTSTAT_STAGE 7 { s with boot := { s.boot with load := {}, imageFail := false } }

/-- GLB shows the error of a pass. -/
def showErr (e : Nat × Nat) (s : State) : State :=
  setFld R.GLB_BOOTSTAT F.GLB_BOOTSTAT_SECT e.2 (setFld R.GLB_BOOTSTAT F.GLB_BOOTSTAT_ERR e.1 s)

/-- GLB shows the image that passed. -/
def showImage (b : List Byte) (s : State) : State :=
  let s := setReg R.GLB_IMGSEQ (wordOf (imgSeq b)) (setReg R.GLB_IMGVER (wordOf (imgVersion b)) (showErr (0, 0) s))
  setFlag R.GLB_BOOTSTAT F.GLB_BOOTSTAT_SIGOK (!(fuseHash s).all (· == 0)) s

/-- Pass 1 at a start from flash: ACTIVE first, then the other slot, then LOADWAIT (R649, R651). (DEDUCED, notes/assumptions/12.md.) -/
def startPassOne (s : State) : State :=
  let stage := fld s R.GLB_BOOTSTAT F.GLB_BOOTSTAT_STAGE
  if !s.boot.fused || s.boot.hostHeld || s.boot.inReset.contains .hb || decide (stage > 3) then s
  else
    let a := s.nv.active
    let go (slot fb : Bool) (s : State) : State :=
      let b := slotImage s slot
      let s := setFlag R.GLB_BOOTSTAT F.GLB_BOOTSTAT_SRC false (setFlag R.GLB_BOOTSTAT F.GLB_BOOTSTAT_SLOT slot (showImage b s))
      let s := setFld R.GLB_BOOTSTAT F.GLB_BOOTSTAT_STAGE 4 (setFlag R.GLB_BOOTSTAT F.GLB_BOOTSTAT_FALLBACK fb s)
      { s with boot := { s.boot with load := { pass1 := some (sha256 b) } } }
    if (passSlot s a).1 = 0 then go a false s
    else if slotExists s (!a) && (passSlot s (!a)).1 = 0 then go (!a) true s
    else loadWait (showErr (passSlot s a) s)

/-- A pass 2 digest differs: IMAGE starts the device cold and sends the host side to LOADWAIT (R618, R651). (DEDUCED, notes/assumptions/12.md.) -/
def imageFails (s : State) : State :=
  let s := assertSrc { no := 27, level := 0, reach := .device, on := false, detail := 0, cold := true } (showErr (0x0A, 0) s)
  { s with boot := { s.boot with imageFail := true } }

/-- Pass 2 at a start from flash (R644). (DEDUCED, notes/assumptions/12.md.) -/
def startPassTwo (s : State) : State :=
  if fld s R.GLB_BOOTSTAT F.GLB_BOOTSTAT_STAGE != 4 || s.boot.inReset.contains .hb then s
  else
    let b := slotImage s (flag s R.GLB_BOOTSTAT F.GLB_BOOTSTAT_SLOT)
    if s.boot.load.pass1 == some (sha256 b) then passTwo b s else imageFails s

/-- The field side is loaded once a lane is in service: the load that waits at FIELD, or the ACTIVE image for a field side that
started cold (R660). (DEDUCED, notes/assumptions/12.md.) -/
def loadField (s : State) : State :=
  let stage := fld s R.GLB_BOOTSTAT F.GLB_BOOTSTAT_STAGE
  if !anyLane s || !fieldTakes s || !(stage == 5 || stage == 6) || s.boot.inReset.contains .hb then s
  else if stage == 5 && flag s R.GLB_BOOTSTAT F.GLB_BOOTSTAT_SRC then fieldPart s.boot.load.bytes s
  else
    let slot := if stage == 5 then flag s R.GLB_BOOTSTAT F.GLB_BOOTSTAT_SLOT else s.nv.active
    let e := passSlot s slot
    if e.1 = 0 then fieldPart (slotImage s slot) s else showErr e s

-- ---------------------------------------------------------------- the partner's load (R656, R657)

/-- LOADSTAT shows the pass. -/
def showLoad (pass : Bool) (s : State) : State :=
  setFld R.GLB_LOADSTAT F.GLB_LOADSTAT_BYTES s.boot.load.bytes.length (setFlag R.GLB_LOADSTAT F.GLB_LOADSTAT_PASS pass s)

/-- The first n words of the load window. -/
def windowBytes (s : State) (n : Nat) : List Byte := (List.range n).flatMap (fun i => wordBytes (tabGet (fun _ => 0) s.boot.load.window i))

/-- A pass ends (R656): pass 1 is checked; pass 2 is compared and applied. (DEDUCED, notes/assumptions/12.md.) -/
def loadPassEnds (s : State) : State :=
  let l := s.boot.load
  let pass2 := flag s R.GLB_LOADSTAT F.GLB_LOADSTAT_PASS
  let s := { s with boot := { s.boot with load := { l with inPass := false } } }
  if pass2 then
    if l.pass1 == some (sha256 l.bytes) then passTwo l.bytes (setFld R.GLB_BOOTSTAT F.GLB_BOOTSTAT_STAGE 4 s) else imageFails s
  else
    let e := passOne s l.bytes l.bytes.length
    if e.1 = 0 then
      let s := setFlag R.GLB_BOOTSTAT F.GLB_BOOTSTAT_SRC true (showImage l.bytes s)
      { s with boot := { s.boot with load := { s.boot.load with pass1 := some (sha256 l.bytes), partner := true } } }
    else { showErr e s with boot := { s.boot with load := {} } }

/-- GLB_LOADCTL is written in LOADWAIT (R656, R665): the status and the state. (DEDUCED, notes/assumptions/12.md.) -/
def loadCtl (v : Word) (s : State) : Nat × State :=
  let l := s.boot.load
  let pass := getFld v F.GLB_LOADCTL_PASS == 1
  let n := getFld v F.GLB_LOADCTL_WORDS
  match getFld v F.GLB_LOADCTL_OP with
  | 0 => (stOK, s)
  | 1 =>
    if pass && l.pass1.isNone then (stRANGE, s)
    else
      let l' : LoadS := { l with bytes := [], inPass := true, partner := true, pass1 := if pass then l.pass1 else none }
      (stOK, showLoad pass { s with boot := { s.boot with load := l' } })
  | 2 =>
    if !l.inPass || outside n 1 8192 then (stRANGE, s)
    else
      let s' := { s with boot := { s.boot with load := { l with bytes := l.bytes ++ windowBytes s n } } }
      (stOK, showLoad (flag s R.GLB_LOADSTAT F.GLB_LOADSTAT_PASS) s')
  | _ => if l.inPass then (stOK, loadPassEnds s) else (stRANGE, s)

/-- A word of the load window is written. -/
def windowWord (a : Nat) (v : Word) (s : State) : State :=
  { s with boot := { s.boot with load := { s.boot.load with window := tabSet (fun _ => (0 : Word)) s.boot.load.window ((a - 0x8000) / 4) v } } }

/-- The words of a LOADWAIT WRITE take effect in order, as long as none is refused. -/
def loadWords : List (Nat × Word) → State → Nat × State
  | [], s => (stOK, s)
  | (a, v) :: rest, s =>
    if 0x8000 ≤ a then loadWords rest (windowWord a v s)
    else
      let x := loadCtl v s
      if x.1 ≥ 0x10 then x else loadWords rest x.2

end Sys2Proof.Machine
end

