-- ==== Sys2Proof/Machine/Power.lean ====
section
/-! DEFINITION. Power states: the POWER request, entries and their abort points, wakes and what they restore, tile sleep, the
power schedule, the always-on clock and the sentinels in Sleep (R360, R362, R450 to R453, R598, R622, R667 to R710). -/

namespace Sys2Proof.Machine

-- ---------------------------------------------------------------- lanes that come back (R622)

/-- FH's own declaration of CLASPLOSS reaches HB over the first lane that enters SERVICE (R622). (DEDUCED, notes/assumptions/39.md.) -/
def fhReports (s : State) : State :=
  if s.cl.fhReport then
    let e : Episode := { srcs := [{ no := 21, level := 3, reach := .lanes .field, on := false, detail := 1 }], began := s.cl.fhAt }
    flogEpisode e (showEpisode e { s with cl := { s.cl with fhReport := false } })
  else s

/-- Lane x enters SERVICE, with what FH has waiting for it. -/
def laneIn (x : Nat) (s : State) : State := fhReports (laneEnters x s)

-- ---------------------------------------------------------------- the POWER request (R676 to R678)

/-- A state code of R676; none is no change. -/
def reqState (c : Nat) : Option PowState :=
  match c with
  | 0 => some .run
  | 2 => some .sleep
  | 3 => some .deep
  | 4 => some .off
  | _ => none

def pwFreq (w : Word) : Nat := bitsOf w.toNat 3 0
def pwHreq (w : Word) : Nat := bitsOf w.toNat 7 4
def pwQret (w : Word) : Bool := bitOf w.toNat 8
def pwDiscard (w : Word) : Bool := bitOf w.toNat 9
def pwTsleep (w : Word) : Nat := bitsOf w.toNat 21 16

/-- A field DEEP or OFF is asked for. -/
def losesField (w : Word) : Bool := pwFreq w == 3 || pwFreq w == 4

/-- A POWER word is coded otherwise than R676 allows. -/
def powerRange (w : Word) : Bool :=
  let ok (c : Nat) : Bool := c == 15 || (reqState c).isSome
  !ok (pwFreq w) || !ok (pwHreq w) || w.toNat != pwFreq w + pwHreq w * 16 + b2n (pwQret w) * 2 ^ 8 + b2n (pwDiscard w) * 2 ^ 9 + pwTsleep w * 2 ^ 16 ||
  ((pwQret w || pwDiscard w) && !losesField w) || (pwTsleep w != 0 && pwFreq w != 15)

/-- Deep sleep or Off of either side: the request has to be critical (R672, R677). -/
def powerCrit (w : Word) : Bool := losesField w || pwHreq w == 3 || pwHreq w == 4

/-- Records that wait in enabled queues. -/
def undelivered (s : State) : Bool := allQueues.any (fun q => qEn s q && qFill s q != 0)

/-- The refusals of a POWER request after those of R516, in the order of R677. -/
def powerRefused (s : State) (w : Word) : Option Nat :=
  let moves (x : Side) : Bool := (sideGet s x).st = .entering || (sideGet s x).st = .waking
  if powerRange w then some stRANGE
  else if (pwFreq w != 15 && moves .field) || (pwHreq w != 15 && moves .host) then some stBUSY
  else if pwFreq w != 15 && fieldAway s then some stLINK_DOWN
  else if losesField w && !pwQret w && !pwDiscard w && undelivered s then some stCONFLICT
  else none

/-- A side passes AP0 on its way to a state (R679). -/
def startEntry (x : Side) (target : PowState) (qret : Bool) (s : State) : State :=
  let s := sideMod x (fun d => { d with st := .entering, target := target, ap := 0, qret := qret, apAt := s.elapsed }) s
  if x = .field then seeField s else s

/-- The tiles that a word puts to sleep anew (R672). (DEDUCED, notes/assumptions/37.md.) -/
def newTiles (s : State) (w : Word) : List TileNo :=
  (List.finRange 6).filter (fun t => bitOf (pwTsleep w) t.val && !s.pow.cmdSleep.contains t)

/-- A side takes the state that a request names. -/
def sideRequest (x : Side) (target : Option PowState) (qret : Bool) (s : State) : State :=
  match target with
  | none => s
  | some .run =>
    if x = .field then startWake .field 0x0C (tilesFollow { s with pow := { s.pow with cmdSleep := [] } }) else s
  | some t => if (sideGet s x).st = .run then startEntry x t qret s else s

/-- Whether the request changes a state. -/
def powerChanges (s : State) (w : Word) : Bool :=
  let f := match reqState (pwFreq w) with
    | none => false
    | some .run => s.pow.field.st != .run || !s.pow.cmdSleep.isEmpty
    | some t => s.pow.field.st != t
  let h := match reqState (pwHreq w) with
    | none => false
    | some t => s.pow.host.st != t
  f || h || !(newTiles s w).isEmpty

/-- A request for another sleep state of a field side that sleeps wakes it first (R691). (DEDUCED, notes/assumptions/35.md.) -/
def powerStalls (s : State) (w : Word) : Bool :=
  match reqState (pwFreq w) with
  | some .run | none => false
  | some t => (s.pow.field.st = .sleep || s.pow.field.st = .deep) && s.pow.field.st != t

/-- The response word: FPWR and HPWR as they stand at AP0 (R678). -/
def powerWordNow (s : State) : Word := wordOf (hpwr s * 16 + fpwr s)

/-- A POWER request that is not refused acts (R678): the field side first. -/
def powerActs (w : Word) (s : State) : State :=
  let s := match newTiles s w with
    | [] => s
    | ts => tilesFollow { s with pow := { s.pow with cmdSleep := s.pow.cmdSleep ++ ts } }
  sideRequest .host (reqState (pwHreq w)) false (sideRequest .field (reqState (pwFreq w)) (pwQret w) s)

-- ---------------------------------------------------------------- the abort points (R679 to R682)

/-- A side is on its way to a state, past abort point i. -/
def atAp (s : State) (x : Side) (i : Nat) : Bool := (sideGet s x).st = .entering && (sideGet s x).ap == i

/-- Sieve has done its work: no sample waits for an engine, no block for a unit and no judgement for a block. (DEDUCED, notes/assumptions/37.md.) -/
def sieveDone (s : State) : Bool :=
  s.sv.spu.all (fun e => e.2.isEmpty) && s.sv.ctxs.all (fun e => e.2.waiting.isEmpty && e.2.held.isNone) && s.sv.pulses.isEmpty

/-- Work in flight has completed: no slot of the field side holds a transaction, no record is on its way and Sieve has done its work;
every response has left the host side (R679). (DEDUCED, notes/assumptions/37.md.) -/
def workDone (s : State) (x : Side) : Bool :=
  match x with
  | .field => s.tr.path.isEmpty && sieveDone s && (List.range 48).all (fun n => (portGet s n).slots.all Option.isNone)
  | .host => (List.range 4).all (fun p => (partGet s p).resp.isEmpty && (partGet s p).outst.isEmpty)

def deepOrOff (t : PowState) : Bool := t = .deep || t = .off

/-- AP1: new work is gated and work in flight has completed; a host entry into Deep sleep or Off ends an open Graft (R740). (DEDUCED, notes/assumptions/37.md.) -/
def passAp1 (x : Side) (s : State) : State :=
  if atAp s x 0 && workDone s x then
    let s := sideMod x (fun d => { d with ap := 1 }) s
    let s := if x = .field then eachOf (List.range 48) bitsStop s else s
    if x = .host && deepOrOff s.pow.host.target then graftEnds 5 stINTERNAL s else s
  else s

/-- The limit of AP1 expires: the entry unwinds and counts at AP0 (R681). -/
def drainEnds (x : Side) (s : State) : State :=
  if atAp s x 0 then unwind x (toElapsed ((sideGet s x).apAt + 100000 * fld s R.PWR_CFG F.PWR_CFG_DRAIN) s) else s

/-- The address belongs to a side's registers. (DEDUCED, notes/assumptions/13.md.) -/
def sideAddr (x : Side) (a : Nat) : Bool := if x = .host then decide (a < 0x100000) else decide (0x100000 ≤ a)

/-- The rule state that sentinel i starts from (R451), as the Locket holds it. -/
def sentRule (s : State) (i : Nat) : Nat := cRbase s (fld s (R.SV_SENT_CTL i) F.SV_SENT_CTL_CTX) + fld s (R.SV_SENT_CTL i) F.SV_SENT_CTL_RULE

/-- AP2: register state is saved, or the sentinel states are copied (R679, R683). -/
def passAp2 (x : Side) (s : State) : State :=
  if atAp s x 1 then
    let s := sideMod x (fun d => { d with ap := 2 }) s
    if deepOrOff (sideGet s x).target then
      let saved := s.regs.filter (fun e => sideAddr x e.1)
      sideMod x (fun d => { d with saved := saved }) s
    else if x = .field then
      eachOf (List.range 8) (fun i s =>
        if flag s (R.SV_SENT_CTL i) F.SV_SENT_CTL_EN then
          setFld (R.SV_SENT_STAT i) F.SV_SENT_STAT_STATE (rState s (sentRule s i)) (sentMod i (fun _ => {}) s)
        else s) s
    else s
  else s

/-- Time passes until the always-on counter is at least c. -/
def toAoc (c : Nat) (s : State) : State :=
  if c ≤ s.tm.aoc then s else passTicks (ceilDiv ((c - s.tm.aoc) * secNs - s.tm.aocFrac) 65536) s

/-- The counter at which device time t (ns) comes, counted from the latch (R703, R710). -/
def tickAt (s : State) (t : Nat) : Nat :=
  let ratio := max 1 (reg s R.TB_AOC_RATIO).toNat
  s.tm.aoc0 + ceilDiv (t * nsU - s.tm.v0) (ratio * 2 ^ 32)

/-- The next occurrence of a schedule entry at or after second t. -/
def nextOccurrence (e : SchedE) (t : Nat) : Option Nat :=
  if t ≤ e.start then some e.start
  else if e.period = 0 then none
  else some (e.start + ceilDiv (t - e.start) e.period * e.period)

/-- An entry whose FREQ or HREQ is RUN (R710). (DEDUCED, notes/assumptions/38.md.) -/
def wakesBySchedule (e : SchedE) : Bool := pwFreq e.req == 0 || pwHreq e.req == 0

/-- The compare value that the field side loads at its entry (R710). -/
def loadCompare (s : State) : State :=
  let t := ceilDiv (fieldNs s) secNs
  let ts := (s.boot.schedule.filter wakesBySchedule).filterMap (fun e => nextOccurrence e t)
  let first := ts.foldl (fun (a : Option Nat) x => match a with | some y => some (min x y) | none => some x) none
  { s with pow := { s.pow with compare := first.map (fun x => tickAt s (x * secNs)) } }

/-- The field timebase is latched at the next tick edge of the always-on counter (R360). -/
def latchField (s : State) : State :=
  let s := toAoc (s.tm.aoc + 1) s
  loadCompare { s with tm := { s.tm with v0 := s.tm.field, aoc0 := s.tm.aoc } }

/-- Both lanes leave for a sleep of a side: to PARKED, or to OFF for Deep sleep and Off (R598). -/
def lanesSleep (deep : Bool) (s : State) : State :=
  if deep then setLane 1 lnOFF (setLane 0 lnOFF s)
  else eachOf [0, 1] (fun x s => if laneUp s x then setLane x lnPARKED s else s) s

/-- AP3: clocks stop (R360, R401, R679). -/
def passAp3 (x : Side) (s : State) : State :=
  if atAp s x 2 then
    let s := if x = .field then latchField s else eachOf [0, 1] ethDown s
    let s := sideMod x (fun d => { d with ap := 3 }) s
    tilesFollow (lanesSleep (deepOrOff (sideGet s x).target) s)
  else s

/-- The records that a field DEEP without QRET, or a field OFF, loses (R686). (DEDUCED, notes/assumptions/37.md.) -/
def lostRecords (s : State) : Nat :=
  sumNat (allQueues.map (fun q => ((queueGet s q).ents.filter (fun e => e.kind != kFill)).length)) + s.tr.held.length

/-- What the field side loses as it reaches its state is counted. (DEDUCED, notes/assumptions/37.md.) -/
def countLost (s : State) : State :=
  let d := s.pow.field
  let n := lostRecords s
  if (d.st = .off || (d.st = .deep && !d.qret)) && n != 0 then evt R.PWR_EVT F.PWR_EVT_QLOST (cntAdd R.PWR_CNT_QLOST n s) else s

/-- The first poll of each enabled sentinel (R703). -/
def armSentinels (s : State) : State :=
  eachOf (List.range 8) (fun i s =>
    if flag s (R.SV_SENT_CTL i) F.SV_SENT_CTL_EN then
      let k := fld s (R.SV_SENT_CTL i) F.SV_SENT_CTL_CTX
      let ticks := (s.tm.aoc + 2 ^ 48 - s.tm.aoc0) % 2 ^ 48
      let now := (s.tm.v0 + ticks * (reg s R.TB_AOC_RATIO).toNat * 2 ^ 32) / nsU
      sentMod i (fun u => { u with next := tickAt s (nominalAt s k (now + 1)) }) s
    else s) s

/-- Every output ball of a side latches its level (R697). -/
def holdBanks (x : Side) (s : State) : State :=
  { s with pow := { s.pow with held := s.pow.held ++ (allBanks.filter (fun b => bankSide b = x && !s.pow.held.contains b)) } }

/-- AP4: the side has reached its state (R679, R697). -/
def passAp4 (x : Side) (s : State) : State :=
  if atAp s x 3 then
    let t := (sideGet s x).target
    let s := sideMod x (fun d => { d with st := t, ap := 0, src := 0 }) s
    let s := if deepOrOff t then holdBanks x s else s
    if x = .field then seeField (countLost (if t = .sleep then armSentinels s else s)) else s
  else s

-- ---------------------------------------------------------------- wakes (R360, R362, R686, R692, R693)

/-- PWR_LASTWAKE and the time of the wake (R687, R692, R711). -/
def noteWake (x : Side) (deep : Bool) (src : Nat) (s : State) : State :=
  let t := if fieldRuns s then fieldNs s else masterNs s
  let s := setReg R.PWR_LASTWAKE (wordOf (b2n deep * 2 ^ 10 + b2n (decide (x = .host)) * 2 ^ 9 + b2n (decide (x = .field)) * 2 ^ 8 + src)) s
  setReg R.PWR_LWNS (wordOf (tNs t)) { s with pow := { s.pow with lwSec := tSecLo t } }

/-- Host registers that the reset and power controllers and the field side's reports keep, apart from the save area. (DEDUCED, notes/assumptions/13.md.) -/
def reportAddr (a : Nat) : Bool :=
  [R.TB_STAT, R.TB_EVT, R.CL_STAT, R.CL_EVT, R.GLB_BOOTSTAT].contains a || (decide (0x30000 ≤ a) && decide (a < 0x40000))

/-- The registers of a side that wakes from Deep sleep: held fields as they stood at AP2, the others at their Warm values
(R686). (DEDUCED, notes/assumptions/13.md.) -/
def restoreRegs (x : Side) (s : State) : State :=
  let mine (a : Nat) : Bool := sideAddr x a && !reportAddr a
  let now := s.regs.filter (fun e => mine e.1)
  let s := eachOf now (fun e s => setReg e.1 (regCold e.1) s) s
  let saved := (sideGet s x).saved.filter (fun e => mine e.1)
  let s := eachOf saved (fun e s => setReg e.1 (warmWord e.1 e.2) s) s
  sideMod x (fun d => { d with saved := [] }) s

/-- The snapshot pool and the spectral workspace are lost: a collecting snapshot ends unwritten, and no sample of before is in a later
snapshot or block; the windows of the rules go on (R671). (DEDUCED, notes/assumptions/38.md.) -/
def poolLost (k : Nat) (s : State) : State :=
  setFlag (R.SV_CX_STAT k) F.SV_CX_STAT_SNBUSY false
    (svMod k (fun c => { c with hist := c.hist.map (fun x => { x with pool := false }), snap := none }) s)

/-- What a field side loses in Deep sleep: every array that R671 does not name, and queue memory with QRET = 0 (R686). (DEDUCED, notes/assumptions/38.md.) -/
def deepLosses (qret : Bool) (s : State) : State :=
  let s := { s with tr := { s.tr with openRecs := [] } }
  let s := eachOf (List.range 48) (fun n s =>
    if portBit s n then setFlag (R.FP_STAT n) F.FP_STAT_CLKOK false (portMod n (fun p => { p with blk := false }) s) else s) s
  if qret then s
  else
    let s := eachOf ((List.range 512).filter (fun k => flag s (R.SV_CX_STAT k) F.SV_CX_STAT_ASSIGNED)) poolLost s
    let qs := allQueues.filter (qEn s)
    eachOf qs queueStart (clearQmem s)

/-- The field timebase resumes: with master time while that runs and a lane can bring it, else from the counter (R312, R360,
R362). -/
def fieldClock (s : State) : State :=
  let ticks := (s.tm.aoc + 2 ^ 48 - s.tm.aoc0) % 2 ^ 48
  let slept := ticks * (reg s R.TB_AOC_RATIO).toNat / 2 ^ 16
  let s := if masterRuns s && (lnEn s 0 || lnEn s 1) then { s with tm := { s.tm with field := s.tm.master } } else fieldTimeResume s
  let s := setReg R.TB_LASTSLP (wordOf (slept / 1000000)) s
  if fState s == 0 then s else enterFhold s

/-- After the GAP record of R693, the samples a sentinel kept are written (R706), and the actions of a rise are performed
(R452). -/
def sentinelEnds (i : Nat) (s : State) : State :=
  let u := sentGet s i
  let k := fld s (R.SV_SENT_CTL i) F.SV_SENT_CTL_CTX
  let r := sentRule s i
  let s := eachOf u.kept (fun x s => ctxMod k (fun c => { c with nextSample := (x.seq + 1) % 2 ^ 16 }) (addSample k x s)) s
  let s := match u.rose with
    | some (v, x) =>
      let y : SvSample := { seq := x.seq, ts := x.ts, flags := x.flags, vals := x.vals, taint := hasFl x.flags flCorrupt }
      svMod k (fun c => { c with hist := [], n := 0, epoch := c.epoch + 1, bands := [] }) (riseActs k r false false v y s)
    | none => s
  sentMod i (fun _ => {}) s

/-- The first kept sample numbers the GAP record that precedes it (R491, R693). -/
def sentinelNumbers (s : State) : State :=
  eachOf (List.range 8) (fun i s =>
    match (sentGet s i).kept with
    | x :: _ => ctxMod (fld s (R.SV_SENT_CTL i) F.SV_SENT_CTL_CTX) (fun c => { c with nextSample := x.seq }) s
    | [] => s) s

/-- The field side has reached Run: its time, its engines, its schedules and its sentinels (R360, R401, R693, R706). (DEDUCED, notes/assumptions/38.md.) -/
def fieldAwake (deep : Bool) (s : State) : State :=
  let s := fieldClock s
  let s := { s with pow := { s.pow with compare := none } }
  let s := eachOf (List.range 6) (fun t s => filterLeaves t cBit s) s
  let s := sentinelNumbers s
  let s := if fState s == 0 then s else resumeSchedules (fieldNs s) (haltSchedules s)
  let s := if deep then s else eachOf (List.range 8) sentinelEnds s
  if s.pow.fieldSeen.isSome && anyLane s then seeField (tilesFollow s) else tilesFollow s

/-- The host side has reached Run: its time follows the field side's, and what waited for it acts (R311, R319, R362, R690,
R707). (DEDUCED, notes/assumptions/14.md.) -/
def hostAwake (deep : Bool) (s : State) : State :=
  let known := fState s != 0
  let away := s.pow.field.st = .off || s.pow.field.st = .wakefail
  let s := { s with tm := { s.tm with fromField := known, last := none, firstSinceWake := true } }
  let s := if deep && away then
      let f := takeFree s
      { f.2 with tm := { f.2.tm with master := f.1 % 2 ^ 160 } }
    else s
  addDrops (serveHostReqs (startWake .field 0x0D (enterHoldover s)))

/-- A wake from Deep sleep whose restore fails starts the side cold (R685). -/
def restoreFails (x : Side) (s : State) : State :=
  let no := if x = .field then 14 else 15
  let s := sideMod x (fun d => { d with st := .run, saved := [] }) s
  assertSrc { no := no, level := 1, reach := .side x, on := false, detail := 0, cold := true } s

/-- A wake of side x completes (R692). (DEDUCED, notes/assumptions/13.md.) -/
def wakeDone (x : Side) (saveDbe : Bool) (s : State) : State :=
  let d := sideGet s x
  if d.st != .waking then s
  else
    let deep := d.from_ = .deep
    if deep && saveDbe then restoreFails x s
    else
      let s := if deep then restoreRegs x s else s
      let s := if deep && x = .field then deepLosses d.qret s else s
      let s := sideMod x (fun d => { d with st := .run, onRc := true, oscRetry := false, regRetry := false }) s
      let s := setFlag R.TB_STAT (oscFld x) true (lanesRestart s)
      let s := if x = .field then fieldAwake deep s else hostAwake deep s
      releaseAtRun x (noteWake x deep d.src s)

/-- The side's oscillator has passed its checks: the clocks move to it (R692). -/
def oscReady (x : Side) (s : State) : State :=
  if (sideGet s x).onRc && flag s R.TB_STAT (oscFld x) then
    setFlag R.TB_STAT (oscFld x) false (sideMod x (fun d => { d with onRc := false }) s)
  else sideMod x (fun d => { d with onRc := false }) s

/-- A wake pin has been low for 1 µs (R688); a side in Off starts cold (R701). -/
def wakeByPin (x : Side) (s : State) : State :=
  let src := if x = .host then 1 else 2
  if (sideGet s x).st = .off then
    let s := assertSrc { no := if x = .host then 0 else 3, level := 0, reach := .side x, on := false, detail := 0, cold := true } s
    noteWake x false src s
  else startWake x src s

/-- AP4, and a wake that lands in its cycle: the entry completes and the wake is an ordinary one (R682). (DEDUCED, notes/assumptions/38.md.) -/
def passAp4With (x : Side) (wake : Bool) (s : State) : State :=
  if atAp s x 3 && wake then wakeByPin x (passAp4 x s) else passAp4 x s

/-- A regulator has not become ready within its limit (R694). -/
def regulatorLate (x : Side) (s : State) : State :=
  if (sideGet s x).st != .waking then s
  else if !(sideGet s x).regRetry then sideMod x (fun d => { d with regRetry := true, regAt := s.elapsed }) s
  else
    let s := evt R.PWR_EVT F.PWR_EVT_WFREG s
    match x with
    | .field =>
      let s := sideMod .field (fun d => { d with st := .deep }) s
      let s := assertSrc { no := 23, level := 1, reach := .side .field, on := true, detail := 0 } s
      seeField (sideMod .field (fun d => { d with st := .wakefail }) { s with boot := { s.boot with wakeFailF := true } })
    | .host =>
      let s := sideMod .host (fun d => { d with st := .run }) s
      let s := assertSrc { no := 22, level := 1, reach := .side .host, on := true, detail := 0, cold := true } s
      sideMod .host (fun d => { d with st := .wakefail }) { s with boot := { s.boot with hostHeld := true } }

/-- An oscillator has not become ready within its limit: one retry, then the side stays on its RC as after a failure (R337,
R694). -/
def oscillatorLate (x : Side) (s : State) : State :=
  if !(sideGet s x).onRc then s
  else if !(sideGet s x).oscRetry then sideMod x (fun d => { d with oscRetry := true, oscAt := s.elapsed }) s
  else
    let s := evt R.PWR_EVT F.PWR_EVT_WFOSC (sideMod x (fun d => { d with onRc := false, oscRetry := false }) s)
    oscFailed x 0 s

/-- A limit of R694 expires; readiness in the same cycle wins (R696). -/
def wakeStepLate (x : Side) (what : WakeStep) (same : Bool) (s : State) : State :=
  let waits := match what with | .regulator => decide ((sideGet s x).st = .waking) | .oscillator => (sideGet s x).onRc
  let limit := match what with | .regulator => (sideGet s x).regAt + 2000000 | .oscillator => (sideGet s x).oscAt + 5000000
  if !waits then s
  else
  let s := toElapsed limit s
  if same then
    let s := evt R.PWR_EVT F.PWR_EVT_RACE (if x = .host then raceHost s else raceField s)
    match what with
    | .regulator => s
    | .oscillator => oscReady x s
  else match what with
    | .regulator => regulatorLate x s
    | .oscillator => oscillatorLate x s

-- ---------------------------------------------------------------- tiles (R674, R675)

/-- Tile t can enter Sleep on its own. -/
def tileIdle (s : State) (t : Nat) : Bool :=
  let ns := tilePorts t
  bitOf (fld s R.PWR_CFG F.PWR_CFG_FTAUTO) t && tileRuns s t &&
  ns.all (fun n => (portGet s n).slots.all Option.isNone && (portGet s n).winQ.isEmpty && !(portBit s n && flag s (R.FP_CTL n) F.FP_CTL_EN)) &&
  (List.range 8).all (fun c => tmCtl s t c F.FT_TMC_CTL_EN == 0) &&
  s.ctxs.all (fun e => match e.2.sched with
    | some (_, d) => !(cState s e.1 == stRunning && cPort s e.1 / 8 == t) || decide (fieldNs s + 1000 * (fld s R.PWR_CFG F.PWR_CFG_TIDLE + 15) < d)
    | none => true)

/-- Tile t enters Sleep on its own, where it may at this instant; that it might for TIDLE µs is the row's (R674). (DEDUCED, notes/assumptions/38.md.) -/
def tileSleeps (t : TileNo) (s : State) : State :=
  if tileIdle s t.val then tilesFollow { s with pow := { s.pow with autoSleep := s.pow.autoSleep ++ [t] } } else s

/-- The earliest due time of the RUNNING contexts of tile t. -/
def tileDue (s : State) (t : Nat) : Option Nat :=
  let ds := s.ctxs.filterMap (fun e => if cState s e.1 == stRunning && cPort s e.1 / 8 == t then e.2.sched.map (·.2) else none)
  ds.foldl (fun (a : Option Nat) d => some (match a with | some b => min b d | none => d)) none

/-- Tile t leaves its automatic Sleep 15 µs before the earliest due time of its contexts (R675). (DEDUCED, notes/assumptions/38.md.) -/
def tileAwakes (t : TileNo) (s : State) : State :=
  let s := match tileDue s t.val with
    | some d => if s.pow.autoSleep.contains t then toField (d - 15000) s else s
    | none => s
  tilesFollow { s with pow := { s.pow with autoSleep := s.pow.autoSleep.filter (· != t) } }

-- ---------------------------------------------------------------- the power schedule (R710)

/-- The entry's RUN requests wake their sides with source 0x06; a field side in Off or held by a wake failure serves no compare. (DEDUCED,
notes/assumptions/38.md.) -/
def scheduleWake (e : SchedE) (s : State) : State :=
  if s.pow.field.st = .off || s.pow.field.st = .wakefail then s
  else
  let s := match s.pow.compare with | some c => if s.pow.field.st = .sleep || s.pow.field.st = .deep then toAoc c s else s | none => s
  let s := if pwFreq e.req = 0 then startWake .field 6 s else s
  if pwHreq e.req = 0 then startWake .host 6 s else s

/-- Every other occurrence is a critical POWER command of the supervisory core, or is skipped. -/
def schedulePower (w : Word) (s : State) : State :=
  if s.pow.host.st != .run || s.boot.hostHeld || s.boot.inReset.contains .hb then evt R.PWR_EVT F.PWR_EVT_SCHSKIP s
  else if (powerRefused s w).isSome then s
  else if powerStalls s w then startWake .field 0x0B s
  else powerActs w s

/-- Device time, as the schedule goes by it: master time, or field time while that does not run. (DEDUCED, notes/assumptions/38.md.) -/
def scheduleNs (s : State) : Nat := if masterRuns s then masterNs s else fieldNs s

/-- Time passes to a second of device time. -/
def toSecond (t : Nat) (s : State) : State := if masterRuns s then toMaster (t * secNs * nsU) s else toField (t * secNs) s

/-- The next occurrence of entry i comes (R709, R710). -/
def scheduleActs (i : Nat) (s : State) : State :=
  match s.boot.schedule[i]? with
  | none => s
  | some e =>
    match nextOccurrence e (max (tabGet (fun _ => 0) s.boot.schedAt i) (ceilDiv (scheduleNs s) secNs)) with
    | none => s
    | some t =>
      let s := { s with boot := { s.boot with schedAt := tabSet (fun _ => 0) s.boot.schedAt i (t + 1) } }
      if wakesBySchedule e then scheduleWake e (toSecond t s) else schedulePower e.req (toSecond t s)

-- ---------------------------------------------------------------- HWAKE_OUT and the always-on clock (R690, R702)

/-- The pulse of MODE 1 ends. -/
def hwakeEnds (s : State) : State :=
  if flag s R.PWR_HWCFG F.PWR_HWCFG_MODE && s.pow.hwakeOut then
    let s := toElapsed (s.pow.hwakeAt + 1000000 * fld s R.PWR_HWCFG F.PWR_HWCFG_PWID) s
    { s with pow := { s.pow with hwakeOut := false } }
  else s

/-- The crystal of the always-on counter fails. -/
def aocFails (s : State) : State :=
  if flag s R.PWR_AOC F.PWR_AOC_XTAL && !flag s R.PWR_AOC F.PWR_AOC_ONRC then
    evt R.PWR_EVT F.PWR_EVT_AOFAIL (setFlag R.PWR_AOC F.PWR_AOC_ONRC true s)
  else s

/-- The crystal has run for 100 ms after a RETRY. -/
def aocReturns (s : State) : State :=
  if flag s R.PWR_AOC F.PWR_AOC_XTAL && flag s R.PWR_AOC F.PWR_AOC_RETRY then
    setFlag R.PWR_AOC F.PWR_AOC_RETRY false (setFlag R.PWR_AOC F.PWR_AOC_ONRC false s)
  else s

-- ---------------------------------------------------------------- sentinels in Sleep (R451, R452, R703 to R706)

/-- Sentinel i's transaction in slot 0 of port n goes on by one wait: an XFER takes the next received bits, every other wait
ends at its own time. Without bits for an XFER the transaction limit stops it. (DEDUCED, notes/assumptions/40.md.) -/
def sentWait (n : Nat) (rx : List (List Bool)) (s : State) : List (List Bool) × State :=
  match slotGet s n 0 with
  | none => (rx, s)
  | some t =>
    let w := cStep s t.ctx t.step
    match t.wait with
    | 0 => (rx, grant n s)
    | 2 =>
      let stamp := (fieldNs s, stampHold s)
      (rx, stepDone n 0 (leaveDi n 0 (drLineOf w) (slotMod n 0 (fun t => { t with tsDr := some stamp, seen := true }) s)))
    | 3 => (rx, delayDone n 0 s)
    | 4 => (rx, retryEnd n 0 s)
    | 5 => (rx, driveTrig n 0 (fieldNs s) (takeWire n 0 s))
    | _ =>
      if t.pulse then (rx, trigTrail n 0 s)
      else match rx with
        | b :: rest => (rest, if b.length = txnBits s n t w then xferEnd n b (2 * b.length) s else finish n 0 1 3 s)
        | [] => ([], finish n 0 1 3 s)

/-- The transaction runs to its end. (DEDUCED, notes/assumptions/40.md.) -/
def sentRun (n : Nat) : Nat → List (List Bool) → State → State
  | 0, _, s => finish n 0 1 3 s
  | fuel + 1, rx, s =>
    match slotGet s n 0 with
    | none => s
    | some t =>
      if t.fin.isSome then s
      else
        let r := sentWait n rx s
        sentRun n fuel r.1 r.2

/-- A value in the binary32 arithmetic of the sentinel sequencer: MEAN or PEAK (R451). -/
def sentFeature (feat : Nat) (xs : List Rat) : Rat :=
  if feat = 0 then f32 ((xs.foldl (fun a x => f32 (a + x)) 0) / (xs.length : Nat)) else peakOf xs

/-- The sentinel's rule after a window, on the rule's own state (R451, R453). (DEDUCED, notes/assumptions/40.md.) -/
def sentJudge (i r : Nat) (v : Word) (s : State) : State :=
  let q := thr v
  let t1 := thr (reg s (R.SVR_T1 r))
  let t2 := thr (reg s (R.SVR_T2 r))
  let h := thr (reg s (R.SVR_HYS r))
  let res := judgeState (rState s r) (fld s (R.SVR_STAT r) F.SVR_STAT_DCNT) (fld s (R.SVR_CFG r) F.SVR_CFG_DON)
    (fld s (R.SVR_CFG r) F.SVR_CFG_DOFF) (holdsCmp (rCmp s r) q t1 t2) (releasesCmp f32 (rCmp s r) q t1 t2 h)
  let s := setReg (R.SV_RVAL r) v (setFlag (R.SVR_STAT r) F.SVR_STAT_TAINT false s)
  let s := setFld (R.SVR_STAT r) F.SVR_STAT_DCNT res.2 (setFld (R.SVR_STAT r) F.SVR_STAT_STATE res.1 s)
  setFld (R.SV_SENT_STAT i) F.SV_SENT_STAT_STATE res.1 (setFlag (R.SVR_STAT r) F.SVR_STAT_RES (leafOf res.1) s)

/-- A full window is judged; a rise asks for a field wake (R452). (DEDUCED, notes/assumptions/40.md.) -/
def sentWindow (i k r : Nat) (x : Sample) (s : State) : State :=
  let u := sentGet s i
  let s := sentMod i (fun u => { u with win := [] }) s
  match allSome (u.win.map (valOf (cFmt s k))) with
  | none => s
  | some xs =>
    let v := featBits (sentFeature (rFeat s r) (xs.map f32))
    let before := rLeaf s r
    let s := if rIn s r (cAlert s k) then sentJudge i r v s else s
    if !before && rLeaf s r then
      let s := cntFld (R.SV_SENT_STAT i) F.SV_SENT_STAT_FIRES 1 (evt R.SV_EVT F.SV_EVT_SENT s)
      startWake .field 5 (sentMod i (fun u => { u with rose := some (v, x) }) s)
    else s

/-- A sentinel's sample: kept with the last WIN, and counted into the window (R704 to R706). (DEDUCED, notes/assumptions/40.md.) -/
def sentSample (i k : Nat) (x : Sample) (s : State) : State :=
  let size := fld s (R.SV_SENT_CTL i) F.SV_SENT_CTL_WIN + 1
  let s := sentMod i (fun u =>
    let kept := u.kept ++ [x]
    { u with kept := kept.drop (kept.length - size), win := u.win ++ x.vals.take 1 }) s
  if (sentGet s i).win.length ≥ size then sentWindow i k (sentRule s i) x s else s

/-- The transaction of a sentinel's poll has ended: the port counters, and the sample it hands on (R704). -/
def sentComplete (i n ts : Nat) (s : State) : State :=
  match slotGet s n 0 with
  | none => s
  | some t =>
    let k := t.ctx
    let f := t.fin.getD (1, 3)
    let j := judgeTxn n k t f.1 s
    let s := noteLast n 0 k j.1 f.2 t.race j.2
    let s := slotSet n 0 none s
    if (j.1 = 0 || j.1 = 2 || j.1 = 3) && !t.stores.isEmpty then
      let fl := flIf (tbState s != 0) flHoldover + flIf (cAlert s k) flAlert + flIf (ctxQuar s k) flQuar +
        flIf (j.1 != 0 || t.ckp) flCorrupt
      let c := convertAll k t.stores s
      sentSample i k { seq := t.tn, ts := ts, flags := fl, vals := c.1 } c.2
    else s

/-- Sentinel i polls its context at its next tick, through slot 0 of its port (R703 to R705). -/
def sentPoll (i : Nat) (rx : List (List Bool)) (s : State) : State :=
  let k := fld s (R.SV_SENT_CTL i) F.SV_SENT_CTL_CTX
  let n := cPort s k
  if s.pow.field.st != .sleep || !flag s (R.SV_SENT_CTL i) F.SV_SENT_CTL_EN || cState s k != stRunning || cBit s k then s
  else
    let s := toAoc (sentGet s i).next s
    let ticks := (s.tm.aoc + 2 ^ 48 - s.tm.aoc0) % 2 ^ 48
    let ts := (s.tm.v0 + ticks * (reg s R.TB_AOC_RATIO).toNat * 2 ^ 32) / nsU
    let per := (fld s (R.SV_SENT_PER i) F.SV_SENT_PER_PER * 32768 + 500) / 1000
    let s := sentMod i (fun u => { u with next := s.tm.aoc + per }) s
    if bankHeld s n || ctxAbsent s k then s
    else
      let tn := fld s (R.CTX_STAT k) F.CTX_STAT_NEXTTN
      let s := setFld (R.CTX_STAT k) F.CTX_STAT_NEXTTN (tn + 1) s
      let s := slotSet n 0 (some { ctx := k, tn := tn, nom := ts, due := ts, cu := false, alert := cAlert s k, wait := 1, sentinel := true }) s
      let en := flag s (R.FP_CTL n) F.FP_CTL_EN && fld s (R.FP_CTL n) F.FP_CTL_MODE != 0
      let s :=
        if !(portGet s n).bankOk then finish n 0 5 0 (firstStep n 0 ts s)
        else if !en then finish n 0 7 0 (firstStep n 0 ts s)
        else advance n 0 ts stepFuel s
      sentComplete i n ts (sentRun n stepFuel rx s)

end Sys2Proof.Machine
end

