-- ==== Sys2Proof/Machine/Graft.lean ====
section
/-! DEFINITION. Graft: staging changes, checking them and committing them as one (R713 to R741). -/

namespace Sys2Proof.Machine

-- ---------------------------------------------------------------- items (R719, R720)

/-- The kind under which a SUBSCRIBE ADD or REMOVE is staged; its words are the queue, the action and the port. (DESIGN CHOICE, notes/assumptions/15.md.) -/
def gkSub : Nat := 0x200

def giWRITE : Nat := 1
def giCAL : Nat := 2
def giTILE : Nat := 3
def giIMAGE : Nat := 4
def giCONFIRM : Nat := 5

/-- Word i of an item. -/
def GraftItem.word (it : GraftItem) (i : Nat) : Nat := (it.words.getD i 0).toNat

/-- The open Graft is port p's (R713). -/
def holds (s : State) (p : Nat) : Bool := match s.graft with | some g => g.holder.val == p | none => false

/-- A Graft is open and another port holds it (R714). -/
def heldByOther (s : State) (p : Nat) : Bool := match s.graft with | some g => g.holder.val != p | none => false

/-- The inactive slot of the configuration flash: true is slot B. -/
def idleSlot (s : State) : Bool := !s.nv.active

/-- The tiles that TILE items name. -/
def itemTiles (its : List GraftItem) : List Nat := its.filterMap (fun it => if it.kind == giTILE then some (it.word 0) else none)

/-- A template that a context in use names (R208). -/
def tplInUse (s : State) (j : Nat) : Bool := (List.range 512).any (fun k => ctxLives s k && !cBit s k && cTpl s k == j)

/-- The templates in use whose steps a WRITE item touches. -/
def itemTpls (s : State) (it : GraftItem) : List Nat :=
  if it.kind == giWRITE && (blockAt (it.word 0)).kind == .tpl then
    ((wordsIn (it.word 0) (it.words.length - 1)).map (fun a => (a - 0x220000) / 0x80)).eraseDups.filter (tplInUse s)
  else []

/-- The bound filter slot that a word configures: tile and slot. -/
def boundSlotAt (s : State) (a : Nat) : Option (Nat × Nat) :=
  let t := (a - 0x100000) / 0x10000
  let f := (a % 0x10000 - 0x4100) / 0x20
  if (blockAt a).kind = .filt ∧ 0x4100 ≤ a % 0x10000 ∧ a % 0x10000 < 0x4300 ∧ a % 0x20 = 0 ∧ slBound s t f then some (t, f) else none

/-- The words of a context's rule set: its rules, SV_CXk_SPCFG and SV_CXk_SNCFG (R445). -/
def ownsWord (s : State) (k a : Nat) : Bool :=
  if 0x248000 ≤ a then
    let r := (a - 0x248000) / 0x20
    decide (a < 0x250000) && decide (a % 0x20 < 0x1C) && decide (cRbase s k ≤ r) && decide (r < cRbase s k + cRcnt s k)
  else decide (a = R.SV_CX_SPCFG k) || decide (a = R.SV_CX_SNCFG k)

/-- The contexts in use that own a word. -/
def wordOwners (s : State) (a : Nat) : List Nat :=
  if (blockAt a).kind = .sv then (List.range 512).filter (fun k => ctxLives s k && ownsWord s k a) else []

-- ---------------------------------------------------------------- checks (R718 to R722)

/-- BUSY does not refuse a staged word at this address (R722). (DEDUCED, notes/assumptions/33.md.) -/
def waived (tiles : List Nat) (a : Nat) : Bool :=
  let here := match tileOf a with | some t => tiles.contains t | none => false
  match (blockAt a).kind with
  | .tpl => true
  | .sv => decide (0x242000 ≤ a)
  | .ports | .tmr => here
  | .filt => here && a % 0x10000 != 0x4000
  | _ => false

/-- The state that a staged word would leave: a bound slot's word stands at once. -/
def asIfWord (p : Nat) (x : Nat × Word) (s : State) : State :=
  match boundSlotAt s x.1 with
  | some _ => putWord true x.1 x.2 s
  | none => (applyWord (some p) true (wordOf 0xFFFFFFFF) x.1 x.2 s).2

/-- The rule set that a WRITE leaves a context with is refused (R411, R412, R423 to R435, R463, R464): the states before and
after. -/
def rulesRefused (s s' : State) (k : Nat) : Option Nat :=
  let runs := cState s' k == stRunning
  let sp := flag s' (R.SV_CX_SPCFG k) F.SV_CX_SPCFG_EN
  if ruleSetBad s' k (cVals s' k) || (runs && needsSieve s' k && !flag s' R.SV_CTL F.SV_CTL_EN) then some stRANGE
  else if (placeRing k s').isNone || (runs && sp && decide (regionSize (reg s' R.TR_SPWS) < 64)) then some stQUEUE_FULL
  else if runs && sieveClash s s' k then some stCONFLICT
  else none

/-- The contexts in use that name template j. -/
def tplNamers (s : State) (j : Nat) : List Nat := (List.range 512).filter (fun k => ctxLives s k && !cBit s k && cTpl s k == j)

/-- The filter slots that the changed steps of its template give context k pass slot 15, or meet another claim, or the pool has no room for its
snapshot ring (R194, R240, R241, R463, R721). -/
def slotsClash (s : State) (k : Nat) : Option Nat :=
  let u := ctxMod k (fun c => { c with oldTpl := none }) s
  if cFen s k && decide (cSlot u k + cVals u k > 16) then some stRANGE
  else if (placeRing k (ruled k u)).isNone then some stQUEUE_FULL
  else if cFen s k && claimClash u k then some stCONFLICT
  else none

/-- The snapshot ring takes its place in a state that holds what is to be (R463). -/
def ringNow (k : Nat) (s : State) : State := (placeRing k (ctxMod k (fun c => { c with oldTpl := none }) s)).getD s

/-- A status with response words, or the state that the item leaves. -/
abbrev ItemCheck := Except (Nat × List Word) State

def itemFails (st : Nat) : ItemCheck := .error (st, [])

/-- A WRITE item behind the items `before` (R719, R721, R722). -/
def checkWrite (p : Nat) (before : List GraftItem) (it : GraftItem) (s : State) : ItemCheck :=
  let a := it.word 0
  let ws := it.words.drop 1
  let l := wordsOf a ws
  let b := (blockAt a).kind
  if a % 4 != 0 then itemFails stRANGE
  else if fieldBlk b && fieldAway s then itemFails stLINK_DOWN
  else if (wordsIn a ws.length).any (unitHeld s) then itemFails stBUSY
  else if b = .win then
    match winWriteBad s a ws.length with
    | some st => itemFails st
    | none => .ok s
  else if b = .qmem ∨ b = .flash then itemFails stDENIED
  else
    match firstRefusal (some p) true (waived (itemTiles before)) l s with
    | some st => itemFails st
    | none =>
      if (((before ++ [it]).flatMap (itemTpls s)).eraseDups).length > 64 then itemFails stRANGE
      else
        let s' := eachOf l (asIfWord p) s
        let ks := (l.flatMap (fun x => wordOwners s x.1)).eraseDups
        let ts := (itemTpls s it).flatMap (tplNamers s)
        match ks.findSome? (rulesRefused s s') with
        | some st => itemFails st
        | none => match ts.findSome? (slotsClash s') with
          | some st => itemFails st
          | none => .ok (eachOf ks ringNow (eachOf ts ringNow s'))

/-- SUBSCRIBE ADD or REMOVE of queue q is refused for port p (R544). -/
def subRefused (s : State) (q act p : Nat) : Option Nat :=
  if q > 127 then some stRANGE
  else if act = 1 then (if !qEn s q then some stRANGE else if qSub s q p then some stCONFLICT else none)
  else if qSub s q p then none else some stRANGE

/-- Port p leaves the subscribers of queue q, and its stream is switched off (R544). -/
def subLeave (q p : Nat) (s : State) : State :=
  subRemove q p (partMod p (fun u => { u with streams := u.streams.filter (· != q), part := tabSet (fun _ => 0) u.part q 0 }) s)

/-- SUBSCRIBE ADD or REMOVE takes effect. (DESIGN CHOICE, notes/assumptions/15.md.) -/
def subAct (q act p : Nat) (s : State) : State := if act = 1 then subAdd q p s else subLeave q p s

/-- The inactive image becomes ACTIVE, on trial (R733). -/
def imageActive (s : State) : State := { s with nv := { s.nv with active := !s.nv.active, trial := true } }

/-- The ACTIVE image is confirmed (R736). -/
def imageConfirmed (s : State) : State :=
  { s with nv := { s.nv with trial := false, minSeq := max s.nv.minSeq (imgSeq (slotImage s s.nv.active)) } }

/-- The check of one item, in the state that the running device and the items before it would leave (R721): its refusal, or the
state it would leave. (DESIGN CHOICE, notes/assumptions/15.md.) -/
def checkItem (p : Nat) (before : List GraftItem) (it : GraftItem) (s : State) : ItemCheck :=
  if it.kind == giWRITE then checkWrite p before it s
  else if it.kind == giIMAGE then
    if s.nv.trial then itemFails stLOCKED
    else if !slotExists s true then itemFails stRANGE
    else
      let e := (passSlot s (idleSlot s)).1
      if e != 0 then .error (stRANGE, [wordOf e]) else .ok (imageActive s)
  else if it.kind == giCONFIRM then
    if !s.nv.trial || before.any (fun x => x.kind == giIMAGE) then itemFails stRANGE else .ok (imageConfirmed s)
  else if fieldAway s then itemFails stLINK_DOWN
  else if it.kind == giCAL then
    if cState s (it.word 0) == stFree then itemFails stRANGE
    else .ok (applyAct (it.word 0) (.cal (it.words.getD 1 0) (it.words.getD 2 0)) s)
  else if it.kind == giTILE then
    if decide (it.word 0 > 5) || (itemTiles before).contains (it.word 0) then itemFails stRANGE else .ok s
  else if it.kind == gkCtx then
    match ctxCheck s (it.word 0) (it.word 1) (it.words.drop 2) false with
    | .error st => itemFails st
    | .ok k => .ok (ctxCommit k (it.word 1) (it.words.drop 2) s).2
  else
    match subRefused s (it.word 0) (it.word 1) (it.word 2) with
    | some st => itemFails st
    | none => .ok (subAct (it.word 0) (it.word 1) (it.word 2) s)

/-- The items in order, from the running state: the refusal and the index of the first that fails, or the state they leave. (DEDUCED, notes/assumptions/33.md.) -/
def checkItems (p : Nat) : List GraftItem → List GraftItem → State → Except (Nat × Nat) State
  | _, [], s => .ok s
  | before, it :: rest, s =>
    match checkItem p before it s with
    | .error e => .error (e.1, before.length)
    | .ok s' => checkItems p (before ++ [it]) rest s'

/-- The state that items in order leave; one that no longer passes its check leaves nothing. (DEDUCED, notes/assumptions/33.md.) -/
def afterItems (p : Nat) : List GraftItem → List GraftItem → State → State
  | _, [], s => s
  | before, it :: rest, s =>
    afterItems p (before ++ [it]) rest (match checkItem p before it s with
      | .error _ => s
      | .ok s' => s')

/-- The running device without the Graft's reservations: what its items are checked against. -/
def runningBase (s : State) : State :=
  match s.graft with
  | some g => { eachOf (stagedAdds g) unreserveCtx s with graft := none }
  | none => s

/-- The state that the running device and the staged items would leave together (R721). (DEDUCED, notes/assumptions/33.md.) -/
def stagedState (g : GraftS) (s : State) : State := afterItems g.holder.val [] g.items (runningBase s)

-- ---------------------------------------------------------------- staging

/-- An item is staged once it passes its check (R718, R721): the status, the response words and the state. (DEDUCED, notes/assumptions/33.md.) -/
def stageItem (g : GraftS) (it : GraftItem) (s : State) : Nat × List Word × State :=
  let p := g.holder.val
  if g.items.length ≥ 256 ∨ sumNat (g.items.map (fun x => 4 * x.words.length)) + 4 * it.words.length > 65536 then (stQUEUE_FULL, [], s)
  else
    match checkItem p g.items it (stagedState g s) with
    | .error e => (e.1, e.2, s)
    | .ok _ =>
      let s := { s with graft := some { g with items := g.items ++ [it] } }
      (stOK, [], setFld R.GLB_GRF_ITEMS F.GLB_GRF_ITEMS_STAGED (g.items.length + 1) s)

/-- A CTX command of the holder is staged (R200, R202, R720). (DESIGN CHOICE, notes/assumptions/15.md.) -/
def stageCtx (g : GraftS) (idx act : Nat) (ws : List Word) (s : State) : Nat × List Word × State :=
  match ctxCheck (stagedState g s) idx act ws false with
  | .error st => (st, [], ctxRefused st s)
  | .ok k =>
    let x := stageItem g { kind := gkCtx, words := wordOf k :: wordOf act :: ws } s
    if x.1 == stOK && act == actADD then (stOK, if idx == 0xFFFFFFFF then [wordOf k] else [], reserveCtx k ws x.2.2) else x

-- ---------------------------------------------------------------- commit (R723 to R727)

/-- The actions an item leaves with RUNNING contexts, by context (R724). -/
def itemActs (s : State) (it : GraftItem) : List (Nat × CtxAct) :=
  if it.kind == gkCtx then
    (match ctxActOf (it.word 1) (it.words.drop 2) with
     | some a => if cState s (it.word 0) == stRunning then [(it.word 0, a)] else []
     | none => [])
  else if it.kind == giWRITE then
    let l := wordsOf (it.word 0) (it.words.drop 1)
    let slots := l.filterMap (fun x =>
      match boundSlotAt s x.1 with
      | some (t, f) => if h : t < 6 ∧ f < 16 then some (slCtx s t f, CtxAct.slotWrite ⟨t, h.1⟩ ⟨f, h.2⟩ x.2) else none
      | none => none)
    let tpls := (itemTpls s it).flatMap (fun j =>
      ((List.range 512).filter (fun k => !cBit s k && cTpl s k == j)).map (fun k => (k, CtxAct.template j)))
    (slots ++ tpls).filter (fun x => cState s x.1 == stRunning)
  else []

/-- The rule-set words an item leaves with RUNNING contexts: context, address, value (R446). -/
def itemRules (s : State) (it : GraftItem) : List (Nat × Nat × Word) :=
  if it.kind == giWRITE then
    (wordsOf (it.word 0) (it.words.drop 1)).flatMap (fun x =>
      ((wordOwners s x.1).filter (fun k => cState s k == stRunning)).map (fun k => (k, x.1, x.2)))
  else []

/-- An earlier waiting rule-set word with the same target never takes effect (R727). -/
def replaceRule (k x : Nat) (s : State) : State :=
  let keep (ws : List (Nat × Word)) : Option (List (Nat × Word)) :=
    let l := ws.filter (fun w => ruleTarget w.1 != x)
    if l.isEmpty then none else some l
  let s := svMod k (fun c => { c with ruleSet := c.ruleSet.bind keep }) s
  { s with waits := s.waits.map (fun w => { w with rules := w.rules.filter (fun y => y != (k, x)) }) }

/-- The waiting items of earlier commits that the items of this one replace (R727). (DEDUCED, notes/assumptions/34.md.) -/
def replaceWaiting (its : List GraftItem) (s : State) : State :=
  eachOf its (fun it s0 =>
    eachOf ((itemRules s it).map (fun x => (x.1, ruleTarget x.2.1))).eraseDups (fun x s => replaceRule x.1 x.2 s)
      (eachOf (itemActs s it) (fun x s => replaceActs x.1 x.2 s) s0)) s

/-- The words of template j. -/
def tplWords (s : State) (j : Nat) : List Word := (List.range 32).map (fun i => reg s (R.TPL_WORD j i))

/-- RUNNING contexts that name template j keep the steps they run until their boundary (R724). (DEDUCED, notes/assumptions/34.md.) -/
def keepOldSteps (j : Nat) (s : State) : State :=
  let old := tplWords s j
  eachOf ((List.range 512).filter (fun k => cState s k == stRunning && !cBit s k && cTpl s k == j && (ctxGet s k).oldTpl.isNone))
    (fun k s => ctxMod k (fun c => { c with oldTpl := some old }) s) s

/-- The contexts in use but not RUNNING that name template j, which go over at once. -/
def idleNamers (s : State) (j : Nat) : List Nat :=
  (List.range 512).filter (fun k => ctxLives s k && cState s k != stRunning && !cBit s k && cTpl s k == j)

/-- One word of a WRITE item takes effect, or is left with its contexts. -/
def commitWord (p : Nat) (x : Nat × Word) (s : State) : State :=
  let v := x.2 &&& wordOf (namedBits x.1)
  match wordOwners s x.1 with
  | [] =>
    let f := takeFree s
    (applyWord (some p) true (wordOf f.1) x.1 x.2 (if x.1 = R.SEC_OTPPROG then f.2 else s)).2
  | ks =>
    let run := ks.filter (fun k => cState s k == stRunning)
    let s := if run.isEmpty then eachOf ks (fun k s => svPut k .clear s) (setReg x.1 v s) else s
    let s := eachOf run ruleSetDue s
    let s := eachOf run (fun k s => svMod k (fun c => { c with ruleSet := some (c.ruleSet.getD [] ++ [(x.1, v)]) }) s) s
    eachOf ks followRing s

/-- A WRITE item takes effect (R724). -/
def commitWrite (p : Partner) (it : GraftItem) (s : State) : State :=
  let a := it.word 0
  let ws := it.words.drop 1
  if (blockAt a).kind = .win then
    winEnqueue p { op := 2, flags := 1, tag := 0, addr := it.words.getD 0 0, ctr := none, payload := ws, src := 0, msg := 0 } true a ws.length ws s
  else
    let js := itemTpls s it
    let acts := (itemActs s it).filterMap (fun x => match x.2 with | .template j => some (x.1, j) | _ => none)
    let idle := js.flatMap (idleNamers s)
    let s := eachOf idle unbindSlots (eachOf js keepOldSteps s)
    let s := eachOf (wordsOf a ws) (commitWord p.val) s
    let s := eachOf idle (fun k s => updDemand (cPort s k) (bindSlots k (followRing k s))) s
    eachOf acts (fun x s =>
      if (ctxGet s x.1).acts.contains (.template x.2) then s else (actOn x.1 (.template x.2) s).2) s

/-- What one item does at commit (R724); the item that waits for later boundaries, if it leaves any. -/
def commitItem (p : Partner) (it : GraftItem) (s : State) : State :=
  let wait : WaitItem := { acts := itemActs s it, rules := ((itemRules s it).map (fun x => (x.1, ruleTarget x.2.1))).eraseDups }
  let s :=
    if it.kind == giWRITE then commitWrite p it s
    else if it.kind == giCAL then applyAct (it.word 0) (.cal (it.words.getD 1 0) (it.words.getD 2 0)) s
    else if it.kind == giTILE then tileStops (it.word 0) s
    else if it.kind == giIMAGE then nvPulse s.nv 50000 (imageActive s)
    else if it.kind == giCONFIRM then nvPulse s.nv 50000 (imageConfirmed s)
    else if it.kind == gkCtx then (ctxCommit (it.word 0) (it.word 1) (it.words.drop 2) s).2
    else subAct (it.word 0) (it.word 1) (it.word 2) s
  if wait.acts.isEmpty && wait.rules.isEmpty then s else { s with waits := s.waits ++ [wait] }

/-- A tile returns to service (R729, R730). (DEDUCED, notes/assumptions/34.md.) -/
def tileReturns (t : Nat) (s : State) : State := eachOf (tilePorts t) updDemand (tileLeaves t s)

/-- The FIRMWARE section of the ACTIVE slot (R733). -/
def activeFirmware (s : State) : List Byte := sectOf (slotImage s s.nv.active) kFIRMWARE

/-- An IMAGE item of the Graft brings other firmware than the one that runs (R733). -/
def handsOver (its : List GraftItem) (s : State) : Bool := its.any (fun it => it.kind == giIMAGE) && activeFirmware s != s.boot.firmware

/-- COMMIT of the open Graft (R723 to R733): the status, the response words, whether the answer waits for the hand-over of the
firmware, and the state. (DEDUCED, notes/assumptions/34.md.) -/
def graftCommit (g : GraftS) (s : State) : Nat × List Word × Bool × State :=
  match checkItems g.holder.val [] g.items (runningBase s) with
  | .error (st, i) =>
    let isCtx := match g.items[i]? with | some it => it.kind == gkCtx | none => false
    let s := onlyIf isCtx (ctxRefused st) s
    (st, [wordOf i], false, setFld R.GLB_GRF_FAILIDX F.GLB_GRF_FAILIDX_ITEM i (graftEnds 6 st s))
  | .ok _ =>
    let s := eachOf (stagedAdds g) unreserveCtx s
    let n := s.waits.length
    let s := replaceWaiting g.items s
    let s := eachOf g.items (commitItem g.holder) { s with graft := some { g with items := [] } }
    let s := eachOf (itemTiles g.items) tileReturns s
    let l := s.waits.filter (stillWaits s)
    let st := if (s.waits.drop n).any (stillWaits s) then stACCEPTED else stOK
    let s := setFld R.GLB_GRF_ITEMS F.GLB_GRF_ITEMS_PEND l.length s
    let s := setFld R.GLB_GRF_ITEMS F.GLB_GRF_ITEMS_STAGED 0 s
    if handsOver g.items s then (st, [], true, setFld R.GLB_GRF_STAT F.GLB_GRF_STAT_STATE 2 s)
    else (st, [], false, graftEnds 1 st s)

-- ---------------------------------------------------------------- the flash (R731)

/-- A sector is erased once in a Graft. (PRESUMED, notes/assumptions/18.md.) -/
def eraseSector (i : Nat) (s : State) : State :=
  if s.boot.flashErased.contains i then s
  else { s with boot := { s.boot with
    flash := tabDrop (fun a => a / s.boot.flashSector == i) s.boot.flash, flashErased := s.boot.flashErased ++ [i] } }

/-- FLASH (R731): the status and the state. (PRESUMED, notes/assumptions/18.md.) -/
def graftFlash (g : GraftS) (off : Nat) (ws : List Word) (s : State) : Nat × State :=
  let n := 4 * ws.length
  if !slotExists s true || off % 4 != 0 || decide (off < g.flashEnd) || decide (off + n > 0x4000000) ||
     decide (off + n > slotAvail s (idleSlot s)) then (stRANGE, s)
  else if s.nv.trial || g.items.any (fun it => it.kind == giIMAGE) then (stLOCKED, s)
  else
    let lo := slotBase (idleSlot s) + off
    let z := s.boot.flashSector
    let s := eachOf ((List.range ((lo + n - 1) / z + 1 - lo / z)).map (lo / z + ·)) eraseSector s
    let fl := (wordsBytes ws).zipIdx.foldl (fun t (x : Byte × Nat) => tabSet (fun _ => (0xFF : Byte)) t (lo + x.2) x.1) s.boot.flash
    (stOK, { s with graft := some { g with flashEnd := off + n }, boot := { s.boot with flash := fl } })

-- ---------------------------------------------------------------- the GRAFT command (R717, R718)

/-- BEGIN (R713, R717). -/
def graftBegins (p : Partner) (tmo : Nat) (s : State) : Nat × List Word × State :=
  let old := fld s R.GLB_GRF_STAT F.GLB_GRF_STAT_GID
  let gid := if old = 0xFFFF then 1 else old + 1
  let s := { s with graft := some { gid := gid, holder := p, tmo := tmo, since := s.elapsed, items := [] }
                    boot := { s.boot with flashErased := [] } }
  let s := setFld R.GLB_GRF_STAT F.GLB_GRF_STAT_GID gid (setFld R.GLB_GRF_STAT F.GLB_GRF_STAT_HOLDER (2 + p.val) s)
  (stOK, [wordOf gid], setFld R.GLB_GRF_STAT F.GLB_GRF_STAT_STATE 1 s)

/-- The item that a STAGE's words from word 2 spell; none where they are coded otherwise (R719). -/
def itemCoded (hdr : Word) (ws : List Word) : Option GraftItem :=
  let h := hdr.toNat
  let kind := bitsOf h 3 0
  let tile := bitsOf h 10 8
  let w0 := (ws.getD 0 0).toNat
  if h != tile * 256 + kind || (kind != giTILE && tile != 0) then none
  else if kind = giWRITE then (if 2 ≤ ws.length ∧ ws.length ≤ 1021 then some { kind := kind, words := ws } else none)
  else if kind = giCAL then (if ws.length = 3 ∧ w0 < 512 then some { kind := kind, words := ws } else none)
  else if kind = giTILE then (if ws.isEmpty then some { kind := kind, words := [wordOf tile] } else none)
  else if kind = giIMAGE ∨ kind = giCONFIRM then (if ws.isEmpty then some { kind := kind, words := [] } else none)
  else none

/-- STAGE, COMMIT, ABORT and FLASH of the open Graft (R717): the status, the response words, whether the answer waits, the
state. -/
def graftSteps (g : GraftS) (act : Nat) (ws : List Word) (s : State) : Nat × List Word × Bool × State :=
  match act, ws with
  | 2, hdr :: rest =>
    match itemCoded hdr rest with
    | some it => let x := stageItem g it s; (x.1, x.2.1, false, x.2.2)
    | none => (stRANGE, [], false, s)
  | 3, [] => graftCommit g s
  | 4, [] => (stOK, [], false, graftEnds 2 stOK s)
  | 5, off :: d :: rest =>
    if rest.length > 1020 then (stRANGE, [], false, s) else let x := graftFlash g off.toNat (d :: rest) s; (x.1, [], false, x.2)
  | _, _ => (stRANGE, [], false, s)

/-- The last answered GRAFT command of the holder restarts TMO (R716). -/
def graftHeard (s : State) : State :=
  match s.graft with
  | some g => { s with graft := some { g with since := s.elapsed } }
  | none => s

/-- An answer to a GRAFT command of the holder, whatever it says, restarts TMO (R716). (DEDUCED, notes/assumptions/34.md.) -/
def graftHeardBy (p : Nat) (c : Cmd) (s : State) : State := if c.op == opGRAFT && holds s p then graftHeard s else s

/-- A GRAFT command of a port that holds the open Graft, or of any port while none is open: the status, the response words,
whether the answer waits for the hand-over, the state (R717, R718). `ws` are the payload words after word 0. -/
def graftAction (p : Partner) (act : Nat) (ws : List Word) (s : State) : Nat × List Word × Bool × State :=
  let r : Nat × List Word × Bool × State :=
    match s.graft, act, ws with
    | none, 1, [w] =>
      if bitsOf w.toNat 31 16 != 0 || bitsOf w.toNat 15 0 == 0 then (stRANGE, [], false, s)
      else let x := graftBegins p (bitsOf w.toNat 15 0) s; (x.1, x.2.1, false, x.2.2)
    | some _, 1, [w] =>
      if bitsOf w.toNat 31 16 != 0 || bitsOf w.toNat 15 0 == 0 then (stRANGE, [], false, s) else (stCONFLICT, [], false, s)
    | some g, _, w :: rest => if w.toNat != g.gid || act == 1 then (stRANGE, [], false, s) else graftSteps g act rest s
    | _, _, _ => (stRANGE, [], false, s)
  (r.1, r.2.1, r.2.2.1, graftHeard r.2.2.2)

/-- The addresses an open Graft's items reach on the field side, for R31 and R691. -/
def graftAddrs (s : State) : List Nat :=
  match s.graft with
  | some g => g.items.filterMap (fun it =>
      if it.kind == giWRITE then some (it.word 0)
      else if it.kind == giTILE then some (0x100000 + 0x10000 * it.word 0)
      else if it.kind == giCAL || it.kind == gkCtx || it.kind == gkSub then some 0x200000
      else none)
  | none => []

-- ---------------------------------------------------------------- time, waiting items, the hand-over

/-- A COMMIT of the open Graft has reached the arbiter: it waits for an owner, or for the hand-over of the firmware. (DEDUCED, notes/assumptions/34.md.) -/
def commitTaken (s : State) : Bool := s.boot.handover.isSome || s.stalled.any (fun x => x.2.op == opGRAFT && x.2.act == 3)

/-- TMO ms pass without a GRAFT command of the holder; a COMMIT in the same cycle wins, and one that has been taken is not cut short
(R716). (DEDUCED, notes/assumptions/34.md.) -/
def graftLimit (withCommit : Bool) (s : State) : State :=
  match s.graft with
  | none => s
  | some g =>
    if commitTaken s then s
    else
      let s := toElapsed (g.since + g.tmo * 1000000) s
      if withCommit then raceHost (evt R.GLB_GRF_EVT F.GLB_GRF_EVT_RACE s) else graftEnds 3 stTIMEOUT s

/-- Time passes to a polled context's next due time. -/
def toDue (k : Nat) (s : State) : State :=
  match (ctxGet s k).sched with
  | some (_, d) => if cBit s k then s else toField d s
  | none => s

/-- The boundary of the i-th waiting item comes: of each context it waits for, and of the window of each rule set (R203, R446,
R726). -/
def waitsEnd (i : Nat) (s : State) : State :=
  match s.waits[i]? with
  | none => s
  | some w =>
    let s := eachOf (w.acts.map (·.1)).eraseDups (fun k s => boundary k (toDue k s)) s
    eachOf (w.rules.map (·.1)).eraseDups ruleSetDue s

/-- The hand-over of the firmware ends and the COMMIT is answered (R733). (DEDUCED, notes/assumptions/34.md.) -/
def handoverEnds (copyOk : Bool) (s : State) : State :=
  match s.boot.handover with
  | none => s
  | some (p, c, st) =>
    let fw := activeFirmware s
    let s := { s with boot := { s.boot with handover := none, firmware := if copyOk then fw else s.boot.firmware } }
    let st := if copyOk then st else stINTERNAL
    answerCmd p c st false [] (graftEnds 1 st s)

end Sys2Proof.Machine
end

