-- ==== Sys2Proof/Machine/Partner.lean ====
section
/-! DEFINITION. How a partner port judges and executes a Glaeve request (R516 to R547, R655, R691). -/

namespace Sys2Proof.Machine

-- ---------------------------------------------------------------- whether a port hears

/-- The host side can take a request at all: it is not in reset, held or off. (DEDUCED, notes/assumptions/58.md.) -/
def hostHears (s : State) : Bool :=
  !s.boot.inReset.contains .hb && !s.boot.hostHeld && s.pow.host.st != .off && s.pow.host.st != .wakefail

/-- The boot ROM waits for an image on P2 (R655). -/
def inLoadWait (s : State) : Bool := fld s R.GLB_BOOTSTAT F.GLB_BOOTSTAT_STAGE == 7

/-- The host side sleeps, so that a serial host port's select only wakes it and an Ethernet port has no link (R679, R687). (DEDUCED, notes/assumptions/58.md.) -/
def hostSleeps (s : State) : Bool := s.pow.host.st = .sleep || s.pow.host.st = .deep || s.pow.host.st = .waking

/-- Port p receives: it is enabled and the host side runs; an Ethernet port has its link (R509, R561). (DEDUCED, notes/assumptions/58.md.) -/
def hears (s : State) (p : Nat) : Bool :=
  portEn s p && hostHears s && !hostSleeps s && (decide (p ≥ 2) || linkIsUp s p)

/-- Commands wait in their port stores: past AP1 of an entry of the host side, and while the core pair reloads (R612, R679). -/
def coreAway (s : State) : Bool :=
  (s.pow.host.st = .entering && decide (s.pow.host.ap ≥ 1)) ||
  s.boot.episodes.any (fun e => e.srcs.any (fun c => c.reach = .hbCore))

-- ---------------------------------------------------------------- steps 3 to 7 of R516

/-- The command that a request's fields make. -/
def cmdOf (r : Req) (h : Hdr) : Cmd :=
  { op := r.op.toNat, flags := r.flags, tag := r.tag, addr := r.addr, ctr := if r.crit then some r.ctr.toNat else none
    payload := r.payload, src := h.src, msg := h.msg, mem := h.mem }


/-- The reference of R522: the last accepted counter, or the largest of the port's critical commands still outstanding. (DEDUCED, notes/assumptions/26.md.) -/
def ctrReference (s : State) (p : Nat) : Nat :=
  maxNat ((partGet s p).lastCtr :: (partGet s p).outst.filterMap (·.ctr))

/-- The key with which port p's Signets verify, where it has one (R521). -/
def portKey (s : State) (p : Nat) : Option (List Byte) :=
  if flag s (R.P_KEY p) F.P_KEY_KEN then (keySlot s (fld s (R.P_KEY p) F.P_KEY_KSLOT)).key else none

/-- Step 6: the Signet verifies under the port's key. -/
def signed (s : State) (p : Nat) (r : Req) : Bool := match portKey s p with | some k => signetHolds k r | none => false

/-- Bit i of Pp_PERM.MASK. -/
def permits (s : State) (p i : Nat) : Bool := bitOf (fld s (R.P_PERM p) F.P_PERM_MASK) i

/-- Some word of a WRITE lies at an address. -/
def writesAt (c : Cmd) (a : Nat) : Bool := (wordsIn c.addr.toNat c.payload.length).contains a

/-- Some word of a WRITE lies at a CWn_ACCEPT. (DEDUCED, notes/assumptions/31.md.) -/
def writesAccept (c : Cmd) : Bool :=
  (blockAt c.addr.toNat).kind = .ports && (wordsIn c.addr.toNat c.payload.length).any (fun a => a % 0x800 == 0x420)

/-- A WRITE needs CRIT under R15, R173 or R186. (DEDUCED, notes/assumptions/31.md.) -/
def writeCrit (s : State) (p : Nat) (c : Cmd) : Bool :=
  match (blockAt c.addr.toNat).kind with
  | .win => true
  | .qmem | .flash => false
  | _ => needsCrit (some p) (wordsOf c.addr.toNat c.payload) s

/-- The bits of the permission mask a command needs (R534). (DEDUCED, notes/assumptions/31.md.) -/
def permBits (s : State) (p : Nat) (c : Cmd) : List Nat :=
  if c.op = opREAD then
    (match (blockAt c.addr.toNat).kind with
     | .win => [1]
     | .flash | .qmem => [2]
     | _ => [0])
  else if c.op = opWRITE then
    let prog := writesAt c R.SEC_OTPPROG
    let others := (wordsOf c.addr.toNat c.payload).filter (fun x => x.1 != R.SEC_OTPPROG)
    let crit := (blockAt c.addr.toNat).kind = .win || writesAccept c || needsCrit (some p) others s
    (if prog then [14] else []) ++ (if crit then [4] else if prog && others.isEmpty then [] else [3])
  else if c.op = opPOP ∨ c.op = opPEEK ∨ c.op = opACK then [5]
  else if c.op = opSUBSCRIBE then (if c.act = 1 ∨ c.act = 2 then [6] else [5])
  else if c.op = opCTX then [7]
  else if c.op = opGRAFT then [8]
  else if c.op = opPOWER then [9]
  else if c.op = opRESET then [10]
  else if c.op = opTIME then [11]
  else if c.op = opKEY then [12]
  else [13]

/-- A command needs CRIT (R514). (DEDUCED, notes/assumptions/31.md.) -/
def opCrit (s : State) (p : Nat) (c : Cmd) : Bool :=
  if c.op = opWRITE then writeCrit s p c
  else if c.op = opSUBSCRIBE then c.act == 1 || c.act == 2
  else if c.op = opPOWER then powerCrit (c.word 0)
  else if c.op = opKEY then c.act != 3
  else c.op == opCTX || c.op == opGRAFT || c.op == opRESET || c.op == opTIME

/-- What LOADWAIT lets P2 do: READ in GLB, STATUS, and WRITEs without CRIT of GLB_LOADCTL and the load window (R655). -/
def loadAllows (c : Cmd) : Bool :=
  let glb := (blockAt c.addr.toNat).kind = .glb
  (c.op == opREAD && glb) || c.op == opSTATUS ||
  (c.op == opWRITE && c.ctr.isNone && glb && (wordsIn c.addr.toNat c.payload.length).all (fun a => a == R.GLB_LOADCTL || decide (0x8000 ≤ a)))

/-- Step 7: DENIED. -/
def denied (s : State) (p : Nat) (c : Cmd) : Bool :=
  if inLoadWait s then !loadAllows c
  else !(permBits s p c).all (permits s p) || (c.ctr.isNone && opCrit s p c)

/-- A number as two words, low word first (R526, R547). -/
def twoWordsOf (n : Nat) : List Word := [wordOf (n % 2 ^ 32), wordOf (n / 2 ^ 32 % 2 ^ 32)]

/-- Steps 3 to 7 of R516: the refusal and its response words, if any of them fails. -/
def earlyRefusal (s : State) (p : Nat) (r : Req) (c : Cmd) : Option (Nat × List Word) :=
  if (partGet s p).outst.length ≥ 32 then some (stBUSY, [])
  else if (partGet s p).outst.any (fun x => x.tag == c.tag) then some (stCONFLICT, [])
  else if !opcodes.contains c.op || r.flags &&& 0xFE != 0 || r.resv != 0 || decide (r.payload.length > 1024) then some (stRANGE, [])
  else if r.crit && !signed s p r then some (stAUTH_FAIL, [])
  else if r.crit && decide (r.ctr.toNat ≤ ctrReference s p) then some (stREPLAY, twoWordsOf (ctrReference s p))
  else if denied s p c then some (stDENIED, [])
  else none

-- ---------------------------------------------------------------- answers

/-- A request is refused at steps 3 to 7; one that finds no room in the store is not kept there (R516, R518). (DEDUCED, notes/assumptions/26.md.) -/
def refuseCmd (p : Nat) (c : Cmd) (st : Nat) (pay : List Word) (s : State) : State :=
  let s := noteRefusal p st s
  let kept := st != stBUSY
  partMod p (fun u => { u with outst := if kept then u.outst ++ [c] else u.outst
                               resp := u.resp ++ [{ cmd := c, status := st, race := false, payload := pay, kept := kept }] }) s

/-- A command joins the store of its port (R518). (DEDUCED, notes/assumptions/26.md.) -/
def bookIn (p : Nat) (c : Cmd) (s : State) : State := partMod p (fun u => { u with outst := u.outst ++ [c] }) s

/-- What executing a command comes to: an answer, or none yet, and the state. -/
abbrev Ran := Option (Nat × List Word) × State

def ran (st : Nat) (pay : List Word) (s : State) : Ran := (some (st, pay), s)

/-- A command in command order waits; its port keeps when it began to wait (R33). (DEDUCED, notes/assumptions/35.md.) -/
def park (p : Nat) (c : Cmd) (s : State) : State :=
  let c' : Cmd := { c with since := some (c.since.getD s.elapsed) }
  let s := partMod p (fun u => { u with outst := u.outst.map (fun x => if x = c then c' else x) }) s
  { s with stalled := s.stalled ++ [(p, c')] }

/-- A command waits for the owner of its target, whose side it wakes (R31, R612, R691). (DEDUCED, notes/assumptions/35.md.) -/
def stall (p : Nat) (c : Cmd) (s : State) : Ran := (none, startWake .field 0x0B (park p c s))

/-- The checks before an access to n words from an address: LINK_DOWN without a lane to the field side, BUSY of a unit in L3 reset,
or a wait; else the command runs (R31, R34, R691). -/
def withOwner (p : Nat) (c : Cmd) (a n : Nat) (k : State → Ran) (s : State) : Ran :=
  let held := (wordsIn a n).any (unitHeld s)
  if fieldBlk (blockAt a).kind then
    if fieldAway s then ran stLINK_DOWN [] s
    else if held then ran stBUSY [] s
    else if ownerAway s a then stall p c s
    else k (tileWakes a s)
  else if held then ran stBUSY [] s
  else k s

-- ---------------------------------------------------------------- READ and WRITE (R535 to R538, R161 to R174)

def runRead (p : Partner) (c : Cmd) (s : State) : Ran :=
  let a := c.addr.toNat
  let n := (c.word 0).toNat
  let win := (blockAt a).kind = .win
  if c.payload.length != 1 || a % 4 != 0 || n == 0 || decide (n > 1024) || (win && decide (n > 256)) then ran stRANGE [] s
  else withOwner p.val c a n (fun s =>
    if win then
      match winReadBad s a n with
      | some st => ran st [] s
      | none => (none, winEnqueue p c false a n [] s)
    else
      let x := readBlock a n s
      ran (if overruns a n then stOVERRUN else stOK) x.1 (onlyIf ((blockAt a).kind == .qmem) (memErrs c.mem) x.2)) s

def runWrite (p : Partner) (c : Cmd) (took : Word) (s : State) : Ran :=
  let a := c.addr.toNat
  let n := c.payload.length
  if n == 0 || a % 4 != 0 then ran stRANGE [] s
  else if inLoadWait s then
    let x := loadWords (wordsOf a c.payload) s
    ran x.1 [] x.2
  else if heldByOther s p.val && writeCrit s p.val c then ran stLOCKED [] s
  else withOwner p.val c a n (fun s =>
    if (blockAt a).kind = .win then
      match winWriteBad s a n with
      | some st => ran st [] s
      | none => (none, winEnqueue p c true a n c.payload s)
    else
      let x := writeBlock (some p.val) c.ctr.isSome (fun _ => false) took a c.payload s
      ran x.1 [] x.2) s

-- ---------------------------------------------------------------- queues (R539 to R546)

/-- The queue registers, for R34 and R691. -/
def trellisAddr : Nat := 0x250000

/-- Port p may use queue q (R543). -/
def queueOk (s : State) (q p : Nat) : Bool := decide (q ≤ 127) && qEn s q && qSub s q p

/-- The stream of queue q to port p is on. -/
def streamsTo (s : State) (q p : Nat) : Bool := (partGet s p).streams.contains q

/-- POP and PEEK (R540, R541, R543, R546). -/
def runPop (p : Nat) (c : Cmd) (s : State) : Ran :=
  let q := c.addr.toNat
  let w := (c.word 0).toNat
  let maxw := bitsOf w 15 0
  let pop := c.op == opPOP
  if c.payload.length != 1 || bitsOf w 30 16 != 0 || (!pop && bitOf w 31) || outside maxw 4115 16384 || decide (q > 127) then ran stRANGE [] s
  else withOwner p c trellisAddr 1 (fun s =>
    if !queueOk s q p then ran stRANGE [] s
    else if streamsTo s q p then ran stCONFLICT [] s
    else
      let x := delivery s q (if pop then dlvOf s q p else ackOf s q p) maxw (ckqBad c.mem)
      let s := memErrs c.mem s
      let s := if pop then setReg (R.TR_SUB_DLV q p) (wordOf x.2) s else s
      ran stOK x.1 (if pop && bitOf w 31 then moveAck q p x.2 s else s)) s

/-- ACK (R542, R543). -/
def runAck (p : Nat) (c : Cmd) (s : State) : Ran :=
  let q := c.addr.toNat
  let w := (c.word 0).toNat
  if c.payload.length != 1 || bitsOf w 31 23 != 0 || decide (q > 127) then ran stRANGE [] s
  else withOwner p c trellisAddr 1 (fun s =>
    if !queueOk s q p then ran stRANGE [] s
    else match ackTarget s q p w with
      | some ptr => ran stOK [] (moveAck q p ptr s)
      | none => ran stRANGE [] s) s

/-- The stream destination of an Ethernet port is zero (R544). -/
def noDest (s : State) (p : Nat) : Bool := reg s (R.P_ETH_DSTLO p) == 0 && fld s (R.P_ETH_DSTHI p) F.P_ETH_DSTHI_DST == 0

/-- SUBSCRIBE (R544, R545, R714, R720). -/
def runSubscribe (p : Nat) (c : Cmd) (s : State) : Ran :=
  let q := c.addr.toNat
  let act := c.act
  let config := act == 1 || act == 2
  if config && heldByOther s p then ran stLOCKED [] s
  else if c.payload.length != 1 || c.hi != 0 || outside act 1 5 || decide (q > 127) then ran stRANGE [] s
  else match (if config then s.graft else none) with
    | some g =>
      let x := stageItem g { kind := gkSub, words := [wordOf q, wordOf act, wordOf p] } s
      ran x.1 x.2.1 x.2.2
    | none => withOwner p c trellisAddr 1 (fun s =>
      let restart (s : State) : State := partMod p (fun u => { u with part := tabSet (fun _ => 0) u.part q 0 }) s
      let off (s : State) : State := partMod p (fun u => { u with streams := u.streams.filter (· != q) }) s
      if config then
        match subRefused s q act p with
        | some st => ran st [] s
        | none => ran stOK [] (subAct q act p s)
      else if !qSub s q p then ran stRANGE [] s
      else if act = 3 then ran stOK [] (restart (setReg (R.TR_SUB_DLV q p) (reg s (R.TR_SUB_ACK q p)) s))
      else if act = 4 then
        if decide (p ≥ 2) || noDest s p then ran stRANGE [] s
        else if streamsTo s q p then ran stOK [] s
        else ran stOK [] (restart (partMod p (fun u => { u with streams := u.streams ++ [q] }) s))
      else ran stOK [] (restart (off s))) s

-- ---------------------------------------------------------------- CTX and GRAFT

/-- CTX (R197 to R203, R714, R720). -/
def runCtx (p : Nat) (c : Cmd) (s : State) : Ran :=
  let idx := c.addr.toNat
  let ws := c.payload.drop 1
  if heldByOther s p then ran stLOCKED [] s
  else if c.payload.isEmpty || c.hi != 0 then ran stRANGE [] s
  else match s.graft with
    | some g =>
      if fieldAway s then ran stLINK_DOWN [] s
      else
        let x := stageCtx g idx c.act ws s
        ran x.1 x.2.1 x.2.2
    | none => withOwner p c 0x210000 1 (fun s =>
      match ctxCheck s idx c.act ws false with
      | .error st => ran st [] (ctxRefused st s)
      | .ok k =>
        let x := ctxDirect k c.act ws s
        ran x.1 (if idx == 0xFFFFFFFF then [wordOf k] else []) x.2) s

/-- GRAFT (R713 to R739). COMMIT waits for the owners of what its items address, and every action for a firmware hand-over. -/
def runGraft (p : Partner) (c : Cmd) (s : State) : Ran :=
  if heldByOther s p.val then ran stLOCKED [] s
  else if c.payload.isEmpty || c.hi != 0 || c.addr != 0 then ran stRANGE [] (graftHeardBy p.val c s)
  else if s.boot.handover.isSome then (none, { s with stalled := s.stalled ++ [(p.val, c)] })
  else if c.act == 3 && laneAvail s && (graftAddrs s).any (ownerAway s) then stall p.val c s
  else
    let x := graftAction p c.act (c.payload.drop 1) s
    if x.2.2.1 then (none, { x.2.2.2 with boot := { x.2.2.2.boot with handover := some (p.val, c, x.1) } })
    else ran x.1 x.2.1 x.2.2.2

-- ---------------------------------------------------------------- POWER, RESET, TIME (R329, R636, R676)

/-- POWER (R676 to R678). -/
def runPower (p : Nat) (c : Cmd) (s : State) : Ran :=
  let w := c.word 0
  if c.addr != 0 || c.payload.length != 1 then ran stRANGE [] s
  else match powerRefused s w with
    | some st => ran st [] s
    | none =>
      if powerStalls s w then stall p c s
      else if powerChanges s w then ran stACCEPTED [powerWordNow s] (powerActs w s)
      else ran stOK [powerWordNow s] s

def rsLevel (w : Word) : Nat := bitsOf w.toNat 1 0
def rsReload (w : Word) : Bool := bitOf w.toNat 2
def rsTarget (w : Word) : Nat := bitsOf w.toNat 7 4
def rsIndex (w : Word) : Nat := bitsOf w.toNat 15 8

/-- What the word of R636 reaches; none where it is coded otherwise. -/
def resetReach (w : Word) : Option Reach :=
  let i := rsIndex w
  let code := rsLevel w + b2n (rsReload w) * 4 + rsTarget w * 16 + i * 256
  if w.toNat != code || (rsReload w && (rsLevel w != 1 || rsTarget w != 1)) then none
  else
    let plain (r : Reach) : Option Reach := if i = 0 then some r else none
    match rsLevel w, rsTarget w with
    | 0, 0 => plain .device
    | 1, 0 => plain (.side .host)
    | 1, 1 => plain (.side .field)
    | 2, 0 => plain (.die .hb)
    | 2, 1 => plain (.die .fh)
    | 2, 2 => if h : i < 6 then some (.die (.tile ⟨i, h⟩)) else none
    | 3, 0 => if h : i < 48 then some (.port ⟨i, h⟩) else none
    | 3, 1 => if h : i < 6 then some (.filter ⟨i, h⟩) else none
    | 3, 2 => if h : i < 17 then some (.engine ⟨i, h⟩) else none
    | 3, 3 => plain .hbCore
    | 3, 4 => plain .fhCtl
    | 3, 5 => if i = 0 then some (.lanes .host) else if i = 1 then some (.lanes .field) else none
    | _, _ => none

/-- The source that the word makes, as source `no` of the reset map (R618, R636, R638). -/
def resetSource (no : Nat) (w : Word) (r : Reach) : SrcOn :=
  { no := no, level := rsLevel w, reach := r, on := false, detail := 0, cold := rsLevel w == 0 || rsReload w }

/-- RESET (R636, R637). -/
def runReset (p : Nat) (c : Cmd) (s : State) : Ran :=
  let w := c.word 0
  let retired : Bool := match resetReach w with
    | some (.engine e) => engState s e.val == 2
    | _ => false
  if c.addr != 0 || c.payload.length != 1 || (resetReach w).isNone then ran stRANGE [] s
  else if rsLevel w < srcLevel s 24 then ran stDENIED [] s
  else if retired then ran stRANGE [] s
  else ran stOK [] { s with boot := { s.boot with resets := s.boot.resets ++ [{ port := p, tag := c.tag, word := w }] } }

/-- TIME (R329 to R333). -/
def runTime (p : Partner) (c : Cmd) (s : State) : Ran :=
  if c.addr != 0 || c.payload.isEmpty || c.hi != 0 then ran stRANGE [] s
  else
    let x := timeAction c.act (c.payload.drop 1) (some (p, c)) s
    if x.2.2.1 then (none, x.2.2.2) else ran x.1 x.2.1 x.2.2.2

-- ---------------------------------------------------------------- KEY and STATUS (R527 to R531, R547)

/-- A key slot takes a key, in one NV write; a slot it leaves EMPTY keeps its count (R527, R531). (DEDUCED, notes/assumptions/48.md.) -/
def setKey (i : Nat) (k : Option (List Byte)) (s : State) : State :=
  let old := keySlot s i
  let new : KeySlot := { key := k, loads := if k.isSome then min (old.loads + 1) 0xFFFF else old.loads }
  nvPulse s.nv 50000 { s with nv := { s.nv with keys := tabSet (fun _ => ({} : KeySlot)) s.nv.keys i new } }

/-- KEY (R528 to R530). (DEDUCED, notes/assumptions/48.md.) -/
def runKey (p : Nat) (c : Cmd) (s : State) : Ran :=
  let i := c.addr.toNat
  let w := (c.word 0).toNat
  let kek := bitsOf w 10 8
  let n := c.payload.length
  let body := wordsBytes (c.payload.drop 1)
  let named := (List.range 4).any (slotUser s i)
  if decide (i > 7) || c.payload.isEmpty then ran stRANGE [] s
  else if c.act = 1 then
    if w != 1 + kek * 256 || (n != 7 && n != 11) || kek == i then ran stRANGE [] s
    else match (keySlot s kek).key with
      | none => ran stRANGE [] s
      | some k =>
        match kwUnwrap k body with
        | none => ran stRANGE [] s
        | some new => if named then ran stCONFLICT [] s else ran stOK [] (setKey i (some new) s)
  else if c.act = 2 then
    if w != 2 || n != 1 then ran stRANGE [] s
    else if named then ran stCONFLICT [] s
    else ran stOK [] (setKey i none s)
  else if c.act = 3 then
    if w != 3 || (n != 5 && n != 9) then ran stRANGE [] s
    else if (List.range 8).any (fun j => (keySlot s j).key.isSome) || decide (p < 2) || c.ctr.isSome || fuseBit s 1 then ran stDENIED [] s
    else ran stOK [] (evt R.SEC_EVT F.SEC_EVT_PROV (setKey i (some body) s))
  else ran stRANGE [] s

/-- Bits q of a word from a test on 32 queues. -/
def queueBits (f : Nat → Bool) (from_ : Nat) : Word := wordOf (sumNat ((List.range 32).map (fun i => b2n (f (from_ + i)) * 2 ^ i)))

/-- The 16 words of STATUS (R547). (DEDUCED, notes/assumptions/36.md.) -/
def statusWords (s : State) (p : Nat) : List Word :=
  let u := partGet s p
  [view s R.GLB_ID, view s R.GLB_SILREV,
   wordOf (fpwr s + hpwr s * 2 ^ 4 + tbState s * 2 ^ 8 + fState s * 2 ^ 10 + b2n (laneUp s 0) * 2 ^ 12 + b2n (laneUp s 1) * 2 ^ 13),
   reg s R.RST_CAUSE, wordOf (fld s R.PWR_LASTWAKE F.PWR_LASTWAKE_SRC)] ++
  twoWordsOf u.lastCtr ++ [wordOf (min u.outst.length 32 + min u.resp.length 32 * 2 ^ 8)] ++
  [0, 32, 64, 96].map (queueBits (fun q => hasWaiting s q p)) ++
  [0, 32, 64, 96].map (queueBits (fun q => reg s (R.Q_EVT q) != 0))

def runStatus (p : Nat) (c : Cmd) (s : State) : Ran :=
  if c.addr != 0 || !c.payload.isEmpty then ran stRANGE [] s else ran stOK (statusWords s p) s

-- ---------------------------------------------------------------- execution

/-- Step 8 of R516: the opcode's own checks and its effect. -/
def runCmd (p : Partner) (c : Cmd) (took : Word) (s : State) : Ran :=
  if c.op = opREAD then runRead p c s
  else if c.op = opWRITE then runWrite p c took s
  else if c.op = opPOP ∨ c.op = opPEEK then runPop p.val c s
  else if c.op = opACK then runAck p.val c s
  else if c.op = opSUBSCRIBE then runSubscribe p.val c s
  else if c.op = opCTX then runCtx p.val c s
  else if c.op = opGRAFT then runGraft p c s
  else if c.op = opPOWER then runPower p.val c s
  else if c.op = opRESET then runReset p.val c s
  else if c.op = opTIME then runTime p c s
  else if c.op = opKEY then runKey p.val c s
  else runStatus p.val c s

/-- The COMMIT of the open Graft waits for an owner of what its items address. -/
def commitWaits (s : State) : Bool :=
  s.graft.isSome && s.boot.handover.isNone && commitTaken s

/-- A READ of host registers of which no item of the open Graft writes a word. -/
def readsApart (s : State) (c : Cmd) : Bool :=
  c.op == opREAD && !fieldBlk (blockAt c.addr.toNat).kind &&
  (match s.graft with
   | some g => g.items.all (fun it => it.kind != giWRITE ||
       !(wordsOf (it.word 0) (it.words.drop 1)).any (fun x => (wordsIn c.addr.toNat (c.word 0).toNat).contains x.1))
   | none => true)

/-- A command waits behind an earlier one that still waits, so that it observes what that one writes and does not overtake it: any
command whose outcome a waiting COMMIT can change, and a command that stages behind a waiting change (R26, R28, R29, R39). (DEDUCED,
notes/assumptions/64.md.) -/
def waitsBehind (s : State) (c : Cmd) : Bool :=
  let apart := c.op == opSTATUS || c.op == opPOWER || c.op == opRESET || readsApart s c
  let stages := s.graft.isSome && (c.op == opGRAFT || c.op == opCTX || (c.op == opSUBSCRIBE && (c.act == 1 || c.act == 2)))
  (commitWaits s && !apart) ||
  (stages && s.stalled.any (fun x => x.2.op == opWRITE || x.2.op == opCTX || x.2.op == opSUBSCRIBE))

/-- A command enters command order and runs (R518), behind what it must not overtake; while the core pair is away it waits in its port
store (R612, R679). -/
def execute (p : Partner) (c : Cmd) (took : Word) (s : State) : State :=
  if coreAway s then { s with stalled := s.stalled ++ [(p.val, c)] }
  else if waitsBehind s c then park p.val c s
  else
    match runCmd p c took s with
    | (some (st, pay), s') => answerCmd p.val c st false pay s'
    | (none, s') => s'

/-- The bound write that a critical command needs fails: a command that would execute is answered INTERNAL, and nothing else
happens (R524). -/
def boundFails (p : Partner) (c : Cmd) (took : Word) (s : State) : State :=
  let x := runCmd p c took s
  let refused : Option (Nat × List Word) := match x.1 with
    | some (st, pay) => if countsFor st then none else some (st, pay)
    | none => none
  match refused with
  | some (st, pay) => answerCmd p.val c st false pay x.2
  | none => answerCmd p.val c stINTERNAL false [] (graftHeardBy p.val c (evt R.SEC_EVT F.SEC_EVT_NVFAIL s))

/-- The command's counter needs a new bound (R524). (DEDUCED, notes/assumptions/8.md.) -/
def needsBound (s : State) (p : Nat) (c : Cmd) : Bool := match c.ctr with | some x => decide (nvBound s p ≤ x) | none => false

/-- A request that passed the transport checks is judged (R516 from step 2 on). `took` is the mask of fuse bits that program. -/
def judgeReq (h : Hdr) (r : Req) (took : Word) (s : State) : State :=
  let p := h.port
  let c := cmdOf r h
  if !reqCrcHolds r then evt (R.P_EVT p.val) F.P_EVT_CRC (cnt (R.P_CNT p.val 2) s)
  else
    let s := cnt (R.P_CNT p.val 0) s
    match earlyRefusal s p.val r c with
    | some (st, pay) => refuseCmd p.val c st pay (graftHeardBy p.val c s)
    | none =>
      let s := bookIn p.val c s
      if h.nvFails && needsBound s p.val c then boundFails p c took s else execute p c took s

/-- The fall of a serial host port's select wakes a sleeping host side, and unwinds an entry (R680, R687). (DEDUCED, notes/assumptions/30.md.) -/
def selectFalls (p : Nat) (s : State) : State :=
  if p ≥ 2 ∧ portEn s p ∧ hostHears s then startWake .host (0x07 + p) s else s

/-- A request arrives whole on a port. One that only wakes the host side is not taken. -/
def request (h : Hdr) (r : Req) (took : Word) (s : State) : State :=
  let s' := selectFalls h.port.val s
  if hears s h.port.val then judgeReq h r took s' else s'

-- ---------------------------------------------------------------- commands that waited

/-- A command that waited may go on: its owner is back, or the field side is off for good. (DEDUCED, notes/assumptions/35.md.) -/
def goesOn (s : State) : Bool := laneAvail s || s.pow.field.st = .off || s.pow.field.st = .wakefail

/-- The commands that wait are tried again in command order (R31, R612, R691); one that must still wait does. Commands to a field
side without a lane wait for R602 or R603. (DEDUCED, notes/assumptions/35.md.) -/
def runStalled (s : State) : State :=
  if s.stalled.isEmpty then s
  else
    eachOf s.stalled (fun x s =>
      if h : x.1 < 4 then
        let f := takeFree s
        if goesOn s && !(x.2.op == opPOWER && s.pow.field.st = .waking) then execute ⟨x.1, h⟩ x.2 (wordOf f.1) f.2 else { s with stalled := s.stalled ++ [x] }
      else s) { s with stalled := [] }

/-- The outcome of a command or event: what waited is tried again, the waiting items are counted and the shared lines settle. (DESIGN CHOICE, notes/assumptions/6.md.) (DEDUCED, notes/assumptions/49.md.) -/
def settled (s : State) : Host.Outcome State Fault Refusal := done (runStalled s)

end Sys2Proof.Machine
end

