-- ==== Sys2Proof/Machine/Ether.lean ====
section
/-! DEFINITION. The Ethernet ports: receiving, reassembly, forwarding, pause, responses and stream frames (R548 to R561), and the
MDIO master (R574). -/

namespace Sys2Proof.Machine

def ethCnt (e i : Nat) (s : State) : State := cnt (R.P_ETH_CNT e i) s

/-- The bytes of a frame as it crosses a buffer: addresses, tag, EtherType, body and FCS. -/
def frameBytes (f : EthFrame) : Nat := 18 + (if f.vid.isSome then 4 else 0) + f.body.length

/-- The EtherType of PTP frames (R340). -/
def ptpType : BitVec 16 := 0x88F7

/-- A frame is for the port: its address, and no tag that marks it as another's (R550, R551). -/
def addressedTo (s : State) (e : Nat) (f : EthFrame) : Bool :=
  let vid := BitVec.ofNat 12 (fld s (R.P_ETH_TYPE e) F.P_ETH_TYPE_VID)
  let other := match f.vid with | some v => ethCtl s e F.P_ETH_CTL_VLAN && v != vid | none => false
  f.dst == etherAddr s (R.P_ETH_MACLO e) (R.P_ETH_MACHI e) && !other

-- ---------------------------------------------------------------- reassembly (R552, R553)

/-- A request is given up at step 1 of R516: FRAG is latched and the frame counts as dropped. -/
def fragFails (e : Nat) (s : State) : State := evt (R.P_EVT e) F.P_EVT_FRAG (ethCnt e 3 s)

/-- The receive buffer holds the requests being reassembled; past 3/4 full a PAUSE is sent, below 1/4 its release (R559). (DEDUCED, notes/assumptions/28.md.) -/
def pauseFollow (e : EthNo) (s : State) : State :=
  let n := sumNat ((partGet s e.val).reasm.map (fun x => x.bytes.length))
  let s := partMod e.val (fun u => { u with rxFill := n }) s
  let xoff := flag s (R.P_ETH_STAT e.val) F.P_ETH_STAT_XOFF
  if ethCtl s e.val F.P_ETH_CTL_PAUSETX && !xoff && decide (n > 12288) then
    addSent (.pause e (fld s (R.P_ETH_PAUSE e.val) F.P_ETH_PAUSE_QUANTA)) (setFlag (R.P_ETH_STAT e.val) F.P_ETH_STAT_XOFF true (ethCnt e.val 1 s))
  else if xoff && decide (n < 4096) then addSent (.pause e 0) (setFlag (R.P_ETH_STAT e.val) F.P_ETH_STAT_XOFF false (ethCnt e.val 1 s))
  else s

def dropReasm (e : Nat) (src : BitVec 48) (msg : BitVec 16) (s : State) : State :=
  partMod e (fun u => { u with reasm := u.reasm.filter (fun x => !(x.src == src && x.msg == msg)) }) s

/-- The header that a request received as bytes is judged with: its Signet and CRC stand in its own fields. -/
def hdrOf (p : Partner) (src : BitVec 48) (msg : BitVec 16) : Hdr :=
  { port := p, flags := 0, tag := 0, resv := 0, ctr := 0, signet := 0, crc := 0, src := src, msg := msg, nvFails := false }

/-- A whole request's bytes have arrived: a frame that its LEN and CRIT do not fit is given up at step 1. (DEDUCED, notes/assumptions/27.md.) -/
def requestBytes (e : EthNo) (src : BitVec 48) (msg : BitVec 16) (b : List Byte) (s : State) : State :=
  match parseReq b with
  | some r => judgeReq (hdrOf ⟨e.val, by omega⟩ src msg) r (wordOf 0xFFFFFFFF) s
  | none => ethCnt e.val 3 s

/-- A reassembly whose 1 ms is over (R553). -/
def reasmLate (s : State) (x : Reasm) : Bool := decide (x.since + 1000000 < s.elapsed)

/-- The reassemblies whose 1 ms is over are given up (R553). (DEDUCED, notes/assumptions/28.md.) -/
def reasmPurge (e : Nat) (s : State) : State :=
  eachOf ((partGet s e).reasm.filter (reasmLate s)) (fun x s => fragFails e (dropReasm e x.src x.msg s)) s

/-- One fragment of a request; one that comes more than 1 ms after the first is too late (R552, R553). (DEDUCED, notes/assumptions/28.md.) -/
def fragment (e : EthNo) (src : BitVec 48) (b : List Byte) (s0 : State) : State :=
  let msg := BitVec.ofNat 16 (leNat ((b.drop 2).take 2))
  let n := leNat ((b.drop 4).take 2)
  let data := (b.drop 8).take n
  let idx := bitsOf (b.getD 1 0).toNat 6 0
  let more := (b.getD 1 0).getLsbD 7
  let mine (x : Reasm) : Bool := x.src == src && x.msg == msg
  let s := reasmPurge e.val s0
  if b.length < 8 + n then ethCnt e.val 3 s
  else match (partGet s e.val).reasm.find? mine with
    | none =>
      if idx != 0 then (if (partGet s0 e.val).reasm.any mine then s else fragFails e.val s)
      else if !more then requestBytes e src msg data s
      else if (partGet s e.val).reasm.length ≥ 4 then fragFails e.val s
      else partMod e.val (fun u => { u with reasm := u.reasm ++ [{ src := src, msg := msg, next := 1, bytes := data, since := s.elapsed }] }) s
    | some x =>
      let s := dropReasm e.val src msg s
      if idx != x.next then fragFails e.val s
      else if more then partMod e.val (fun u => { u with reasm := u.reasm ++ [{ x with next := x.next + 1, bytes := x.bytes ++ data }] }) s
      else requestBytes e src msg (x.bytes ++ data) s

-- ---------------------------------------------------------------- receiving (R550, R557, R559)

/-- The other Ethernet port. -/
def otherEth (e : EthNo) : Nat := 1 - e.val

/-- A frame addressed elsewhere is forwarded to the other port, or dropped (R557). (DEDUCED, notes/assumptions/28.md.) -/
def forward (e : EthNo) (f : EthFrame) (s : State) : State :=
  let o := otherEth e
  if !ethCtl s 0 F.P_ETH_CTL_FWD || !ethCtl s 1 F.P_ETH_CTL_FWD then s
  else if !hears s o || decide (sumNat ((partGet s o).fwd.map frameBytes) + frameBytes f > 32768) then ethCnt e.val 5 s
  else ethCnt e.val 4 (partMod o (fun u => { u with fwd := u.fwd ++ [f] }) s)

/-- So many quanta of 512 bit times at the speed of port e, in ns (R559, R573). (PRESUMED, notes/assumptions/66.md.) -/
def quantaNs (s : State) (e quanta : Nat) : Nat :=
  match fld s (R.P_ETH_STAT e) F.P_ETH_STAT_SPEED with
  | 0 => quanta * 51200
  | 1 => quanta * 5120
  | 2 => quanta * 512
  | _ => ceilDiv (quanta * 1024) 5

/-- A PAUSE frame (R559). -/
def pauseReceived (e : EthNo) (quanta : Nat) (s : State) : State :=
  let s := ethCnt e.val 6 s
  if ethCtl s e.val F.P_ETH_CTL_PAUSERX then
    ptpFlush e (partMod e.val (fun u => { u with pauseEnd := s.elapsed + quantaNs s e.val quanta }) (setFlag (R.P_ETH_STAT e.val) F.P_ETH_STAT_PAUSED (quanta != 0) s))
  else s

/-- The quanta of the pause in force have passed (R559). -/
def pauseEnds (e : EthNo) (s : State) : State :=
  if paused s e.val then ptpFlush e (setFlag (R.P_ETH_STAT e.val) F.P_ETH_STAT_PAUSED false (toElapsed (partGet s e.val).pauseEnd s)) else s

/-- A frame reaches port e (R550 to R559). A PTP message has a row of its own (R341), so a frame of that EtherType only counts here. (DEDUCED, notes/assumptions/28.md.) -/
def frameReceived (e : EthNo) (f : EthFrame) (s : State) : State :=
  if !hears s e.val then s
  else
    let s := ethCnt e.val 0 s
    if !f.fcsOk then ethCnt e.val 2 s
    else match f.pause with
      | some q => pauseReceived e q s
      | none =>
        if f.etype == ptpType then s
        else if addressedTo s e.val f then
          let vlanBad := f.vid.isSome && !ethCtl s e.val F.P_ETH_CTL_VLAN
          let mine := f.etype.toNat == fld s (R.P_ETH_TYPE e.val) F.P_ETH_TYPE_ETYPE
          if vlanBad || !mine || f.body.getD 0 0 != 1 then ethCnt e.val 3 s
          else pauseFollow e (fragment e f.src f.body s)
        else forward e f s

/-- A reassembly is 1 ms old (R553). -/
def reassemblyEnds (e : EthNo) (msg : BitVec 16) (s : State) : State :=
  match (partGet s e.val).reasm.find? (fun x => x.msg == msg) with
  | some x => pauseFollow e (fragFails e.val (dropReasm e.val x.src x.msg (toElapsed (x.since + 1000000) s)))
  | none => s

/-- Signal energy reaches the receiver (R560, R573). -/
def energySeen (e : EthNo) (s : State) : State :=
  let asleep := s.pow.host.st = .sleep || s.pow.host.st = .deep
  let s := setFlag (R.P_ETH_STAT e.val) F.P_ETH_STAT_ENERGY true s
  if asleep && portEn s e.val && ethCtl s e.val F.P_ETH_CTL_EDWAKE then hostRequest 2 (7 + e.val) s else s

/-- The link comes up, where the host side runs (R509, R561). -/
def linkComesUp (e : Nat) (s : State) : State := if hostHears s && !hostSleeps s then ethUp e s else s

-- ---------------------------------------------------------------- sending (R519, R553 to R558)

/-- A response leaves in these frames: its command is no longer outstanding (R518, R572). After that of a RESET the 20 µs run (R637). -/
def responseLeaves (p : Partner) (i : Nat) (frames : List (List Byte)) (s : State) : State :=
  match (partGet s p.val).resp[i]? with
  | none => s
  | some r =>
    let s := partMod p.val (fun u => { u with resp := u.resp.eraseIdx i, outst := if r.kept then dropCmd r.cmd u.outst else u.outst }) s
    let s := resetGone p.val r s
    addSent (.response p r frames) (cnt (R.P_CNT p.val 1) s)

/-- A transport header before its bytes (R552). -/
def transport (kind frag msg : Nat) (b : List Byte) : List Byte :=
  leBytes 1 kind ++ leBytes 1 frag ++ leBytes 2 msg ++ leBytes 2 b.length ++ leBytes 2 0 ++ b

/-- The frames that a response goes in, each from its destination address to the last byte before the FCS (R517, R551 to R553). -/
def respFrames (s : State) (e : Nat) (r : Resp) : List (List Byte) :=
  let b := respBytes r
  let n := fld s (R.P_ETH_MTU e) F.P_ETH_MTU_MTU - 8
  let last := ceilDiv b.length n - 1
  (List.range (last + 1)).map (fun i =>
    etherHead s e r.cmd.src ++ transport 2 (i + (if i = last then 0 else 128)) r.cmd.msg.toNat ((b.drop (i * n)).take n))

/-- The i-th waiting response of an Ethernet port leaves, in as many frames as it needs. -/
def ethResponse (e : EthNo) (i : Nat) (s : State) : State :=
  if !hears s e.val || paused s e.val then s
  else match (partGet s e.val).resp[i]? with
    | none => s
    | some r =>
      let l := respFrames s e.val r
      cntAdd (R.P_ETH_CNT e.val 1) l.length (responseLeaves ⟨e.val, by omega⟩ i l s)

/-- A stream frame's bytes after the EtherType (R554). -/
def streamBytes (dep q part nrec sseq offs : Nat) (desc : List Word) (body : List Byte) : List Byte :=
  let tail := leBytes 4 (tNs dep) ++ leBytes 4 (tSecLo dep) ++ leBytes 1 (q + part * 128) ++ leBytes 1 nrec ++ leBytes 2 sseq ++
    leBytes 4 offs ++ wordsBytes desc ++ body
  transport 3 0 0 tail

/-- The descriptor of a record in a frame (R539). -/
def descriptor (e : Ent) (wrap : Bool) : Word := wordOf (e.lines + (if wrap then 2 ^ 31 else 0))

/-- The next stream frame of queue q to port e: its bytes, the delivery pointer past it, and the bytes of the record at the
front sent in PART frames so far, and how many records it completes (R554, R555). Those at the positions `bad` fail CK-Q, and those of
an unrecoverable Clasp frame carry CORRUPT too (R50, R51). (DESIGN CHOICE, notes/assumptions/29.md.) -/
def nextStream (s : State) (e q : Nat) (bad : List Nat) : Option (List Byte × Nat × Nat × Nat) :=
  let u := partGet s e
  let mtu := fld s (R.P_ETH_MTU e) F.P_ETH_MTU_MTU
  let sseq := tabGet (fun _ => 0) u.sseq q
  let ptr := dlvOf s q e
  let rest := fromPtr ptr (queueGet s q).ents
  let body (i : Nat) (x : Ent) : List Byte := wordsBytes (recWords s q (bad.contains i || decide (i < u.badRecs)) x)
  let dep := masterNs s + fld s (R.TB_PTP_LAT e) F.TB_PTP_LAT_TX
  let wraps := match rest with | x :: _ => x.kind == kFill | [] => false
  match (takeRecs ((mtu - 24) / 4) false rest).take 255 with
  | (x, w) :: more =>
    let l := (x, w) :: more
    let last := (l.getLast?.map (·.1)).getD x
    some (streamBytes dep q 0 l.length sseq (16 * x.off) (l.map (fun y => descriptor y.1 y.2)) (l.zipIdx.flatMap (fun y => body y.2 y.1.1)),
      pastEnt (qLines s q) last, 0, l.length)
  | [] =>
    match rest.filter (fun x => x.kind != kFill) with
    | [] => none
    | x :: _ =>
      let at_ := tabGet (fun _ => 0) u.part q
      let n := min (mtu - 28) (16 * x.lines - at_)
      let ends := decide (at_ + n = 16 * x.lines)
      some (streamBytes dep q 1 0 sseq (16 * x.off + at_) [descriptor x wraps] (((body 0 x).drop at_).take n),
        if ends then pastEnt (qLines s q) x else ptr, if ends then 0 else at_ + n, b2n ends)

/-- Port e may send a frame of the lowest priority: nothing of a higher one waits (R558, R559). (DESIGN CHOICE, notes/assumptions/29.md.) -/
def mayStream (s : State) (e : Nat) : Bool := hears s e && !paused s e && (partGet s e).resp.isEmpty

/-- The records of queue q beyond port e's delivery pointer. -/
def streamRecs (s : State) (e q : Nat) : List Ent := (fromPtr (dlvOf s q e) (queueGet s q).ents).filter (fun x => x.kind != kFill)

/-- They fill a frame: they are more than the next frame takes, or leave no room in it for the shortest record (R556). (DEDUCED,
notes/assumptions/62.md.) -/
def streamFills (s : State) (e q : Nat) : Bool :=
  let mtu := fld s (R.P_ETH_MTU e) F.P_ETH_MTU_MTU
  let l := (takeRecs ((mtu - 24) / 4) false (fromPtr (dlvOf s q e) (queueGet s q).ents)).take 255
  decide (l.length < (streamRecs s e q).length) || l.length == 255 || decide (mtu < 24 + sumNat (l.map (fun y => 4 + 16 * y.1.lines)) + 20)

/-- The elapsed time at which the oldest of them has waited for FLUSH (R556). -/
def flushAt (s : State) (e q : Nat) : Nat :=
  ((streamRecs s e q).head?.map (·.wrote)).getD 0 + 1000 * fld s (R.P_ETH_FLUSH e) F.P_ETH_FLUSH_FLUSH

/-- A frame of queue q is to be sent on port e (R556). -/
def streamDue (s : State) (e q : Nat) : Bool :=
  streamsTo s q e && !(streamRecs s e q).isEmpty && (streamFills s e q || decide (flushAt s e q ≤ s.elapsed))

/-- The queue whose turn it is on port e: of those due, the first after the one served last, in ascending order and round (R556). -/
def streamTurn (s : State) (e : Nat) : Option Nat :=
  let last := (partGet s e).lastQ
  ((partGet s e).streams.filter (streamDue s e)).foldl
    (fun a q => match a with | some b => if (q + 127 - last) % 128 < (b + 127 - last) % 128 then some q else a | none => some q) none

/-- The path from the queues to port e is open. -/
def egressOpen (s : State) : Bool := !fieldAway s && !ownerAway s trellisAddr && !coreAway s

/-- The state at the moment a frame of queue q leaves port e on its own account: at once where one is due, else when the oldest of its
records has waited for FLUSH (R556). -/
def streamMoment (s : State) (e q : Nat) : State := if (streamTurn s e).isSome || !streamsTo s q e then s else toElapsed (flushAt s e q) s

/-- A stream frame of queue q leaves port e, in its turn (R551, R554 to R558). (DESIGN CHOICE, notes/assumptions/29.md.) -/
def streamLeaves (e : EthNo) (q : Nat) (mem : MemErr) (s0 : State) : State :=
  let s := streamMoment s0 e.val q
  let u := partGet s e.val
  if !mayStream s e.val || !egressOpen s || streamTurn s e.val != some q || (u.turn && !u.fwd.isEmpty) then s0
  else match nextStream s e.val q (ckqBad mem) with
    | none => s0
    | some (bytes, ptr, part, done) =>
      let s := setReg (R.TR_SUB_DLV q e.val) (wordOf ptr) (ethCnt e.val 1 (memErrs mem s))
      let sseq := (tabGet (fun _ => 0) u.sseq q + 1) % 65536
      let s := partMod e.val (fun u => { u with turn := true, lastQ := q, badRecs := u.badRecs - done, sseq := tabSet (fun _ => 0) u.sseq q sseq
                                                part := tabSet (fun _ => 0) u.part q part }) s
      addSent (.stream e q (etherHead s e.val (etherAddr s (R.P_ETH_DSTLO e.val) (R.P_ETH_DSTHI e.val)) ++ bytes)) s

/-- A stream frame could leave port e now. -/
def streamReady (s : State) (e : Nat) : Bool := egressOpen s && (streamTurn s e).isSome

/-- The oldest frame buffered for port e leaves, in turn with stream frames (R557, R558). (DESIGN CHOICE, notes/assumptions/29.md.) -/
def forwardLeaves (e : EthNo) (s : State) : State :=
  match (partGet s e.val).fwd with
  | [] => s
  | f :: rest =>
    if !mayStream s e.val || (!(partGet s e.val).turn && streamReady s e.val) then s
    else addSent (.forwarded e f) (ethCnt e.val 1 (partMod e.val (fun u => { u with fwd := rest, turn := false }) s))

-- ---------------------------------------------------------------- the MDIO master (R574)

/-- The management frame ends; a read leaves its value. -/
def mdioEnds (data : BitVec 16) (s : State) : State :=
  if !flag s R.P0_MDIO_CMD F.P0_MDIO_CMD_BUSY then s
  else
    let s := setFlag R.P0_MDIO_CMD F.P0_MDIO_CMD_BUSY false s
    if fld s R.P0_MDIO_CMD F.P0_MDIO_CMD_OP ≥ 2 then setFld R.P0_MDIO_CMD F.P0_MDIO_CMD_DATA data.toNat s else s

-- ---------------------------------------------------------------- a register READ that waits too long (R33, R520)

/-- A register READ, which the limit of R33 covers. -/
def plainRead (c : Cmd) : Bool :=
  c.op == opREAD && (blockAt c.addr.toNat).kind != .win && (blockAt c.addr.toNat).kind != .flash

/-- 250 µs have passed since a READ that waits reached the arbiter (R33, R520). (DEDUCED, notes/assumptions/32.md.) (DEDUCED, notes/assumptions/59.md.) -/
def readLimit (p : Partner) (tag : BitVec 16) (same : Bool) (s : State) : State :=
  match s.stalled.find? (fun x => x.1 == p.val && x.2.tag == tag && plainRead x.2) with
  | none => s
  | some x =>
    let c := x.2
    let n := (c.word 0).toNat
    let s := match c.since with | some e => toElapsed (e + 250000) s | none => s
    let s := { s with stalled := s.stalled.filter (· != x) }
    if same then
      let y := readBlock c.addr.toNat n s
      let s := raceHost (evt (R.P_EVT p.val) F.P_EVT_RACE y.2)
      answerCmd p.val c (if overruns c.addr.toNat n then stOVERRUN else stOK) true y.1 s
    else answerCmd p.val c stTIMEOUT false (List.replicate n 0) s

/-- The limit of a window READ that waits for its port (R171). -/
def windowLimit (n : Nat) (same : Bool) (rx : List Byte) (s : State) : State :=
  if (portGet s n).winQ.any (fun w => !w.write) then winReadLimit n same rx s
  else match s.stalled.find? (fun x => x.2.op == opREAD && (blockAt x.2.addr.toNat).kind = .win && winPort x.2.addr.toNat == n) with
    | none => s
    | some x =>
      let s := match x.2.since with | some e => toElapsed (e + 1000000 * fld s (R.CW_TLIM n) F.CW_TLIM_LIMIT) s | none => s
      let s := evt (R.CW_EVT n) F.CW_EVT_TMO { s with stalled := s.stalled.filter (· != x) }
      answerCmd x.1 x.2 stTIMEOUT false (List.replicate (x.2.word 0).toNat 0) s

end Sys2Proof.Machine
end

