-- ==== Sys2Proof/Machine/Serial.lean ====
section
/-! DEFINITION. The serial host ports: transactions, truncated requests and interrupted responses (R562 to R570). -/

namespace Sys2Proof.Machine

/-- The partner port of a serial host port. -/
def shpPort (p : ShpNo) : Partner := ⟨2 + p.val, by omega⟩

/-- SCK edges follow the useful bytes of a transaction (R569). -/
def extraEdges (p : Nat) (b : Bool) (s : State) : State := if b then evt (R.P_EVT p) F.P_EVT_EXTRA (cnt (R.P_CNT p 8) s) else s

/-- A request breaks off after this many bits: TRUNC within a word, SHORT between words (R567, R568). -/
def brokenOff (p bits : Nat) (s : State) : State :=
  if bits % 32 != 0 then evt (R.P_EVT p) F.P_EVT_TRUNC (cnt (R.P_CNT p 6) s) else evt (R.P_EVT p) F.P_EVT_SHORT (cnt (R.P_CNT p 7) s)

/-- A request whose LEN is above 1,024 is answered as soon as bytes 8 and 9 are in (R566). A counter that has not arrived is free in
the answer. (DEDUCED, notes/assumptions/30.md.) -/
def longRequest (p : Nat) (b : List Byte) (s : State) : State :=
  let s := cnt (R.P_CNT p 0) s
  let crit := (b.getD 1 0).getLsbD 0
  let f := if crit && decide (b.length < 20) then takeFree s else (leNat ((b.drop 12).take 8), s)
  let s := f.2
  let c : Cmd := { op := (b.getD 0 0).toNat, flags := b.getD 1 0, tag := BitVec.ofNat 16 (leNat ((b.drop 2).take 2))
                   addr := BitVec.ofNat 32 (leNat ((b.drop 4).take 4)), ctr := if crit then some (f.1 % 2 ^ 64) else none
                   payload := [], src := 0, msg := 0 }
  let st := if (partGet s p).outst.length ≥ 32 then stBUSY
    else if (partGet s p).outst.any (fun x => x.tag == c.tag) then stCONFLICT else stRANGE
  refuseCmd p c st [] s

/-- A command transaction with these bytes (R563, R566 to R569). (DEDUCED, notes/assumptions/27.md.) -/
def shpRequest (p : Partner) (rx : List Byte) (extra : Bool) (s : State) : State :=
  let len := leNat ((rx.drop 8).take 2)
  let n := reqLength (rx.getD 1 0) len
  if rx.length ≥ 10 ∧ len > 1024 then longRequest p.val rx s
  else if rx.length < 12 ∨ rx.length < n then brokenOff p.val (8 * rx.length) s
  else
    let s := extraEdges p.val (extra || decide (rx.length > n)) s
    match parseReq (rx.take n) with
    | some r => judgeReq (hdrOf p 0 0) r (wordOf 0xFFFFFFFF) s
    | none => s

/-- A transaction on a serial host port, by its first byte (R563). (DEDUCED, notes/assumptions/30.md.) -/
def shpTransact (p : ShpNo) (rx : List Byte) (extra : Bool) (s : State) : State :=
  let q := shpPort p
  let s' := selectFalls q.val s
  if !hears s q.val then s'
  else match rx with
    | [] => s'
    | b :: _ =>
      if b = 0 then s'
      else if b.toNat ≥ 0x80 then evt (R.P_EVT q.val) F.P_EVT_BADSTART s'
      else shpRequest q rx extra s'

/-- A response transaction in which the oldest waiting response is clocked out whole (R564, R565, R569). -/
def shpRespond (p : ShpNo) (extra : Bool) (s : State) : State :=
  let q := shpPort p
  let s' := selectFalls q.val s
  if !hears s q.val || (partGet s' q.val).resp.isEmpty then s' else extraEdges q.val extra (responseLeaves q 0 [] s')

/-- The select rises early (R567, R568, R570). -/
def shpRise (p : ShpNo) (inResponse : Bool) (bits : Nat) (s : State) : State :=
  let q := (shpPort p).val
  let s' := selectFalls q s
  if !hears s q then s'
  else if inResponse then (if (partGet s' q).resp.isEmpty then s' else cnt (R.P_CNT q 10) s')
  else if bits = 0 then s'
  else brokenOff q bits s'

end Sys2Proof.Machine
end

