-- ==== Sys2Proof/Machine/Operands.lean ====
section
/-! DEFINITION. The operand forms of the rows: the request a command row spells, and the numbers that the operands of the event rows
stand for in the registers. -/

namespace Sys2Proof.Machine

/-- A request arrives on its port. Every requested fuse bit of an OTP command that a row does not say otherwise of programs. -/
def ask (op : Nat) (h : Hdr) (addr : Word) (payload : List Word) (s : State) : Host.Outcome State Fault Refusal :=
  settled (request h (reqOf op h addr payload) (wordOf 0xFFFFFFFF) s)

/-- A request whose payload word 0 names an action in bits [3:0]. -/
def askAct (op : Nat) (h : Hdr) (addr : Word) (hi : BitVec 28) (act : Nat) (rest : List Word) (s : State) : Host.Outcome State Fault Refusal :=
  ask op h addr (wordOf (hi.toNat * 16 + act) :: rest) s

/-- A WRITE of one register. -/
def writeReg (h : Hdr) (a : Nat) (v : Word) (s : State) : Host.Outcome State Fault Refusal := ask opWRITE h (wordOf a) [v] s

/-- A READ of one register. -/
def readReg (h : Hdr) (a : Nat) (s : State) : Host.Outcome State Fault Refusal := ask opREAD h (wordOf a) [1] s

/-- The line's number: 0 for DI, 1 to 3 for SS0 to SS2. -/
def drLineNo : DrLine → Nat
  | .di => 0
  | .ss i => 1 + i.val

/-- The wake-failure source of a side (R618). -/
def wakefailNo (x : Side) : Nat := if x = .host then 22 else 23

/-- The source of a brownout (R618). -/
def brownoutNo (x : Side) (r : Rail) : Nat := (if x = .host then 1 else 4) + (if r = .core then 0 else 1)

/-- The bit of OUTMASK and the code of a host wake request (R687, R690); another cause has no bit. -/
def wakeClassOf (c : WakeClass) : Nat × Nat :=
  match c with
  | .sieve => (0, 3)
  | .queue => (1, 4)
  | .energy p => (2, 7 + p.val)
  | .other => (3, 0x0D)

/-- RST_LAST.DETAIL of a commanded reset: the port, engine or Clasp side (R666). (DEDUCED, notes/assumptions/11.md.) -/
def detailOf (r : Reach) : Nat :=
  match r with
  | .port n => n.val
  | .engine e => e.val
  | .lanes x => if x = .host then 0 else 1
  | _ => 0

end Sys2Proof.Machine
end

