-- ==== Sys2Proof/Machine/Commands.lean ====
section
/-! DEFINITION. The meanings of the Glaeve command rows. Every one is its frame's arrival, judged in the order of R516; the rows
that name a write or a read of one register are that WRITE or READ (R536, R537). -/

namespace Sys2Proof.Machine

-- ---------------------------------------------------------------- the opcodes of R514

/-- R536: READ. -/
def execRead (h : Hdr) (addr : Word) (payload : List Word) (s : State) : Host.Outcome State Fault Refusal := ask opREAD h addr payload s

/-- R537: WRITE. -/
def execWrite (h : Hdr) (addr : Word) (payload : List Word) (s : State) : Host.Outcome State Fault Refusal := ask opWRITE h addr payload s

/-- R161: READ of a register window. -/
def execWindowRead (h : Hdr) (addr : Word) (payload : List Word) (s : State) : Host.Outcome State Fault Refusal := ask opREAD h addr payload s

/-- R173, R175: WRITE of a register window. -/
def execWindowWrite (h : Hdr) (addr : Word) (payload : List Word) (s : State) : Host.Outcome State Fault Refusal := ask opWRITE h addr payload s

/-- R540: POP. -/
def execPop (h : Hdr) (addr : Word) (payload : List Word) (s : State) : Host.Outcome State Fault Refusal := ask opPOP h addr payload s

/-- R541: PEEK. -/
def execPeek (h : Hdr) (addr : Word) (payload : List Word) (s : State) : Host.Outcome State Fault Refusal := ask opPEEK h addr payload s

/-- R542: ACK. -/
def execAck (h : Hdr) (addr : Word) (payload : List Word) (s : State) : Host.Outcome State Fault Refusal := ask opACK h addr payload s

/-- R676: POWER. -/
def execPower (h : Hdr) (addr : Word) (payload : List Word) (s : State) : Host.Outcome State Fault Refusal := ask opPOWER h addr payload s

/-- R636: RESET. -/
def execReset (h : Hdr) (addr : Word) (payload : List Word) (s : State) : Host.Outcome State Fault Refusal := ask opRESET h addr payload s

/-- R547: STATUS. -/
def execStatus (h : Hdr) (addr : Word) (payload : List Word) (s : State) : Host.Outcome State Fault Refusal := ask opSTATUS h addr payload s

/-- R544. -/
def execSubscribeAdd (h : Hdr) (addr : Word) (hi : BitVec 28) (rest : List Word) (s : State) : Host.Outcome State Fault Refusal :=
  askAct opSUBSCRIBE h addr hi 1 rest s

/-- R544. -/
def execSubscribeRemove (h : Hdr) (addr : Word) (hi : BitVec 28) (rest : List Word) (s : State) : Host.Outcome State Fault Refusal :=
  askAct opSUBSCRIBE h addr hi 2 rest s

/-- R544. -/
def execRewind (h : Hdr) (addr : Word) (hi : BitVec 28) (rest : List Word) (s : State) : Host.Outcome State Fault Refusal :=
  askAct opSUBSCRIBE h addr hi 3 rest s

/-- R544. -/
def execStreamon (h : Hdr) (addr : Word) (hi : BitVec 28) (rest : List Word) (s : State) : Host.Outcome State Fault Refusal :=
  askAct opSUBSCRIBE h addr hi 4 rest s

/-- R544. -/
def execStreamoff (h : Hdr) (addr : Word) (hi : BitVec 28) (rest : List Word) (s : State) : Host.Outcome State Fault Refusal :=
  askAct opSUBSCRIBE h addr hi 5 rest s

/-- R197. -/
def execCtxAdd (h : Hdr) (addr : Word) (hi : BitVec 28) (rest : List Word) (s : State) : Host.Outcome State Fault Refusal :=
  askAct opCTX h addr hi 1 rest s

/-- R204. -/
def execCtxChange (h : Hdr) (addr : Word) (hi : BitVec 28) (rest : List Word) (s : State) : Host.Outcome State Fault Refusal :=
  askAct opCTX h addr hi 2 rest s

/-- R205. -/
def execCtxRemove (h : Hdr) (addr : Word) (hi : BitVec 28) (rest : List Word) (s : State) : Host.Outcome State Fault Refusal :=
  askAct opCTX h addr hi 3 rest s

/-- R203. -/
def execCtxStart (h : Hdr) (addr : Word) (hi : BitVec 28) (rest : List Word) (s : State) : Host.Outcome State Fault Refusal :=
  askAct opCTX h addr hi 4 rest s

/-- R203. -/
def execCtxStop (h : Hdr) (addr : Word) (hi : BitVec 28) (rest : List Word) (s : State) : Host.Outcome State Fault Refusal :=
  askAct opCTX h addr hi 5 rest s

/-- R713. -/
def execGraftBegin (h : Hdr) (addr : Word) (hi : BitVec 28) (rest : List Word) (s : State) : Host.Outcome State Fault Refusal :=
  askAct opGRAFT h addr hi 1 rest s

/-- R721. -/
def execGraftStage (h : Hdr) (addr : Word) (hi : BitVec 28) (rest : List Word) (s : State) : Host.Outcome State Fault Refusal :=
  askAct opGRAFT h addr hi 2 rest s

/-- R723. -/
def execGraftCommit (h : Hdr) (addr : Word) (hi : BitVec 28) (rest : List Word) (s : State) : Host.Outcome State Fault Refusal :=
  askAct opGRAFT h addr hi 3 rest s

/-- R739. -/
def execGraftAbort (h : Hdr) (addr : Word) (hi : BitVec 28) (rest : List Word) (s : State) : Host.Outcome State Fault Refusal :=
  askAct opGRAFT h addr hi 4 rest s

/-- R731. -/
def execGraftFlash (h : Hdr) (addr : Word) (hi : BitVec 28) (rest : List Word) (s : State) : Host.Outcome State Fault Refusal :=
  askAct opGRAFT h addr hi 5 rest s

/-- R329. -/
def execTimeSet (h : Hdr) (addr : Word) (hi : BitVec 28) (rest : List Word) (s : State) : Host.Outcome State Fault Refusal :=
  askAct opTIME h addr hi 1 rest s

/-- R329. -/
def execTimeStep (h : Hdr) (addr : Word) (hi : BitVec 28) (rest : List Word) (s : State) : Host.Outcome State Fault Refusal :=
  askAct opTIME h addr hi 2 rest s

/-- R329. -/
def execTimeOffset (h : Hdr) (addr : Word) (hi : BitVec 28) (rest : List Word) (s : State) : Host.Outcome State Fault Refusal :=
  askAct opTIME h addr hi 3 rest s

/-- R329. -/
def execTimeFreq (h : Hdr) (addr : Word) (hi : BitVec 28) (rest : List Word) (s : State) : Host.Outcome State Fault Refusal :=
  askAct opTIME h addr hi 4 rest s

/-- R329. -/
def execTimeAccept (h : Hdr) (addr : Word) (hi : BitVec 28) (rest : List Word) (s : State) : Host.Outcome State Fault Refusal :=
  askAct opTIME h addr hi 5 rest s

/-- R529. -/
def execKeyLoad (h : Hdr) (addr : Word) (hi : BitVec 28) (rest : List Word) (s : State) : Host.Outcome State Fault Refusal :=
  askAct opKEY h addr hi 1 rest s

/-- R528. -/
def execKeyErase (h : Hdr) (addr : Word) (hi : BitVec 28) (rest : List Word) (s : State) : Host.Outcome State Fault Refusal :=
  askAct opKEY h addr hi 2 rest s

/-- R530. -/
def execLoadClear (h : Hdr) (addr : Word) (hi : BitVec 28) (rest : List Word) (s : State) : Host.Outcome State Fault Refusal :=
  askAct opKEY h addr hi 3 rest s

-- ---------------------------------------------------------------- writes of one register

/-- R75: FP_CTL written with EN 1. -/
def execPortEnable (h : Hdr) (n : PortNo) (v : Word) (s : State) : Host.Outcome State Fault Refusal := writeReg h (R.FP_CTL n.val) v s

/-- R79: FP_CTL written with EN 0. -/
def execPortDisable (h : Hdr) (n : PortNo) (v : Word) (s : State) : Host.Outcome State Fault Refusal := writeReg h (R.FP_CTL n.val) v s

/-- R160. -/
def execFpCntclr (h : Hdr) (n : PortNo) (v : Word) (s : State) : Host.Outcome State Fault Refusal := writeReg h (R.FP_CNTCLR n.val) v s

/-- R188. -/
def execCwCntclr (h : Hdr) (n : PortNo) (v : Word) (s : State) : Host.Outcome State Fault Refusal := writeReg h (R.CW_CNTCLR n.val) v s

/-- R185. -/
def execCwAccept (h : Hdr) (n : PortNo) (v : Word) (s : State) : Host.Outcome State Fault Refusal := writeReg h (R.CW_ACCEPT n.val) v s

/-- R62. -/
def execGlbCkclr (h : Hdr) (v : Word) (s : State) : Host.Outcome State Fault Refusal := writeReg h (R.GLB_CKCLR) v s

/-- R242. -/
def execSqClr (h : Hdr) (n : PortNo) (v : Word) (s : State) : Host.Outcome State Fault Refusal := writeReg h (R.SQ_CLR n.val) v s

/-- R243. -/
def execFhCtxclr (h : Hdr) (v : Word) (s : State) : Host.Outcome State Fault Refusal := writeReg h (R.FH_CTXCLR) v s

/-- R292. -/
def execFltCntclr (h : Hdr) (t : TileNo) (v : Word) (s : State) : Host.Outcome State Fault Refusal := writeReg h (R.FT_FLT_CNTCLR t.val) v s

/-- R293. -/
def execFltSlotClr (h : Hdr) (t : TileNo) (f : FSlot) (v : Word) (s : State) : Host.Outcome State Fault Refusal := writeReg h (R.FT_SLOT_CLR t.val f.val) v s

/-- R295. -/
def execFltSlotWrite (h : Hdr) (t : TileNo) (f : FSlot) (v : Word) (s : State) : Host.Outcome State Fault Refusal := writeReg h (R.FT_SLOT t.val f.val) v s

/-- R285: FT_FLT_BANK written with SWAP 1. -/
def execSwap (h : Hdr) (t : TileNo) (v : Word) (s : State) : Host.Outcome State Fault Refusal := writeReg h (R.FT_FLT_BANK t.val) v s

/-- R377. -/
def execTmSnap (h : Hdr) (t : TileNo) (v : Word) (s : State) : Host.Outcome State Fault Refusal := writeReg h (R.FT_TM_SNAP t.val) v s

/-- R407. -/
def execTmClr (h : Hdr) (t : TileNo) (v : Word) (s : State) : Host.Outcome State Fault Refusal := writeReg h (R.FT_TM_CLR t.val) v s

/-- R386, R390. -/
def execCmpWrite (h : Hdr) (t : TileNo) (c : TmCh) (v : Word) (s : State) : Host.Outcome State Fault Refusal := writeReg h (R.FT_TMC_CMP t.val c.val) v s

/-- R396: FT_TMC_CTL written with EN 1. -/
def execTimerEnable (h : Hdr) (t : TileNo) (c : TmCh) (v : Word) (s : State) : Host.Outcome State Fault Refusal := writeReg h (R.FT_TMC_CTL t.val c.val) v s

/-- R395: FT_TMC_CTL written with EN 0. -/
def execTimerDisable (h : Hdr) (t : TileNo) (c : TmCh) (v : Word) (s : State) : Host.Outcome State Fault Refusal := writeReg h (R.FT_TMC_CTL t.val c.val) v s

/-- R364. -/
def execTbClr (h : Hdr) (v : Word) (s : State) : Host.Outcome State Fault Refusal := writeReg h (R.TB_CLR) v s

/-- R365. -/
def execTbPtpClr (h : Hdr) (v : Word) (s : State) : Host.Outcome State Fault Refusal := writeReg h (R.TB_PTP_CLR) v s

/-- R366. -/
def execTbPlsClr (h : Hdr) (i : PulseNo) (v : Word) (s : State) : Host.Outcome State Fault Refusal := writeReg h (R.TB_PLS_CLR i.val) v s

/-- R316: TB_CTL written with EN 1. -/
def execServoEnable (h : Hdr) (v : Word) (s : State) : Host.Outcome State Fault Refusal := writeReg h (R.TB_CTL) v s

/-- R338: TB_CLK written with RETRYH 1. -/
def execRetryh (h : Hdr) (v : Word) (s : State) : Host.Outcome State Fault Refusal := writeReg h (R.TB_CLK) v s

/-- R338: TB_CLK written with RETRYF 1. -/
def execRetryf (h : Hdr) (v : Word) (s : State) : Host.Outcome State Fault Refusal := writeReg h (R.TB_CLK) v s

/-- R352: TB_PLS_CTL written with EN 1. -/
def execPulseEnable (h : Hdr) (i : PulseNo) (v : Word) (s : State) : Host.Outcome State Fault Refusal := writeReg h (R.TB_PLS_CTL i.val) v s

/-- R358: TB_PLS_CTL written with EN 0. -/
def execPulseDisable (h : Hdr) (i : PulseNo) (v : Word) (s : State) : Host.Outcome State Fault Refusal := writeReg h (R.TB_PLS_CTL i.val) v s

/-- R454. -/
def execSvClr (h : Hdr) (v : Word) (s : State) : Host.Outcome State Fault Refusal := writeReg h (R.SV_CLR) v s

/-- R450: SV_SENT_CTL written. -/
def execSentinelEnable (h : Hdr) (i : Fin 8) (v : Word) (s : State) : Host.Outcome State Fault Refusal := writeReg h (R.SV_SENT_CTL i.val) v s

/-- R505. -/
def execTrClr (h : Hdr) (v : Word) (s : State) : Host.Outcome State Fault Refusal := writeReg h (R.TR_CLR) v s

/-- R506. -/
def execQClr (h : Hdr) (q : QNo) (v : Word) (s : State) : Host.Outcome State Fault Refusal := writeReg h (R.Q_CLR q.val) v s

/-- R460: Q_CFG written. -/
def execQueueEnable (h : Hdr) (q : QNo) (v : Word) (s : State) : Host.Outcome State Fault Refusal := writeReg h (R.Q_CFG q.val) v s

/-- R572. -/
def execPpCntclr (h : Hdr) (p : Partner) (v : Word) (s : State) : Host.Outcome State Fault Refusal := writeReg h (R.P_CNTCLR p.val) v s

/-- R573. -/
def execPpEthClr (h : Hdr) (e : EthNo) (v : Word) (s : State) : Host.Outcome State Fault Refusal := writeReg h (R.P_ETH_CLR e.val) v s

/-- R533. -/
def execKeySlotWrite (h : Hdr) (p : Partner) (v : Word) (s : State) : Host.Outcome State Fault Refusal := writeReg h (R.P_KEY p.val) v s

/-- R574. -/
def execMdioCmd (h : Hdr) (v : Word) (s : State) : Host.Outcome State Fault Refusal := writeReg h (R.P0_MDIO_CMD) v s

/-- R608. -/
def execClClr (h : Hdr) (v : Word) (s : State) : Host.Outcome State Fault Refusal := writeReg h (R.CL_CLR) v s

/-- R609. -/
def execClLaneClr (h : Hdr) (x : Lane) (v : Word) (s : State) : Host.Outcome State Fault Refusal := writeReg h (R.CL_LANE_CLR x.val) v s

/-- R582: CL_CTL written with ENA or ENB 1. -/
def execLaneEnable (h : Hdr) (_x : Lane) (v : Word) (s : State) : Host.Outcome State Fault Refusal := writeReg h (R.CL_CTL) v s

/-- R605: CL_CTL written with ENA or ENB 0. -/
def execLaneDisable (h : Hdr) (_x : Lane) (v : Word) (s : State) : Host.Outcome State Fault Refusal := writeReg h (R.CL_CTL) v s

/-- R666. -/
def execRstClr (h : Hdr) (v : Word) (s : State) : Host.Outcome State Fault Refusal := writeReg h (R.RST_CLR) v s

/-- R711. -/
def execPwrClr (h : Hdr) (v : Word) (s : State) : Host.Outcome State Fault Refusal := writeReg h (R.PWR_CLR) v s

/-- R690. -/
def execPwrHwclr (h : Hdr) (v : Word) (s : State) : Host.Outcome State Fault Refusal := writeReg h (R.PWR_HWCLR) v s

/-- R698. -/
def execPwrPadrel (h : Hdr) (v : Word) (s : State) : Host.Outcome State Fault Refusal := writeReg h (R.PWR_PADREL) v s

/-- R702: PWR_AOC written with RETRY 1. -/
def execAocRetry (h : Hdr) (v : Word) (s : State) : Host.Outcome State Fault Refusal := writeReg h (R.PWR_AOC) v s

/-- R741. -/
def execGlbGrfClr (h : Hdr) (v : Word) (s : State) : Host.Outcome State Fault Refusal := writeReg h (R.GLB_GRF_CLR) v s

/-- R656: GLB_LOADCTL written with BEGIN 1. -/
def execLoadBegin (h : Hdr) (v : Word) (s : State) : Host.Outcome State Fault Refusal := writeReg h (R.GLB_LOADCTL) v s

/-- R656: GLB_LOADCTL written with CHUNK 1. -/
def execLoadChunk (h : Hdr) (v : Word) (s : State) : Host.Outcome State Fault Refusal := writeReg h (R.GLB_LOADCTL) v s

/-- R656: GLB_LOADCTL written with END 1. -/
def execLoadEnd (h : Hdr) (v : Word) (s : State) : Host.Outcome State Fault Refusal := writeReg h (R.GLB_LOADCTL) v s

/-- R577: SEC_OTPPROG written; `took` is the mask of the requested fuse bits that the word takes. -/
def execOtpProgram (h : Hdr) (v : Word) (took : Word) (s : State) : Host.Outcome State Fault Refusal :=
  settled (request h (reqOf opWRITE h (wordOf R.SEC_OTPPROG) [v]) took s)

-- ---------------------------------------------------------------- reads of one register

/-- R158. -/
def execTsnsRead (h : Hdr) (n : PortNo) (s : State) : Host.Outcome State Fault Refusal := readReg h (R.FP_TSNS n.val) s

/-- R294. -/
def execInsnsRead (h : Hdr) (t : TileNo) (f : FSlot) (s : State) : Host.Outcome State Fault Refusal := readReg h (R.FT_SLOT_INSNS t.val f.val) s

/-- R364. -/
def execTbNownsRead (h : Hdr) (s : State) : Host.Outcome State Fault Refusal := readReg h (R.TB_NOWNS) s

/-- R364. -/
def execTbPpsnsRead (h : Hdr) (s : State) : Host.Outcome State Fault Refusal := readReg h (R.TB_PPSNS) s

/-- R364. -/
def execTbAocloRead (h : Hdr) (s : State) : Host.Outcome State Fault Refusal := readReg h (R.TB_AOCLO) s

/-- R366. -/
def execLastnsRead (h : Hdr) (i : PulseNo) (s : State) : Host.Outcome State Fault Refusal := readReg h (R.TB_PLS_LASTNS i.val) s

/-- R407. -/
def execSnapnsRead (h : Hdr) (t : TileNo) (s : State) : Host.Outcome State Fault Refusal := readReg h (R.FT_TM_SNAPNS t.val) s

/-- R383. -/
def execCapRead (h : Hdr) (t : TileNo) (c : TmCh) (s : State) : Host.Outcome State Fault Refusal := readReg h (R.FT_TMC_CAP t.val c.val) s

/-- R506. -/
def execMarknsRead (h : Hdr) (q : QNo) (s : State) : Host.Outcome State Fault Refusal := readReg h (R.Q_MARKNS q.val) s

/-- R576. -/
def execSecCtrRead (h : Hdr) (p : Partner) (s : State) : Host.Outcome State Fault Refusal := readReg h (R.SEC_CTR_LO p.val) s

/-- R711. -/
def execPwrLwnsRead (h : Hdr) (s : State) : Host.Outcome State Fault Refusal := readReg h (R.PWR_LWNS) s

end Sys2Proof.Machine
end

