-- ==== Sys2Proof/Machine/Flags.lean ====
section
/-! DEFINITION. The conditions under which the parts of the device work: what an event row needs before it has its effect. -/

namespace Sys2Proof.Machine

/-- FH works: it is not in reset, and the field side has its clocks (R613, R669). (DESIGN CHOICE, notes/assumptions/6.md.) -/
def fhUp (s : State) : Bool := !s.boot.inReset.contains .fh && (s.pow.field.st = .run || s.pow.field.st = .entering)

/-- Field port n works (R138, R669). (DESIGN CHOICE, notes/assumptions/6.md.) -/
def portUp (s : State) (n : Nat) : Bool := !portInReset s n && (s.pow.field.st = .run || s.pow.field.st = .entering)

/-- The field side holds state: it has power and no cold start of it runs. -/
def fieldAlive (s : State) : Bool := s.pow.field.st != .off && !coldReset s .field

/-- The engine of tile t works, also while FH alone is in reset (R612). -/
def engineUp (s : State) (t : Nat) : Bool :=
  (s.pow.field.st = .run || s.pow.field.st = .entering) && tileRuns s t && !s.boot.inReset.any (fun d => match d with | .tile x => x.val == t | _ => false) &&
  !s.boot.episodes.any (fun e => e.srcs.any (fun c => match c.reach with | .filter x => x.val == t | _ => false))

/-- The polls of context k go on: FH works, or the tile's outbound buffer holds what FH cannot take while it is in reset (R67, R612). -/
def pollsGo (s : State) (k : Nat) : Bool := fhUp s || (portUp s (cPort s k) && !outFull s (cPort s k / 8))

/-- The host side holds state: it has power and no cold start of it runs. -/
def hostAlive (s : State) : Bool := s.pow.host.st != .off && !coldReset s .host

/-- A side holds state. -/
def sideAlive (s : State) (x : Side) : Bool := if x = .host then hostAlive s else fieldAlive s

/-- The port of the ordinary clock can send: no pause is in force on it (R559). -/
def ptpSends (s : State) : Bool := hears s (ptpPort s) && !paused s (ptpPort s) && masterRuns s

/-- The Sieve engine of context k is not in a reset of its own. -/
def svEngineUp (s : State) (k : Nat) : Bool :=
  fhUp s && !s.boot.episodes.any (fun e => e.srcs.any (fun c =>
    match c.reach with | .engine x => x.val == fld s (R.SV_CX_STAT k) F.SV_CX_STAT_ENG | _ => false))

/-- A side keeps the lanes parked: it sleeps. -/
def parks (d : SideS) : Bool := d.st = .sleep || d.st = .deep || d.st = .off || d.st = .wakefail

/-- Tile t is not in reset. (DESIGN CHOICE, notes/assumptions/6.md.) -/
def tileOut (s : State) (t : TileNo) : Bool := !s.boot.inReset.contains (.tile t) && (s.pow.field.st = .run || s.pow.field.st = .entering)

/-- HB is not in reset and has its clocks. -/
def hbUp (s : State) : Bool := !s.boot.inReset.contains .hb && !s.boot.hostHeld && (s.pow.host.st = .run || s.pow.host.st = .entering)

/-- A side is out of reset. (DESIGN CHOICE, notes/assumptions/6.md.) -/
def sideOut (s : State) (x : Side) : Bool := !s.boot.inReset.contains (if x = .host then .hb else .fh)

end Sys2Proof.Machine
end

