-- ==== Sys2Proof/Machine/RowsField.lean ====
section
/-! DEFINITION. The meanings of the field ports' events: polls, the wire, the steps of transactions, bitstream blocks, banks, windows
and identity reads. Each row is the instant itself: an occurrence whose condition does not hold changes nothing. -/

namespace Sys2Proof.Machine

-- ---------------------------------------------------------------- polls and slots (R103 to R135, R209 to R239)

/-- R222: context k's due time comes, and its poll is issued. -/
def execPollDue (k : CtxNo) (s : State) : Host.Outcome State Fault Refusal := settled (onlyIf (pollsGo s k.val) (pollDue k.val) s)

/-- What a port's row does, and then the window commands that end with the wire free (R177). -/
def portRow (n : Nat) (f : State → State) (s : State) : Host.Outcome State Fault Refusal :=
  settled (onlyIf (portUp s n) (fun s => portTail n (f s)) s)

/-- R132: the wire of port n is granted to a slot. -/
def execWireGrant (n : PortNo) (s : State) : Host.Outcome State Fault Refusal := portRow n.val (grant n.val) s

/-- R108: a data-ready line goes to its active level, or leaves it. The line is the sensor's: its level is known whatever the port does. -/
def execDataReady (n : PortNo) (x : LineChange) (s : State) : Host.Outcome State Fault Refusal :=
  settled (drLevel n.val (drLineNo x.line) x.active s)

/-- R211, R213: the XFER on the wire ends. -/
def execXferDone (n : PortNo) (rx : List Bool) (edges : Nat) (s : State) : Host.Outcome State Fault Refusal :=
  portRow n.val (xferEnd n.val rx edges) s

/-- R103: a slot's retry interval ends. -/
def execRetryIntervalExpiry (n : PortNo) (i : SlotNo) (s : State) : Host.Outcome State Fault Refusal :=
  portRow n.val (retryEnd n.val i.val) s

/-- R209: a DELAY step ends. -/
def execDelayEnd (n : PortNo) (i : SlotNo) (s : State) : Host.Outcome State Fault Refusal :=
  portRow n.val (delayDone n.val i.val) s

/-- R110, R134: the limit of a WAITDR step. -/
def execWaitdrTimeout (n : PortNo) (i : SlotNo) (sameCycle : Bool) (s : State) : Host.Outcome State Fault Refusal :=
  portRow n.val (waitdrLimit n.val i.val sameCycle) s

/-- R112, R135: the transaction limit. -/
def execTlimExpiry (n : PortNo) (i : SlotNo) (sameCycle : Bool) (rx : List Bool) (edges : Nat) (s : State) : Host.Outcome State Fault Refusal :=
  portRow n.val (tlimLimit n.val i.val sameCycle rx edges) s

/-- R235, R239: the leading edge of a timed TRIG step. -/
def execTimedTrig (n : PortNo) (i : SlotNo) (s : State) : Host.Outcome State Fault Refusal :=
  portRow n.val (timedEdge n.val i.val) s

/-- R131: the trailing edge of a TRIG pulse. -/
def execTrigTrailingEdge (n : PortNo) (i : SlotNo) (s : State) : Host.Outcome State Fault Refusal :=
  portRow n.val (trigTrail n.val i.val) s

/-- R125: a transaction that has ended completes, outside any reset of its port. -/
def execTransactionComplete (n : PortNo) (x : SlotEnd) (s : State) : Host.Outcome State Fault Refusal :=
  portRow n.val (completeTxn n.val x.slot.val x.cka) s

/-- R234: the 1 ms load window of a tile's ports ends. -/
def execLoadWindowEnd (t : TileNo) (s : State) : Host.Outcome State Fault Refusal :=
  settled (eachOf (tilePorts t.val) (fun n s => onlyIf (portUp s n) (loadEnd n) s) s)

-- ---------------------------------------------------------------- bitstream mode (R93 to R101, R118)

/-- R95: both streams complete a block. -/
def execBlockComplete (n : PortNo) (a b : BitVec 256) (edges : Nat) (age : Nat) (periods : List Nat) (s : State) : Host.Outcome State Fault Refusal :=
  settled (onlyIf (tileRuns s (n.val / 8)) (blockDone n.val a b edges age periods) s)

/-- R100, R136: the clock monitor finds no edge. -/
def execClkLost (n : PortNo) (x : ClkLoss) (s : State) : Host.Outcome State Fault Refusal :=
  settled (onlyIf (portUp s n.val) (clockLost n.val x.sameCycle x.periods) s)

/-- R97: 16 good SCK periods in a row. -/
def execClkok (x : PortPeriods) (s : State) : Host.Outcome State Fault Refusal :=
  settled (onlyIf (portUp s x.port.val) (clockOk x.port.val x.periods) s)

/-- R118: a stream has held one level too long. -/
def execStreamStuck (n : PortNo) (stream : Fin 2) (s : State) : Host.Outcome State Fault Refusal :=
  settled (onlyIf (portUp s n.val) (streamStuckAt n.val stream.val) s)

-- ---------------------------------------------------------------- field banks (R142, R143)

/-- R142: a tile's bank supply drops. A side without power only loses the bank's state. -/
def execBankDown (t : TileNo) (s : State) : Host.Outcome State Fault Refusal :=
  settled (eachOf (tilePorts t.val) (fun n s =>
    if fieldAlive s then endWindows n (bankLost n s) else portMod n (fun p => { p with bankOk := false, bankV := 0 }) s) s)

/-- R143: a tile's bank supply is good again. -/
def execBankReturn (t : TileNo) (mv : Nat) (s : State) : Host.Outcome State Fault Refusal :=
  settled (eachOf (tilePorts t.val) (fun n s =>
    if fieldAlive s then bankGood n mv s
    else if bankTakes s n mv then portMod n (fun p => { p with bankOk := true, bankV := bankClass mv }) s else s) s)

-- ---------------------------------------------------------------- windows and identity (R161 to R187)

/-- R167, R175: the next chunk or write command of a port's window. -/
def execWindowChunk (n : PortNo) (rx : List Byte) (s : State) : Host.Outcome State Fault Refusal :=
  portRow n.val (winStep n.val rx) s

/-- R171, R172: the limit of a window READ. -/
def execWindowReadTimeout (n : PortNo) (sameCycle : Bool) (rx : List Byte) (s : State) : Host.Outcome State Fault Refusal :=
  settled (windowLimit n.val sameCycle rx s)

/-- R175: the status read of a window WRITE repeats. -/
def execStatusReadRepeat (n : PortNo) (st : Byte) (s : State) : Host.Outcome State Fault Refusal :=
  portRow n.val (winStatus n.val st) s

/-- R176: the limit of a window WRITE. -/
def execWriteLimitExpiry (x : WriteLimit) (s : State) : Host.Outcome State Fault Refusal :=
  portRow x.port.val (winWriteLimit x.port.val x.sameCycle) s

/-- R180: an identity read falls due. -/
def execIdentityRead (n : PortNo) (i : Fin 3) (s : State) : Host.Outcome State Fault Refusal :=
  portRow n.val (idReadDue n.val i.val) s

/-- R179, R187: an identity read ends. -/
def execIdentityJudge (n : PortNo) (i : Fin 3) (rx : Option (List Byte)) (withAccept : Bool) (s : State) : Host.Outcome State Fault Refusal :=
  portRow n.val (idJudge n.val i.val rx withAccept) s

-- ---------------------------------------------------------------- boundaries and filter outputs (R203, R231, R249, R268)

/-- R203: the boundary of context k comes, and what waits for it takes effect. -/
def execPeriodBoundary (k : CtxNo) (s : State) : Host.Outcome State Fault Refusal :=
  settled (onlyIf (fhUp s && decide (cState s k.val ≥ stRunning)) (fun s => boundary k.val (toDue k.val s)) s)

/-- R231: a requested profile switch of a polled context takes effect at its next nominal time. That of a bitstream context waits for the next
output of its slot (the row FILTER_OUTPUT). -/
def execProfileSwitch (k : CtxNo) (s : State) : Host.Outcome State Fault Refusal :=
  settled (onlyIf (fhUp s && cState s k.val == stRunning && !cBit s k.val) (fun s => switchProfile k.val (toDue k.val s)) s)

/-- R249: a slot completes an output; R265, R267, R268, R269: what its checks find. -/
def execFilterOutput (t : TileNo) (f : FSlot) (err : FiltErr) (residue : Bool) (s : State) : Host.Outcome State Fault Refusal :=
  settled
    (if !engineUp s t.val || !slBound s t.val f.val then s
     else if residue then residueFails t.val f.val s
     else if haveUnits s t.val f.val < needUnit s t.val f.val ((filtGet s (slotIx t.val f.val)).outs + 1) then s
     else outputDone t.val f.val err s)

end Sys2Proof.Machine
end

