-- ==== Sys2Proof/Machine/RowsTime.lean ====
section
/-! DEFINITION. The meanings of the device time rows: exchanges, the servo, steps, oscillators, PPS, pulses, the always-on counter and
PTP (R296 to R361). -/

namespace Sys2Proof.Machine

-- ---------------------------------------------------------------- exchanges, the servo and steps

/-- R304: an exchange on a lane completes. -/
def execTimeExchange (x : Lane) (offset : Int) (s : State) : Host.Outcome State Fault Refusal := settled (exchange x.val offset s)

/-- R307, R310: no exchange for 500 µs. -/
def execFstateTimeout (sameCycle : Bool) (s : State) : Host.Outcome State Fault Refusal :=
  settled (onlyIf (fieldRuns s) (exchangeLimit sameCycle) s)

/-- R319, R321: no accepted sample for TMO ms. -/
def execServoTmo (sameCycle : Bool) (s : State) : Host.Outcome State Fault Refusal := settled (onlyIf (masterRuns s) (servoLimit sameCycle) s)

/-- R322: a step's instant comes. -/
def execStepInstant (s : State) : Host.Outcome State Fault Refusal := settled (onlyIf (masterRuns s) stepNow s)

/-- R334, R335: the reference of a side fails. -/
def execOscFail (side : Side) (shift : Int) (s : State) : Host.Outcome State Fault Refusal :=
  settled (onlyIf (sideAlive s side) (oscFailed side shift) s)

/-- R338: a side switches back to its crystal. -/
def execOscSwitchBack (side : Side) (shift : Int) (s : State) : Host.Outcome State Fault Refusal :=
  settled (onlyIf (sideAlive s side) (oscBack side shift) s)

/-- R692: a side's oscillator is good after a wake. -/
def execOscillatorReady (side : Side) (s : State) : Host.Outcome State Fault Refusal := settled (onlyIf (sideAlive s side) (oscReady side) s)

-- ---------------------------------------------------------------- PPS and pulses

/-- R347: an edge on PPS_IN. -/
def execPpsIn (s : State) : Host.Outcome State Fault Refusal := settled (ppsEdge s)

/-- R351: a pulse channel's next instant comes. -/
def execPulseInstant (i : PulseNo) (s : State) : Host.Outcome State Fault Refusal := settled (onlyIf (masterRuns s) (plsInstant i.val) s)

/-- R351: a pulse ends. -/
def execPulseEnd (i : PulseNo) (s : State) : Host.Outcome State Fault Refusal := settled (onlyIf (masterRuns s) (plsEnd i.val) s)

/-- R354: a Sieve action's request reaches a pulse channel. -/
def execPulseRequest (i : PulseNo) (s : State) : Host.Outcome State Fault Refusal := settled (onlyIf (masterRuns s) (plsRequest i.val) s)

/-- R359: the measured ratio of the always-on counter is written. -/
def execAocRatioUpdate (ratio : Word) (s : State) : Host.Outcome State Fault Refusal := settled (onlyIf (fieldAlive s) (aocRatio ratio) s)

-- ---------------------------------------------------------------- PTP (R340 to R345)

/-- R341: an event message arrives. -/
def execPtpEventRx (e : EthNo) (m : PtpMsg) (s : State) : Host.Outcome State Fault Refusal := settled (onlyIf (hears s e.val) (ptpRx e m) s)

/-- R342: a Sync leaves. -/
def execSyncTransmit (tx : Nat) (s : State) : Host.Outcome State Fault Refusal := settled (onlyIf (ptpSends s) (ptpSyncTx tx) s)

/-- R340: a Delay_Req or Pdelay_Req leaves. -/
def execDelayReqTransmit (tx : Nat) (s : State) : Host.Outcome State Fault Refusal := settled (onlyIf (ptpSends s) (ptpDelayTx tx) s)

/-- R340: an Announce leaves. -/
def execAnnounceTransmit (s : State) : Host.Outcome State Fault Refusal := settled (onlyIf (ptpSends s) ptpAnnTx s)

/-- R340: no Announce message from the parent in time. -/
def execAnnounceReceiptTimeout (s : State) : Host.Outcome State Fault Refusal := settled (onlyIf (masterRuns s) ptpAnnLimit s)

end Sys2Proof.Machine
end

