-- ==== Sys2Proof/Machine/RowsPartner.lean ====
section
/-! DEFINITION. The meanings of the partner ports' events and of the Clasp lanes' (R519 to R570, R574, R582, R598, R603). -/

namespace Sys2Proof.Machine

-- ---------------------------------------------------------------- responses and limits

/-- R519: a waiting response of an Ethernet port leaves. -/
def execResponseSend (e : EthNo) (i : Nat) (s : State) : Host.Outcome State Fault Refusal := settled (ethResponse e i s)

/-- R33, R520: the limit of a register READ. -/
def execRegisterReadTimeout (p : Partner) (tag : BitVec 16) (sameCycle : Bool) (s : State) : Host.Outcome State Fault Refusal :=
  settled (readLimit p tag sameCycle s)

/-- R574: the management frame ends. -/
def execMdioFrameEnd (data : BitVec 16) (s : State) : Host.Outcome State Fault Refusal := settled (mdioEnds data s)

-- ---------------------------------------------------------------- Ethernet (R548 to R561)

/-- R556: a stream frame leaves. -/
def execStreamFrameSend (e : EthNo) (x : QueueRead) (s : State) : Host.Outcome State Fault Refusal :=
  settled (streamLeaves e x.queue.val x.mem s)

/-- R550: a frame arrives. -/
def execEthFrameReceive (e : EthNo) (f : EthFrame) (s : State) : Host.Outcome State Fault Refusal := settled (frameReceived e f s)

/-- R553: a reassembly is 1 ms old. -/
def execReassemblyTimeout (e : EthNo) (msg : BitVec 16) (s : State) : Host.Outcome State Fault Refusal := settled (reassemblyEnds e msg s)

/-- R561: the link goes down. -/
def execLinkDown (e : EthNo) (s : State) : Host.Outcome State Fault Refusal := settled (ethDown e.val s)

/-- R561: the link comes up. -/
def execLinkUp (e : EthNo) (s : State) : Host.Outcome State Fault Refusal := settled (linkComesUp e.val s)

/-- R560: signal energy reaches the receiver. -/
def execEnergyDetect (e : EthNo) (s : State) : Host.Outcome State Fault Refusal := settled (onlyIf (hostAlive s) (energySeen e) s)

/-- R559: the quanta of a PAUSE frame have passed. -/
def execPauseQuantaExpiry (e : EthNo) (s : State) : Host.Outcome State Fault Refusal :=
  settled (pauseEnds e s)

/-- R557: a forwarded frame leaves. -/
def execForwardedFrameSend (e : EthNo) (s : State) : Host.Outcome State Fault Refusal := settled (forwardLeaves e s)

-- ---------------------------------------------------------------- serial host ports (R562 to R570)

/-- R563: a command transaction. -/
def execShpTransaction (p : ShpNo) (rx : List Byte) (extra : Bool) (s : State) : Host.Outcome State Fault Refusal := settled (shpTransact p rx extra s)

/-- R564: a response transaction. -/
def execShpResponse (p : ShpNo) (extra : Bool) (s : State) : Host.Outcome State Fault Refusal := settled (shpRespond p extra s)

/-- R567, R568, R570: the select rises early. -/
def execShpSelectRise (p : ShpNo) (inResponse : Bool) (bits : Nat) (s : State) : Host.Outcome State Fault Refusal :=
  settled (shpRise p inResponse bits s)

-- ---------------------------------------------------------------- lanes that enter service (R582, R598)

/-- Training of lane x ends with a delay. -/
def trained (x : Nat) (delay : BitVec 16) (s : State) : State :=
  if laneSt s x == lnTRAIN then evt R.CL_EVT (lnUpFld x) (laneIn x (setReg (R.CL_LANE_DELAY x) (wordOf delay.toNat) s)) else s

/-- R582: training ends. -/
def execTrainingComplete (x : Lane) (delay : BitVec 16) (s : State) : Host.Outcome State Fault Refusal := settled (trained x.val delay s)

/-- R598: a parked lane resumes. -/
def execLaneResume (x : Lane) (s : State) : Host.Outcome State Fault Refusal :=
  settled (onlyIf (laneSt s x.val == lnPARKED && !parks s.pow.host && !parks s.pow.field) (laneIn x.val) s)

-- ---------------------------------------------------------------- loss of both lanes (R603, R622)

/-- A command that crosses to the field side (R594). (DEDUCED, notes/assumptions/16.md.) -/
def crosses (c : Cmd) : Bool :=
  if c.op = opREAD ∨ c.op = opWRITE then fieldAddr c.addr.toNat
  else [opPOP, opPEEK, opACK, opSUBSCRIBE, opCTX].contains c.op

/-- Every command that was sent and not answered is discarded without a response (R603). (DEDUCED, notes/assumptions/20.md.) -/
def discardSent (s : State) : State :=
  let wins := s.ports.flatMap (fun e => e.2.winQ.map (fun w => (w.port.val, w.cmd)))
  let gone := wins ++ s.stalled.filter (fun x => crosses x.2)
  let s := eachOf gone (fun x s => partMod x.1 (fun u => { u with outst := dropCmd x.2 u.outst }) s) s
  let s := eachOf (s.ports.map (·.1)) (fun n s => portMod n (fun p => { p with winQ := [], endWin := 0 }) (setFlag (R.CW_STAT n) F.CW_STAT_WIP false s)) s
  { s with stalled := s.stalled.filter (fun x => !crosses x.2) }

/-- HB declares loss of both lanes (R603, R622). (DEDUCED, notes/assumptions/20.md.) -/
def hostDeclares (s : State) : State :=
  if !s.cl.epHost || !hostAlive s then s
  else
    let s := toElapsed (s.cl.epHostAt + 1000000 * fld s R.CL_LOSS F.CL_LOSS_LOSSLIM) s
    let s := discardSent { s with cl := { s.cl with epHost := false } }
    let s := dirMod true (fun d => { d with unacked := [] }) (dirMod false (fun d => { d with early := [], bad := [] }) s)
    assertMap 21 (some (.lanes .host)) .hb 0 { s with pow := { s.pow with fieldSeen := none } }

/-- FH declares loss of both lanes; at L3 it reports it over the first lane to return (R622). (DEDUCED, notes/assumptions/20.md.) -/
def fieldDeclares (s : State) : State :=
  if !s.cl.epField || !fieldAlive s then s
  else
    let s := toElapsed (s.cl.epFieldAt + 1000000 * s.cl.fhLim) s
    let s := { s with cl := { s.cl with epField := false } }
    let s := dirMod false (fun d => { d with unacked := [] }) (dirMod true (fun d => { d with early := [], bad := [] }) s)
    if srcLevel s 21 = 3 then { s with cl := { s.cl with fhReport := true, fhAt := fieldNs s } }
    else assertMap 21 (some (.lanes .field)) .fh 1 s

/-- R603, R622: LOSSLIM has passed on a side. (DEDUCED, notes/assumptions/20.md.) -/
def execLosslimExpiry (side : Side) (s : State) : Host.Outcome State Fault Refusal :=
  settled (match side with | .host => hostDeclares s | .field => fieldDeclares s)

-- ---------------------------------------------------------------- Graft (R716, R726, R733)

/-- R733: the hand-over of the firmware ends. -/
def execFirmwareHandover (copyOk : Bool) (s : State) : Host.Outcome State Fault Refusal := settled (handoverEnds copyOk s)

/-- R726: the boundary of a waiting item comes. -/
def execPendingItem (i : Nat) (s : State) : Host.Outcome State Fault Refusal := settled (waitsEnd i s)

/-- R716: TMO ms have passed since the holder's last answered step. -/
def execGraftTmo (withCommit : Bool) (s : State) : Host.Outcome State Fault Refusal := settled (graftLimit withCommit s)

end Sys2Proof.Machine
end

