-- ==== Sys2Proof/Machine/RowsReset.lean ====
section
/-! DEFINITION. The meanings of the reset, start-up, power and pin rows (R610 to R666, R667 to R711, R762). -/

namespace Sys2Proof.Machine

-- ---------------------------------------------------------------- sources

/-- The sources that a test selects release; their episodes end with RESET_RELEASE (R620, R621). -/
def releaseSrcs (f : SrcOn → Bool) (s : State) : State :=
  let off (c : SrcOn) : SrcOn := if f c then { c with on := false } else c
  { s with boot := { s.boot with episodes := s.boot.episodes.map (fun e => { e with srcs := e.srcs.map off })
                                 heldSrcs := s.boot.heldSrcs.map off } }

/-- A power source of a side asserts: the side starts cold (R611, R618). -/
def assertPower (no : Nat) (x : Side) (s : State) : State :=
  assertSrc { no := no, level := 0, reach := .side x, on := false, detail := 0, cold := true } s

/-- The host side loses power during an NV write: a write that was torn is rolled back at the next start, and the start's registers say
so (R634, R635). (DEDUCED, notes/assumptions/9.md.) -/
def losesPower (torn : Bool) (no : Nat) (s : State) : State :=
  let tornNow := torn && decide (s.elapsed < s.nv.busyUntil)
  let again := flag s R.RST_BOOT F.RST_BOOT_ROLLBACK && s.boot.episodes.any (fun e => e.srcs.any (fun c => decide (c.no ≤ 2)))
  let nv : NvS := if tornNow then s.nvOld else s.nv
  let s := assertPower no .host { s with nv := { nv with busyUntil := 0 } }
  onlyIf (tornNow || again) (fun s => setFlag R.RST_LAST F.RST_LAST_ROLLBACK true (setFlag R.RST_BOOT F.RST_BOOT_ROLLBACK true s)) s

/-- Power comes to a side. A power cycle ends a wake failure's and a fuse failure's hold; an NV write that the loss of power tore is
rolled back (R611, R623, R624, R635, R652). (DEDUCED, notes/assumptions/9.md.) -/
def powersOn (x : Side) (bootsel torn : Bool) (s : State) : State :=
  let s := releaseSrcs (fun c => c.no == wakefailNo x || (x = .host && c.no == 26)) s
  if x = .field then assertPower 3 .field s
  else losesPower torn 0 { s with boot := { s.boot with bootsel := bootsel } }

/-- R611, R635, R652: power-on of a side. -/
def execPowerOn (side : Side) (bootsel : Bool) (torn : Bool) (s : State) : Host.Outcome State Fault Refusal :=
  settled (powersOn side bootsel torn s)

/-- A rail of a side browns out. Whether that tears an NV write in progress is free (R634, R635). (DEDUCED, notes/assumptions/9.md.) -/
def brownsOut (side : Side) (rail : Rail) (s : State) : State :=
  if side = .field then assertPower (brownoutNo side rail) side s
  else
    let f := if s.elapsed < s.nv.busyUntil then takeFree s else (0, s)
    losesPower (f.1 % 2 == 1) (brownoutNo side rail) f.2

/-- R777: a rail stays below its threshold. -/
def execBrownout (side : Side) (rail : Rail) (s : State) : Host.Outcome State Fault Refusal := settled (brownsOut side rail s)

/-- A reset pin is held low, or goes high (R620, R623). -/
def pinMoves (x : Side) (low : Bool) (s : State) : State :=
  let was := if x = .host then s.boot.hrst else s.boot.frst
  let s1 := if x = .host then { s with boot := { s.boot with hrst := low } } else { s with boot := { s.boot with frst := low } }
  let no := if x = .host then 6 else 7
  if low == was then s
  else if low then
    let level := srcLevel s1 no
    let d : Die := if x = .host then .hb else .fh
    assertSrc { no := no, level := level, reach := reachAt none d level, on := true, detail := 0, cold := level == 0 } s1
  else releaseSrcs (fun c => c.no == no || c.no == wakefailNo x) s1

/-- R620: HRST_N or FRST_N. -/
def execResetPin (side : Side) (low : Bool) (s : State) : Host.Outcome State Fault Refusal := settled (pinMoves side low s)

/-- A watchdog that is on expires (R618, R663). -/
def barks (d : Dog) (s : State) : State :=
  match d with
  | .hb => onlyIf (flag s R.RST_WDT F.RST_WDT_HBEN && hbUp s) (assertMap 8 (some .hbCore) .hb 0) s
  | .fh => onlyIf (flag s R.RST_WDT F.RST_WDT_FHEN && fhUp s) (assertMap 9 (some .fhCtl) .fh 0) s
  | .tile t => onlyIf (flag s R.RST_WDT F.RST_WDT_FTEN && tileOut s t) (assertMap 10 none (.tile t) 0) s

/-- R663: a watchdog expires. -/
def execWatchdog (d : Dog) (s : State) : Host.Outcome State Fault Refusal := settled (barks d s)

/-- R68, R618: a double-bit error or a lockup of a tile. -/
def execFtfault (t : TileNo) (s : State) : Host.Outcome State Fault Refusal := settled (onlyIf (tileOut s t) (assertMap 11 none (.tile t) 0) s)

/-- R70, R618: a port's serial engine fails its self-check. -/
def execPortfault (n : PortNo) (s : State) : Host.Outcome State Fault Refusal :=
  settled (onlyIf (portUp s n.val) (assertMap 12 (some (.port n)) (.tile (portTile n)) n.val) s)

/-- R618, R684: a lockstep mismatch of the FH control pair. -/
def execLsfh (s : State) : Host.Outcome State Fault Refusal := settled (onlyIf (fhUp s) (assertMap 19 (some .fhCtl) .fh 0) s)

/-- R618: a lockstep mismatch of the HB core pair. -/
def execLshb (s : State) : Host.Outcome State Fault Refusal := settled (onlyIf (hbUp s) (assertMap 18 (some .hbCore) .hb 0) s)

/-- R615: a double-bit error in context k's entry. -/
def execDbectx (k : CtxNo) (s : State) : Host.Outcome State Fault Refusal := settled (onlyIf (fhUp s) (assertMap 13 none .fh k.val) s)

/-- A double-bit error in the critical configuration of a side: at L1 and L2 each damaged word takes its Cold value, and RST_LAST names the
first context affected (R615). -/
def configFails (x : Side) (words : List Word) (s : State) : State :=
  let ws := words.filter (fun w => hbAddr w.toNat == decide (x = .host))
  let no := if x = .host then 15 else 14
  let first := firstDamaged ws s
  assertMap no none (if x = .host then .hb else .fh) first (if srcLevel s no = 0 then s else damage ws s)

/-- R615: damaged critical configuration. -/
def execDbecfg (side : Side) (words : List Word) (s : State) : Host.Outcome State Fault Refusal :=
  settled (onlyIf (if side = .host then hbUp s else fhUp s) (configFails side words) s)

/-- A timebase's parity fails: at L1 and L2 the timebase restarts (R616). (DEDUCED, notes/assumptions/21.md.) -/
def parityFails (x : Side) (s : State) : State :=
  match x with
  | .host => assertMap 16 none .hb 0 (if srcLevel s 16 = 0 then s else masterRestart s)
  | .field => assertMap 17 none .fh 0 (if srcLevel s 17 = 0 then s else enterNotime s)

/-- R616: a timebase's parity. -/
def execTimebaseParity (side : Side) (s : State) : Host.Outcome State Fault Refusal :=
  settled (onlyIf (if side = .host then hbUp s else fhUp s) (parityFails side) s)

-- ---------------------------------------------------------------- commanded resets (R636 to R638)

/-- The reset that the word of R636 names asserts as source `no`. -/
def wordAsserts (no : Nat) (w : Word) (s : State) : State :=
  match resetReach w with
  | some r => assertSrc { resetSource no w r with detail := detailOf r } s
  | none => s

/-- The RESET command whose response left first. (DEDUCED, notes/assumptions/10.md.) -/
def nextReset (l : List ResetReq) : Option (ResetReq × Nat) :=
  l.foldl (fun b r => match r.leftAt, b with
    | some a, some (_, a') => if a < a' then some (r, a) else b
    | some a, none => some (r, a)
    | none, _ => b) none

/-- 20 µs after the response of a RESET command has left, its reset asserts (R637). (DEDUCED, notes/assumptions/10.md.) -/
def commandAsserts (s : State) : State :=
  match nextReset s.boot.resets with
  | none => s
  | some (r, left) =>
    let s := toElapsed (left + 20000) s
    wordAsserts 24 r.word { s with boot := { s.boot with resets := s.boot.resets.erase r } }

/-- R637: a commanded reset asserts. -/
def execResetCommandAssert (s : State) : Host.Outcome State Fault Refusal := settled (commandAsserts s)

/-- The TAP's reset is not taken: fused off, no reach, wider than the map allows, or a retired engine (R628, R629, R636, R637). -/
def jtagRefused (w : Word) (s : State) : Bool :=
  fuseBit s 3 || decide (rsLevel w < srcLevel s 25) ||
  (match resetReach w with
   | none => true
   | some (.engine e) => engState s e.val == 2
   | some _ => false)

/-- R638: the TAP reset instruction. -/
def execJtagReset (w : Word) (s : State) : Host.Outcome State Fault Refusal := settled (if jtagRefused w s then s else wordAsserts 25 w s)

/-- R631: an episode's release sequence runs. -/
def execResetRelease (s : State) : Host.Outcome State Fault Refusal := settled (resetRelease s)

/-- R633: an NV write or a fuse programming ends. -/
def execNvWriteEnd (s : State) : Host.Outcome State Fault Refusal := settled (nvEnd s)

-- ---------------------------------------------------------------- checkpoints (R683, R684)

/-- R683: FH writes its checkpoint. -/
def execFhCheckpoint (s : State) : Host.Outcome State Fault Refusal :=
  settled (onlyIf (fhUp s) (fun s => setFld R.FH_LKSTAT F.FH_LKSTAT_CHKPTS ((fld s R.FH_LKSTAT F.FH_LKSTAT_CHKPTS + 1) % 2 ^ 16) s) s)

/-- R683: the core pair takes its checkpoint, which no register shows. -/
def execCoreCheckpoint (s : State) : Host.Outcome State Fault Refusal := settled s

-- ---------------------------------------------------------------- start-up (R624, R625, R644, R660)

/-- The fuses load: words whose rows differ hold the host side in cold reset; otherwise the start goes on (R624 to R626, R651, R652). (DEDUCED, notes/assumptions/12.md.) -/
def fusesLoad (differ : List Nat) (s : State) : State :=
  if s.boot.inReset.contains .hb || s.boot.hostHeld || s.boot.fused || fld s R.GLB_BOOTSTAT F.GLB_BOOTSTAT_STAGE != 0 then s
  else if !differ.isEmpty then
    assertSrc { no := 26, level := 0, reach := .side .host, on := true, detail := 0, cold := true }
      { s with boot := { s.boot with fuseAt := s.elapsed } }
  else
    let s := setReg R.GLB_UIDHI (fuseWord s 1) (setReg R.GLB_UIDLO (fuseWord s 0) s)
    let s := setFld R.GLB_BOOTSTAT F.GLB_BOOTSTAT_STAGE 1 { s with boot := { s.boot with fused := true } }
    if s.boot.bootsel || s.boot.imageFail then loadWait s else s

/-- R625: the fuse load. -/
def execFuseLoad (differ : List Nat) (s : State) : Host.Outcome State Fault Refusal := settled (fusesLoad differ s)

/-- 100 ms after the last try the fuse load is tried again, while FUSE holds the host side; once it succeeds, FUSE releases (R624). -/
def fusesAgain (differ : List Nat) (s : State) : State :=
  if !s.boot.episodes.any (fun e => e.srcs.any (fun c => c.no == 26 && c.on)) then s
  else
    let s := toElapsed (s.boot.fuseAt + 100000000) s
    if differ.isEmpty then releaseSrcs (fun c => c.no == 26) s else { s with boot := { s.boot with fuseAt := s.elapsed } }

/-- R624: the fuse load is tried again. -/
def execFuseRetry (differ : List Nat) (s : State) : Host.Outcome State Fault Refusal := settled (fusesAgain differ s)

/-- R644: pass 1 over the slots of the flash. -/
def execImagePass1 (s : State) : Host.Outcome State Fault Refusal := settled (startPassOne s)

/-- R644: pass 2. -/
def execImagePass2 (s : State) : Host.Outcome State Fault Refusal := settled (startPassTwo s)

/-- R660: the field side is loaded. -/
def execFieldLoad (s : State) : Host.Outcome State Fault Refusal := settled (loadField s)

-- ---------------------------------------------------------------- entries and wakes (R679 to R696)

/-- R679: an entry passes AP1. -/
def execAp1 (side : Side) (s : State) : Host.Outcome State Fault Refusal := settled (onlyIf (sideOut s side) (passAp1 side) s)

/-- R679: an entry passes AP2. -/
def execAp2 (side : Side) (s : State) : Host.Outcome State Fault Refusal := settled (onlyIf (sideOut s side) (passAp2 side) s)

/-- R679: an entry passes AP3. -/
def execAp3 (side : Side) (s : State) : Host.Outcome State Fault Refusal := settled (onlyIf (sideOut s side) (passAp3 side) s)

/-- R679, R682: an entry passes AP4. -/
def execAp4 (side : Side) (wake : Bool) (s : State) : Host.Outcome State Fault Refusal := settled (onlyIf (sideOut s side) (passAp4With side wake) s)

/-- R681: the limit of AP1. -/
def execDrainLimit (side : Side) (s : State) : Host.Outcome State Fault Refusal := settled (onlyIf (sideOut s side) (drainEnds side) s)

/-- R688: a wake pin. -/
def execWakePin (side : Side) (s : State) : Host.Outcome State Fault Refusal := settled (onlyIf (sideOut s side) (wakeByPin side) s)

/-- R689: a host wake request. -/
def execHostWakeRequest (c : WakeClass) (s : State) : Host.Outcome State Fault Refusal :=
  settled (onlyIf (sideOut s .host) (hostRequest (wakeClassOf c).1 (wakeClassOf c).2) s)

/-- R692: a wake completes. -/
def execWakeComplete (side : Side) (saveDbe : Bool) (s : State) : Host.Outcome State Fault Refusal :=
  settled (onlyIf (sideOut s side) (wakeDone side saveDbe) s)

/-- R694, R696: the limit of a wake step. -/
def execWakeStepTimeout (side : Side) (what : WakeStep) (sameCycle : Bool) (s : State) : Host.Outcome State Fault Refusal :=
  settled (onlyIf (sideOut s side) (wakeStepLate side what sameCycle) s)

/-- R674: a tile enters Sleep on its own. -/
def execTileAutoSleep (t : TileNo) (s : State) : Host.Outcome State Fault Refusal := settled (onlyIf (tileOut s t) (tileSleeps t) s)

/-- R675: a tile leaves its automatic Sleep. -/
def execTileAutoWake (t : TileNo) (s : State) : Host.Outcome State Fault Refusal := settled (tileAwakes t s)

/-- R710: an entry of the power schedule comes due. -/
def execScheduleOccurrence (i : Fin 16) (s : State) : Host.Outcome State Fault Refusal := settled (scheduleActs i.val s)

/-- R690: the pulse on HWAKE_OUT ends. -/
def execHwakeOutPulseEnd (s : State) : Host.Outcome State Fault Refusal := settled (hwakeEnds s)

/-- R702: the crystal of the always-on counter fails. -/
def execAofail (s : State) : Host.Outcome State Fault Refusal := settled (aocFails s)

/-- R702: the crystal of the always-on counter has returned. -/
def execAocCrystalReturn (s : State) : Host.Outcome State Fault Refusal := settled (aocReturns s)

-- ---------------------------------------------------------------- host banks (R700, R762)

/-- R700: a host bank loses its supply. -/
def execHostBankSupplyLoss (b : Fin 3) (s : State) : Host.Outcome State Fault Refusal := settled (hostSupply (8 + b.val) true s)

/-- R762: a host bank's supply returns. -/
def execHostBankSupplyReturn (b : Fin 3) (s : State) : Host.Outcome State Fault Refusal := settled (hostSupply (8 + b.val) false s)

end Sys2Proof.Machine
end

