-- ==== Sys2Proof/Machine/RowsSieve.lean ====
section
/-! DEFINITION. The meanings of the Sieve and Trellis rows: samples, snapshots, transforms, rule sets, engines, sentinels, and records
on their way to the queues. -/

namespace Sys2Proof.Machine

/-- R413, R416, R444: Sieve takes the next waiting sample of a context. -/
def execSieveSample (k : CtxNo) (copyOk dbe : Bool) (s : State) : Host.Outcome State Fault Refusal :=
  settled (onlyIf (svEngineUp s k.val) (svTake k.val copyOk dbe) s)

/-- R441: a snapshot is complete. -/
def execSnapshotComplete (k : CtxNo) (s : State) : Host.Outcome State Fault Refusal := settled (onlyIf (svEngineUp s k.val) (snapDone k.val) s)

/-- R427: a spectral unit completes its oldest block. -/
def execTransformComplete (u : Fin 2) (s : State) : Host.Outcome State Fault Refusal := settled (onlyIf (fhUp s) (transform u.val) s)

/-- R446: a committed rule-set change takes effect, the window it waited for having ended. -/
def execRuleSetChange (k : CtxNo) (s : State) : Host.Outcome State Fault Refusal := settled (onlyIf (fhUp s) (ruleSetDue k.val) s)

/-- Engine e fails its residue check: an active engine retires to the spare, the spare just retires, and without a spare the failure is
source 20 (R448, R449). -/
def engineFails (e : Fin 17) (s : State) : State :=
  if engState s e.val == 2 then s
  else if e.val = 16 ∧ engState s 16 = 1 then spareRetire s
  else if noSpare s then assertMap 20 none .fh e.val s
  else engRetireTo16 e.val s

/-- R448: a residue failure of an engine. -/
def execEngineRetire (e : Fin 17) (s : State) : Host.Outcome State Fault Refusal := settled (onlyIf (fhUp s) (engineFails e) s)

/-- R449: a residue failure of the spare. -/
def execSpareFailure (s : State) : Host.Outcome State Fault Refusal :=
  settled (onlyIf (fhUp s && engState s 16 == 1) spareRetire s)

/-- R703: a sentinel's poll. -/
def execSentinelPoll (i : Fin 8) (rx : List (List Bool)) (s : State) : Host.Outcome State Fault Refusal := settled (sentPoll i.val rx s)

-- ---------------------------------------------------------------- Trellis

/-- The oldest record on its way reaches Trellis. -/
def recordArrives (s : State) : State :=
  match s.tr.path with
  | r :: rest => arrive r { s with tr := { s.tr with path := rest } }
  | [] => s

/-- R477: the oldest record on its way reaches Trellis. -/
def execRecordArrival (s : State) : Host.Outcome State Fault Refusal := settled (onlyIf (fhUp s) recordArrives s)

/-- The next release time of a sample-time queue comes; the read of the reorder store may meet errors (R482, R503). -/
def releaseNext (q : Nat) (mem : MemErr) (s : State) : State :=
  match earliest s (s.tr.held.filter (fun r => r.q == q)) with
  | some r => releaseDue q (memErrs mem (strikeHeld q (ckqBad mem) (toField (releaseAt s r) s)))
  | none => s

/-- R482: a queue's next release. -/
def execSampleTimeRelease (x : QueueRead) (s : State) : Host.Outcome State Fault Refusal :=
  settled (onlyIf (fhUp s) (releaseNext x.queue.val x.mem) s)

end Sys2Proof.Machine
end

