-- ==== Sys2Proof/Machine/Dispatch.lean ====
section
/-! DEFINITION. The dispatch: one arm per constructor of Instr, each a direct call of the meaning its family's file gives. -/

namespace Sys2Proof.Machine

def exec (i : Instr) (s : State) : Host.Outcome State Fault Refusal :=
  match i with
  | .read h addr payload => Sys2Proof.Machine.execRead h addr payload s
  | .write h addr payload => Sys2Proof.Machine.execWrite h addr payload s
  | .windowRead h addr payload => Sys2Proof.Machine.execWindowRead h addr payload s
  | .windowWrite h addr payload => Sys2Proof.Machine.execWindowWrite h addr payload s
  | .pop h addr payload => Sys2Proof.Machine.execPop h addr payload s
  | .peek h addr payload => Sys2Proof.Machine.execPeek h addr payload s
  | .ack h addr payload => Sys2Proof.Machine.execAck h addr payload s
  | .subscribeAdd h addr hi rest => Sys2Proof.Machine.execSubscribeAdd h addr hi rest s
  | .subscribeRemove h addr hi rest => Sys2Proof.Machine.execSubscribeRemove h addr hi rest s
  | .rewind h addr hi rest => Sys2Proof.Machine.execRewind h addr hi rest s
  | .streamon h addr hi rest => Sys2Proof.Machine.execStreamon h addr hi rest s
  | .streamoff h addr hi rest => Sys2Proof.Machine.execStreamoff h addr hi rest s
  | .ctxAdd h addr hi rest => Sys2Proof.Machine.execCtxAdd h addr hi rest s
  | .ctxChange h addr hi rest => Sys2Proof.Machine.execCtxChange h addr hi rest s
  | .ctxRemove h addr hi rest => Sys2Proof.Machine.execCtxRemove h addr hi rest s
  | .ctxStart h addr hi rest => Sys2Proof.Machine.execCtxStart h addr hi rest s
  | .ctxStop h addr hi rest => Sys2Proof.Machine.execCtxStop h addr hi rest s
  | .graftBegin h addr hi rest => Sys2Proof.Machine.execGraftBegin h addr hi rest s
  | .graftStage h addr hi rest => Sys2Proof.Machine.execGraftStage h addr hi rest s
  | .graftCommit h addr hi rest => Sys2Proof.Machine.execGraftCommit h addr hi rest s
  | .graftAbort h addr hi rest => Sys2Proof.Machine.execGraftAbort h addr hi rest s
  | .graftFlash h addr hi rest => Sys2Proof.Machine.execGraftFlash h addr hi rest s
  | .firmwareHandover copyOk => Sys2Proof.Machine.execFirmwareHandover copyOk s
  | .pendingItem ix => Sys2Proof.Machine.execPendingItem ix s
  | .graftTmo withCommit => Sys2Proof.Machine.execGraftTmo withCommit s
  | .power h addr payload => Sys2Proof.Machine.execPower h addr payload s
  | .reset h addr payload => Sys2Proof.Machine.execReset h addr payload s
  | .resetCommandAssert => Sys2Proof.Machine.execResetCommandAssert s
  | .timeSet h addr hi rest => Sys2Proof.Machine.execTimeSet h addr hi rest s
  | .timeStep h addr hi rest => Sys2Proof.Machine.execTimeStep h addr hi rest s
  | .timeOffset h addr hi rest => Sys2Proof.Machine.execTimeOffset h addr hi rest s
  | .timeFreq h addr hi rest => Sys2Proof.Machine.execTimeFreq h addr hi rest s
  | .timeAccept h addr hi rest => Sys2Proof.Machine.execTimeAccept h addr hi rest s
  | .keyLoad h addr hi rest => Sys2Proof.Machine.execKeyLoad h addr hi rest s
  | .keyErase h addr hi rest => Sys2Proof.Machine.execKeyErase h addr hi rest s
  | .loadClear h addr hi rest => Sys2Proof.Machine.execLoadClear h addr hi rest s
  | .status h addr payload => Sys2Proof.Machine.execStatus h addr payload s
  | .responseSend e ix => Sys2Proof.Machine.execResponseSend e ix s
  | .registerReadTimeout p tag sameCycle => Sys2Proof.Machine.execRegisterReadTimeout p tag sameCycle s
  | .portEnable h n v => Sys2Proof.Machine.execPortEnable h n v s
  | .portDisable h n v => Sys2Proof.Machine.execPortDisable h n v s
  | .fpCntclr h n v => Sys2Proof.Machine.execFpCntclr h n v s
  | .cwCntclr h n v => Sys2Proof.Machine.execCwCntclr h n v s
  | .cwAccept h n v => Sys2Proof.Machine.execCwAccept h n v s
  | .glbCkclr h v => Sys2Proof.Machine.execGlbCkclr h v s
  | .sqClr h n v => Sys2Proof.Machine.execSqClr h n v s
  | .fhCtxclr h v => Sys2Proof.Machine.execFhCtxclr h v s
  | .fltCntclr h t v => Sys2Proof.Machine.execFltCntclr h t v s
  | .fltSlotClr h t f v => Sys2Proof.Machine.execFltSlotClr h t f v s
  | .fltSlotWrite h t f v => Sys2Proof.Machine.execFltSlotWrite h t f v s
  | .swap h t v => Sys2Proof.Machine.execSwap h t v s
  | .tmSnap h t v => Sys2Proof.Machine.execTmSnap h t v s
  | .tmClr h t v => Sys2Proof.Machine.execTmClr h t v s
  | .cmpWrite h t c v => Sys2Proof.Machine.execCmpWrite h t c v s
  | .timerEnable h t c v => Sys2Proof.Machine.execTimerEnable h t c v s
  | .timerDisable h t c v => Sys2Proof.Machine.execTimerDisable h t c v s
  | .tbClr h v => Sys2Proof.Machine.execTbClr h v s
  | .tbPtpClr h v => Sys2Proof.Machine.execTbPtpClr h v s
  | .tbPlsClr h ix v => Sys2Proof.Machine.execTbPlsClr h ix v s
  | .servoEnable h v => Sys2Proof.Machine.execServoEnable h v s
  | .retryh h v => Sys2Proof.Machine.execRetryh h v s
  | .retryf h v => Sys2Proof.Machine.execRetryf h v s
  | .pulseEnable h ix v => Sys2Proof.Machine.execPulseEnable h ix v s
  | .pulseDisable h ix v => Sys2Proof.Machine.execPulseDisable h ix v s
  | .svClr h v => Sys2Proof.Machine.execSvClr h v s
  | .sentinelEnable h ix v => Sys2Proof.Machine.execSentinelEnable h ix v s
  | .trClr h v => Sys2Proof.Machine.execTrClr h v s
  | .qClr h q v => Sys2Proof.Machine.execQClr h q v s
  | .queueEnable h q v => Sys2Proof.Machine.execQueueEnable h q v s
  | .ppCntclr h p v => Sys2Proof.Machine.execPpCntclr h p v s
  | .ppEthClr h e v => Sys2Proof.Machine.execPpEthClr h e v s
  | .keySlotWrite h p v => Sys2Proof.Machine.execKeySlotWrite h p v s
  | .mdioCmd h v => Sys2Proof.Machine.execMdioCmd h v s
  | .mdioFrameEnd data => Sys2Proof.Machine.execMdioFrameEnd data s
  | .clClr h v => Sys2Proof.Machine.execClClr h v s
  | .clLaneClr h x v => Sys2Proof.Machine.execClLaneClr h x v s
  | .laneEnable h x v => Sys2Proof.Machine.execLaneEnable h x v s
  | .laneDisable h x v => Sys2Proof.Machine.execLaneDisable h x v s
  | .drainEnd x => Sys2Proof.Machine.execDrainEnd x s
  | .rstClr h v => Sys2Proof.Machine.execRstClr h v s
  | .pwrClr h v => Sys2Proof.Machine.execPwrClr h v s
  | .pwrHwclr h v => Sys2Proof.Machine.execPwrHwclr h v s
  | .pwrPadrel h v => Sys2Proof.Machine.execPwrPadrel h v s
  | .aocRetry h v => Sys2Proof.Machine.execAocRetry h v s
  | .glbGrfClr h v => Sys2Proof.Machine.execGlbGrfClr h v s
  | .loadBegin h v => Sys2Proof.Machine.execLoadBegin h v s
  | .loadChunk h v => Sys2Proof.Machine.execLoadChunk h v s
  | .loadEnd h v => Sys2Proof.Machine.execLoadEnd h v s
  | .otpProgram h v took => Sys2Proof.Machine.execOtpProgram h v took s
  | .tsnsRead h n => Sys2Proof.Machine.execTsnsRead h n s
  | .insnsRead h t f => Sys2Proof.Machine.execInsnsRead h t f s
  | .tbNownsRead h => Sys2Proof.Machine.execTbNownsRead h s
  | .tbPpsnsRead h => Sys2Proof.Machine.execTbPpsnsRead h s
  | .tbAocloRead h => Sys2Proof.Machine.execTbAocloRead h s
  | .lastnsRead h ix => Sys2Proof.Machine.execLastnsRead h ix s
  | .snapnsRead h t => Sys2Proof.Machine.execSnapnsRead h t s
  | .capRead h t c => Sys2Proof.Machine.execCapRead h t c s
  | .marknsRead h q => Sys2Proof.Machine.execMarknsRead h q s
  | .secCtrRead h p => Sys2Proof.Machine.execSecCtrRead h p s
  | .pwrLwnsRead h => Sys2Proof.Machine.execPwrLwnsRead h s
  | .pollDue k => Sys2Proof.Machine.execPollDue k s
  | .wireGrant n => Sys2Proof.Machine.execWireGrant n s
  | .dataReady n line => Sys2Proof.Machine.execDataReady n line s
  | .xferDone n rx edges => Sys2Proof.Machine.execXferDone n rx edges s
  | .retryIntervalExpiry n ix => Sys2Proof.Machine.execRetryIntervalExpiry n ix s
  | .delayEnd n ix => Sys2Proof.Machine.execDelayEnd n ix s
  | .waitdrTimeout n ix sameCycle => Sys2Proof.Machine.execWaitdrTimeout n ix sameCycle s
  | .tlimExpiry n ix sameCycle rx edges => Sys2Proof.Machine.execTlimExpiry n ix sameCycle rx edges s
  | .timedTrig n ix => Sys2Proof.Machine.execTimedTrig n ix s
  | .transactionComplete n ix => Sys2Proof.Machine.execTransactionComplete n ix s
  | .blockComplete n a b edges age periods => Sys2Proof.Machine.execBlockComplete n a b edges age periods s
  | .clkLost n x => Sys2Proof.Machine.execClkLost n x s
  | .bankDown t => Sys2Proof.Machine.execBankDown t s
  | .bankReturn t mv => Sys2Proof.Machine.execBankReturn t mv s
  | .windowChunk n rx => Sys2Proof.Machine.execWindowChunk n rx s
  | .windowReadTimeout n sameCycle rx => Sys2Proof.Machine.execWindowReadTimeout n sameCycle rx s
  | .statusReadRepeat n st => Sys2Proof.Machine.execStatusReadRepeat n st s
  | .writeLimitExpiry x => Sys2Proof.Machine.execWriteLimitExpiry x s
  | .identityRead n ix => Sys2Proof.Machine.execIdentityRead n ix s
  | .identityJudge n ix rx withAccept => Sys2Proof.Machine.execIdentityJudge n ix rx withAccept s
  | .periodBoundary k => Sys2Proof.Machine.execPeriodBoundary k s
  | .profileSwitch k => Sys2Proof.Machine.execProfileSwitch k s
  | .filterOutput t f err residue => Sys2Proof.Machine.execFilterOutput t f err residue s
  | .timeExchange x offset => Sys2Proof.Machine.execTimeExchange x offset s
  | .fstateTimeout sameCycle => Sys2Proof.Machine.execFstateTimeout sameCycle s
  | .servoTmo sameCycle => Sys2Proof.Machine.execServoTmo sameCycle s
  | .stepInstant => Sys2Proof.Machine.execStepInstant s
  | .oscFail side shift => Sys2Proof.Machine.execOscFail side shift s
  | .oscSwitchBack side shift => Sys2Proof.Machine.execOscSwitchBack side shift s
  | .ppsIn => Sys2Proof.Machine.execPpsIn s
  | .pulseInstant ix => Sys2Proof.Machine.execPulseInstant ix s
  | .pulseEnd ix => Sys2Proof.Machine.execPulseEnd ix s
  | .pulseRequest ix => Sys2Proof.Machine.execPulseRequest ix s
  | .aocRatioUpdate ratio => Sys2Proof.Machine.execAocRatioUpdate ratio s
  | .ptpEventRx e m => Sys2Proof.Machine.execPtpEventRx e m s
  | .syncTransmit tx => Sys2Proof.Machine.execSyncTransmit tx s
  | .delayReqTransmit tx => Sys2Proof.Machine.execDelayReqTransmit tx s
  | .announceReceiptTimeout => Sys2Proof.Machine.execAnnounceReceiptTimeout s
  | .countMatch t c d => Sys2Proof.Machine.execCountMatch t c d s
  | .overflow t c d => Sys2Proof.Machine.execOverflow t c d s
  | .timerPulseEnd t c => Sys2Proof.Machine.execTimerPulseEnd t c s
  | .trigEdge t pin level age => Sys2Proof.Machine.execTrigEdge t pin level age s
  | .debugHalt => Sys2Proof.Machine.execDebugHalt s
  | .debugResume => Sys2Proof.Machine.execDebugResume s
  | .sieveSample k copyOk dbe => Sys2Proof.Machine.execSieveSample k copyOk dbe s
  | .snapshotComplete k => Sys2Proof.Machine.execSnapshotComplete k s
  | .transformComplete u => Sys2Proof.Machine.execTransformComplete u s
  | .ruleSetChange k => Sys2Proof.Machine.execRuleSetChange k s
  | .engineRetire e => Sys2Proof.Machine.execEngineRetire e s
  | .spareFailure => Sys2Proof.Machine.execSpareFailure s
  | .sentinelPoll ix rx => Sys2Proof.Machine.execSentinelPoll ix rx s
  | .recordArrival => Sys2Proof.Machine.execRecordArrival s
  | .sampleTimeRelease x => Sys2Proof.Machine.execSampleTimeRelease x s
  | .streamFrameSend e x => Sys2Proof.Machine.execStreamFrameSend e x s
  | .ethFrameReceive e f => Sys2Proof.Machine.execEthFrameReceive e f s
  | .reassemblyTimeout e msg => Sys2Proof.Machine.execReassemblyTimeout e msg s
  | .linkDown e => Sys2Proof.Machine.execLinkDown e s
  | .linkUp e => Sys2Proof.Machine.execLinkUp e s
  | .energyDetect e => Sys2Proof.Machine.execEnergyDetect e s
  | .shpTransaction p rx extra => Sys2Proof.Machine.execShpTransaction p rx extra s
  | .shpResponse p extra => Sys2Proof.Machine.execShpResponse p extra s
  | .shpSelectRise p inResponse bits => Sys2Proof.Machine.execShpSelectRise p inResponse bits s
  | .claspFrameRx x f => Sys2Proof.Machine.execClaspFrameRx x f s
  | .heartbeatSend x => Sys2Proof.Machine.execHeartbeatSend x s
  | .heart x sameCycle => Sys2Proof.Machine.execHeart x sameCycle s
  | .chan x => Sys2Proof.Machine.execChan x s
  | .trainingComplete x delay => Sys2Proof.Machine.execTrainingComplete x delay s
  | .trainingTimeout x => Sys2Proof.Machine.execTrainingTimeout x s
  | .retrain x => Sys2Proof.Machine.execRetrain x s
  | .laneResume x => Sys2Proof.Machine.execLaneResume x s
  | .losslimExpiry side => Sys2Proof.Machine.execLosslimExpiry side s
  | .powerOn side bootsel torn => Sys2Proof.Machine.execPowerOn side bootsel torn s
  | .brownout side rail => Sys2Proof.Machine.execBrownout side rail s
  | .resetPin side low => Sys2Proof.Machine.execResetPin side low s
  | .watchdog d => Sys2Proof.Machine.execWatchdog d s
  | .ftfault t => Sys2Proof.Machine.execFtfault t s
  | .portfault n => Sys2Proof.Machine.execPortfault n s
  | .lsfh => Sys2Proof.Machine.execLsfh s
  | .lshb => Sys2Proof.Machine.execLshb s
  | .dbectx k => Sys2Proof.Machine.execDbectx k s
  | .dbecfg side words => Sys2Proof.Machine.execDbecfg side words s
  | .timebaseParity side => Sys2Proof.Machine.execTimebaseParity side s
  | .jtagReset w => Sys2Proof.Machine.execJtagReset w s
  | .resetRelease => Sys2Proof.Machine.execResetRelease s
  | .nvWriteEnd => Sys2Proof.Machine.execNvWriteEnd s
  | .fhCheckpoint => Sys2Proof.Machine.execFhCheckpoint s
  | .coreCheckpoint => Sys2Proof.Machine.execCoreCheckpoint s
  | .fuseLoad differ => Sys2Proof.Machine.execFuseLoad differ s
  | .fuseRetry differ => Sys2Proof.Machine.execFuseRetry differ s
  | .imagePass1 => Sys2Proof.Machine.execImagePass1 s
  | .imagePass2 => Sys2Proof.Machine.execImagePass2 s
  | .fieldLoad => Sys2Proof.Machine.execFieldLoad s
  | .ap1 side => Sys2Proof.Machine.execAp1 side s
  | .ap2 side => Sys2Proof.Machine.execAp2 side s
  | .ap3 side => Sys2Proof.Machine.execAp3 side s
  | .ap4 side wake => Sys2Proof.Machine.execAp4 side wake s
  | .drainLimit side => Sys2Proof.Machine.execDrainLimit side s
  | .wakePin side => Sys2Proof.Machine.execWakePin side s
  | .hostWakeRequest c => Sys2Proof.Machine.execHostWakeRequest c s
  | .wakeComplete side saveDbe => Sys2Proof.Machine.execWakeComplete side saveDbe s
  | .wakeStepTimeout side what sameCycle => Sys2Proof.Machine.execWakeStepTimeout side what sameCycle s
  | .tileAutoSleep t => Sys2Proof.Machine.execTileAutoSleep t s
  | .tileAutoWake t => Sys2Proof.Machine.execTileAutoWake t s
  | .scheduleOccurrence ix => Sys2Proof.Machine.execScheduleOccurrence ix s
  | .hwakeOutPulseEnd => Sys2Proof.Machine.execHwakeOutPulseEnd s
  | .aofail => Sys2Proof.Machine.execAofail s
  | .aocCrystalReturn => Sys2Proof.Machine.execAocCrystalReturn s
  | .clkok x => Sys2Proof.Machine.execClkok x s
  | .streamStuck n stream => Sys2Proof.Machine.execStreamStuck n stream s
  | .trigTrailingEdge n ix => Sys2Proof.Machine.execTrigTrailingEdge n ix s
  | .loadWindowEnd t => Sys2Proof.Machine.execLoadWindowEnd t s
  | .oscillatorReady side => Sys2Proof.Machine.execOscillatorReady side s
  | .announceTransmit => Sys2Proof.Machine.execAnnounceTransmit s
  | .pauseQuantaExpiry e => Sys2Proof.Machine.execPauseQuantaExpiry e s
  | .forwardedFrameSend e => Sys2Proof.Machine.execForwardedFrameSend e s
  | .hostBankSupplyLoss b => Sys2Proof.Machine.execHostBankSupplyLoss b s
  | .hostBankSupplyReturn b => Sys2Proof.Machine.execHostBankSupplyReturn b s

end Sys2Proof.Machine
end

