-- ==== Sys2Proof/Machine/Step.lean ====
section
/-! DEFINITION. One step of the block: the command at the front of the queue, or a tick of device time when none waits. -/

namespace Sys2Proof.Machine

/-- The command at the front of the queue is taken and run with the queue's rest; with none waiting, one 2 ns tick passes
(R299; DESIGN CHOICE, notes/assumptions/5.md). (DESIGN CHOICE, notes/assumptions/1.md.) -/
def step (s : State) : Host.Outcome State Fault Refusal :=
  match s.pending with
  | c :: rest => exec c { s with pending := rest }
  | [] => Sys2Proof.Machine.idleTick s

/-- The command a table word spells goes to the front of the queue; the table gives no row bits, so there is none. (DESIGN CHOICE, notes/assumptions/1.md.) -/
def State.withFetchWord (s : State) (nbits w : Nat) : State :=
  match Sys2Proof.decodeTableWord nbits w with
  | some c => { s with pending := c :: s.pending }
  | none => s

end Sys2Proof.Machine
end

