-- ==== Sys2Proof/Safety.lean ====
section
/-! DEFINITION. The words that claims use: what a quiet state is, when a request passes the checks of R516, what an answer looks
like, and what a command leaves alone. -/

namespace Sys2Proof.Machine

-- ---------------------------------------------------------------- states

/-- No command waits for an owner of its target, and no committed Graft item waits for a boundary (R31, R726). -/
def Quiet (s : State) : Prop := s.stalled = [] ∧ s.waits = []

/-- The lines and balls are as their sources say (R617, R658, R758). -/
def LinesFollow (s : State) : Prop := s.pins = pinsOf s

/-- Every register but those of a list is as before. -/
def RegsBut (l : List Nat) (s t : State) : Prop := ∀ a, a ∉ l → reg t a = reg s a

/-- Nothing but registers and the shared lines has changed. -/
def OnlyRegs (s t : State) : Prop := { t with regs := s.regs, pins := s.pins } = s

/-- Nothing but registers, the shared lines and one port's books has changed: its store, its waiting responses, and the NV memory that
holds its counter's bound (R518, R524). -/
def OnlyAnswer (s t : State) : Prop :=
  { t with regs := s.regs, part := s.part, nv := s.nv, nvOld := s.nvOld, pins := s.pins } = s

-- ---------------------------------------------------------------- requests (R516)

/-- The command that a row's request makes. -/
def rowCmd (op : Nat) (h : Hdr) (addr : Word) (payload : List Word) : Cmd := cmdOf (reqOf op h addr payload) h

/-- The state in which a request that passed runs: counted by its port and in its store (R518, R572). -/
def taken (op : Nat) (h : Hdr) (addr : Word) (payload : List Word) (s : State) : State :=
  bookIn h.port.val (rowCmd op h addr payload) (cnt (R.P_CNT h.port.val 0) s)

/-- A request passes steps 1 to 7 of R516 and may run at once: its port hears, the host side is in Run, its CRC holds, no check of
steps 3 to 7 fails, the core pair is there, the counter bound it may need can be written (R524), and nothing else waits. -/
structure Passes (op : Nat) (h : Hdr) (addr : Word) (payload : List Word) (s : State) : Prop where
  awake : s.pow.host.st = .run
  hears : hears s h.port.val = true
  crc : reqCrcHolds (reqOf op h addr payload) = true
  early : earlyRefusal (cnt (R.P_CNT h.port.val 0) s) h.port.val (reqOf op h addr payload) (rowCmd op h addr payload) = none
  core : coreAway s = false
  bound : h.nvFails = false
  quiet : Quiet s

/-- The word at an address has an owner that can answer: its unit is not held, and a field block's path is open and its dies are awake
(R31, R34, R691). -/
structure Reaches (s : State) (a : Nat) : Prop where
  held : unitHeld s a = false
  path : fieldBlk (blockAt a).kind = true → fieldAway s = false ∧ ownerAway s a = false
  awake : fieldBlk (blockAt a).kind = true → tileWakes a s = s

/-- A WRITE of one word to a register passes, and its own checks refuse it nowhere: the image runs, no other port holds a Graft where the word is critical (R714),
the register's owner can answer, and no rule of the register refuses the word (R538). -/
structure WriteRuns (h : Hdr) (a : Nat) (v : Word) (s : State) : Prop where
  passes : Passes opWRITE h (wordOf a) [v] s
  running : inLoadWait (taken opWRITE h (wordOf a) [v] s) = false
  free : (heldByOther (taken opWRITE h (wordOf a) [v] s) h.port.val &&
    writeCrit (taken opWRITE h (wordOf a) [v] s) h.port.val (rowCmd opWRITE h (wordOf a) [v])) = false
  reaches : Reaches (taken opWRITE h (wordOf a) [v] s) a
  allowed : firstRefusal (some h.port.val) (h.flags.getLsbD 0) (fun _ => false) [(a, v)] (taken opWRITE h (wordOf a) [v] s) = none

/-- The response that answers a command (R511). -/
def respFor (c : Cmd) (st : Nat) (payload : List Word) : Resp := { cmd := c, status := st, race := false, payload := payload }

/-- The command's answer waits at its port, after those that waited before it (R511, R519). -/
def Answers (s t : State) (h : Hdr) (c : Cmd) (st : Nat) (payload : List Word) : Prop :=
  (partGet t h.port.val).resp = (partGet s h.port.val).resp ++ [respFor c st payload]

/-- A request is answered and nothing else happens: its answer waits, its port has counted it (R572), a counter it carries may have
raised the port's books and the bound in NV memory (R523, R524), and but for the registers of a list every register is as
before. -/
def Replies (s t : State) (op : Nat) (h : Hdr) (addr : Word) (payload : List Word) (st : Nat) (pay : List Word) (regs : List Nat) : Prop :=
  Answers s t h (rowCmd op h addr payload) st pay ∧ RegsBut (R.P_CNT h.port.val 0 :: regs) s t ∧ OnlyAnswer s t

/-- A command or an event runs at s: `exec` answers a next state, and P holds of that state. -/
def Runs (c : Instr) (s : State) (P : State → Prop) : Prop := ∃ t, exec c s = .next t ∧ P t

/-- A register of a list is selected by its bit of a CLR word: bit i for the i-th register. -/
def Selected (regs : List Nat) (v : Word) (a : Nat) : Prop := ∃ i, regs[i]? = some a ∧ bitOf v.toNat i = true

/-- The row `c` is a write of the word v to the clear register at a, whose bit i clears the i-th register of `regs`: when the write
runs, the registers selected read zero, every other register is as before, and the answer is OK. -/
def ClearsOn (c : Instr) (h : Hdr) (a : Nat) (v : Word) (regs : List Nat) (s : State) : Prop :=
  WriteRuns h a v s → Runs c s (fun t =>
    Answers s t h (rowCmd opWRITE h (wordOf a) [v]) stOK [] ∧
    (∀ b, Selected regs v b → reg t b = 0) ∧
    (∀ b, ¬ Selected regs v b → b ≠ R.P_CNT h.port.val 0 → reg t b = reg s b) ∧
    OnlyAnswer s t)

/-- The parts of the state, one for each field of it. -/
inductive Part where
  | pending | fresh | elapsed | regs | qmem | tm | tr | ctxs | ports | tiles | filt | sv | tmrs | tmrAt | frozen | snapSec | graft | waits
  | part | stalled | nv | nvOld | cl | boot | pow | pins | sent
  deriving DecidableEq, Repr

/-- One part of the state is as before. -/
def Same (p : Part) (s t : State) : Prop :=
  match p with
  | .pending => t.pending = s.pending
  | .fresh => t.fresh = s.fresh
  | .elapsed => t.elapsed = s.elapsed
  | .regs => t.regs = s.regs
  | .qmem => t.qmem = s.qmem
  | .tm => t.tm = s.tm
  | .tr => t.tr = s.tr
  | .ctxs => t.ctxs = s.ctxs
  | .ports => t.ports = s.ports
  | .tiles => t.tiles = s.tiles
  | .filt => t.filt = s.filt
  | .sv => t.sv = s.sv
  | .tmrs => t.tmrs = s.tmrs
  | .tmrAt => t.tmrAt = s.tmrAt
  | .frozen => t.frozen = s.frozen
  | .snapSec => t.snapSec = s.snapSec
  | .graft => t.graft = s.graft
  | .waits => t.waits = s.waits
  | .part => t.part = s.part
  | .stalled => t.stalled = s.stalled
  | .nv => t.nv = s.nv
  | .nvOld => t.nvOld = s.nvOld
  | .cl => t.cl = s.cl
  | .boot => t.boot = s.boot
  | .pow => t.pow = s.pow
  | .pins => t.pins = s.pins
  | .sent => t.sent = s.sent

/-- Every part of the state but those of a list is as before. -/
def Only (l : List Part) (s t : State) : Prop := ∀ p, p ∉ l → Same p s t

/-- The parts that an answer may change (R511, R518, R523, R524, R572): registers, the port's books, NV memory, and the lines. -/
def answerParts : List Part := [.regs, .part, .nv, .nvOld, .pins]

/-- A request carries CRIT (R510). -/
def isCrit (h : Hdr) : Bool := h.flags.getLsbD 0

/-- The address ranges outside every block of R53 (R18). -/
def reservedRanges : List (Nat × Nat) :=
  [(0x14000, 0x20000), (0x60000, 0x100000), (0x160000, 0x200000), (0x218000, 0x220000), (0x260000, 0x1000000), (0x1800000, 0x40000000),
   (0x70000000, 0x80000000), (0x88000000, 0x100000000)]

/-- The row `c` is a write of the word v to the register at a. When the write runs, it is answered with `st`, P holds of the state
after it, of the registers only those of `regs` (and the port's count of requests) change, of the rest of the state only the port's
own books, the NV memory that holds its counter's bound, and the parts of `parts`. -/
def WroteAs (st : Nat) (c : Instr) (h : Hdr) (a : Nat) (v : Word) (s : State) (regs : List Nat) (parts : List Part) (P : State → Prop) : Prop :=
  WriteRuns h a v s → Runs c s (fun t =>
    Answers s t h (rowCmd opWRITE h (wordOf a) [v]) st [] ∧
    RegsBut (R.P_CNT h.port.val 0 :: regs) s t ∧ Only (answerParts ++ parts) s t ∧
    (∀ q, q ≠ h.port.val → partGet t q = partGet s q) ∧ P t)

/-- A write row that is answered OK. -/
def Wrote (c : Instr) (h : Hdr) (a : Nat) (v : Word) (s : State) (regs : List Nat) (parts : List Part) (P : State → Prop) : Prop :=
  WroteAs stOK c h a v s regs parts P

/-- What the passage of time to an event's instant may change: elapsed time, both timebases, the always-on counter, and the timer
channels of the tiles with their registers. -/
def TimePassed (s t : State) : Prop :=
  t = { s with regs := t.regs, tmrs := t.tmrs, tmrAt := t.tmrAt, elapsed := t.elapsed, pins := t.pins
               tm := { s.tm with master := t.tm.master, field := t.tm.field, aoc := t.tm.aoc, aocFrac := t.tm.aocFrac } } ∧
  s.elapsed ≤ t.elapsed

/-- Every register but those of a list and those of the tile timers is as before. -/
def RegsButTimers (l : List Nat) (s t : State) : Prop := ∀ a, (blockAt a).kind ≠ .tmr → a ∉ l → reg t a = reg s a

/-- A register has taken the bits of v that a mask names. -/
def Takes (t : State) (a : Nat) (v : Word) (mask : Nat) : Prop := reg t a &&& wordOf mask = v &&& wordOf mask

/-- Every field port but n is as before. -/
def OtherPorts (n : Nat) (s t : State) : Prop := ∀ m, m ≠ n → portGet t m = portGet s m

/-- A write of FTt_TM_SNAP with this word copies channel c: its bit, or that of the other channel of its linked pair (R377, R378). -/
def snapSelects (s : State) (t c : Nat) (v : Word) : Bool :=
  bitOf v.toNat c || (tmLinked s t c && bitOf v.toNat (c + 1)) || (tmOddOfPair s t c && bitOf v.toNat (c - 1))

/-- Channel c of tile t counts alone. -/
def unlinked (s : State) (t c : Nat) : Prop := tmLinked s t c = false ∧ tmOddOfPair s t c = false

/-- The registers that a write of a channel's CMP or CTL may change. -/
def chanRegs (t c : Nat) : List Nat :=
  [R.FT_TMC_CTL t c, R.FT_TMC_CMP t c, R.FT_TMC_CMPSH t c, R.FT_TMC_STAT t c, R.FT_TMC_STAT t (c + 1)]

-- ---------------------------------------------------------------- events of the field ports

/-- The opcode of step j of context k's template (R209). -/
def stepOp (s : State) (k j : Nat) : Nat := bitsOf (cStep s k j) 63 60

/-- The step after a slot's present one ends the template (R209, R210). -/
def endsNext (s : State) (x : TxnS) : Prop := 16 ≤ x.step + 1 ∨ stepOp s x.ctx (x.step + 1) = 0

/-- Slot i of port n holds a transaction that has begun and has not ended. -/
def inFlight (s : State) (n i : Nat) (x : TxnS) : Prop := slotGet s n i = some x ∧ x.fin = none ∧ x.start.isSome = true

/-- The first step of context k's template is an XFER that the port can run: its select is an output, and its bits fit a frame. -/
def xferFirst (s : State) (n k slen : Nat) : Prop :=
  stepOp s k 0 = 1 ∧ selOk s n k = true ∧
  (if flag s (R.FP_WCFG n) F.FP_WCFG_STREAM then slen else bitsOf (cStep s k 0) 44 32) ≤ 4096

/-- Slot i runs its first step on the wire. -/
def onWire (s : State) (n i : Nat) (x : TxnS) : Prop :=
  slotGet s n i = some x ∧ (portGet s n).wire = some i ∧ x.step = 0 ∧ x.wait = 1 ∧ x.sel = true ∧ x.fin = none

/-- The registers that the start of a poll of context k on port n changes (R223 to R226, R242). -/
def startRegs (n k : Nat) : List Nat :=
  [R.CTX_STAT k, R.CTX_LAG k, R.CTX_CNT k, R.CTX_POLLS k, R.SQ_CNT_LATE n, R.SQ_CNT_CU n, R.SQ_MAXLAG n, R.FT_SQ_TPS (n / 8)]

/-- The registers that the start of the polls in port n's slots changes. -/
def slotRegs (s : State) (n : Nat) : List Nat := ((List.range 8).filterMap (slotGet s n)).flatMap (fun x => startRegs n x.ctx)

/-- The registers in which the filter engines show their bindings (R291, R292, R294). -/
def bindRegs : List Nat :=
  (List.range 6).flatMap (fun t => R.FT_FLT_STAT t :: (List.range 16).flatMap (fun f => [R.FT_SLOT_BIND t f, R.FT_SLOT_STAT t f]))

/-- Every slot of port n but i is as before. -/
def OtherSlots (n i : Nat) (s t : State) : Prop := ∀ j : SlotNo, j.val ≠ i → slotGet t n j.val = slotGet s n j.val

/-- Context k falls due now: it runs, it is polled, its due time is not in the future, nothing waits for its boundary, and its poll may
be issued (R67, R181, R183, R218 to R222, R229). -/
structure FallsDue (s : State) (k : Nat) : Prop where
  up : pollsGo s k = true
  runs : cState s k = stRunning
  polled : cBit s k = false
  quiet : (ctxGet s k).acts = [] ∧ (ctxGet s k).profReq = none
  due : ∀ x, (ctxGet s k).sched = some x → x.2 ≤ fieldNs s
  timed : (ctxGet s k).sched.isSome = true
  spaced : ∀ e, (tileGet s (cPort s k / 8)).lastIssue = some e → e + 250 ≤ s.elapsed
  may : pollable s k = true
  first : (∀ x, (ctxGet s k).sched = some x → dueBefore s k x.2 = false)
  there : ctxAbsent s k = false

/-- The parts of the state that the passage of time changes (R301, R370), and the lines. -/
def clockParts : List Part := [.elapsed, .regs, .tm, .tmrs, .tmrAt, .pins]

/-- Port p's command c has not been answered, and is answered now with these words (R511, R518). -/
def Answered (s t : State) (p : Nat) (c : Cmd) (st : Nat) (payload : List Word) : Prop :=
  (partGet t p).resp = (partGet s p).resp ++ [respFor c st payload]

/-- The command at the front of port n's window queue, which its port still expects an answer to. -/
def winFront (s : State) (n : Nat) (w : WinCmd) (rest : List WinCmd) : Prop :=
  (portGet s n).winQ = w :: rest ∧ (partGet s w.port.val).outst.contains w.cmd = true

/-- The window of port n may use the wire now (R167, R170). -/
def winReady (s : State) (n : Nat) : Prop := winMayRun s n = true ∧ (portGet s n).idDue = []

/-- Context k's boundary is not in the future: it has no due time, or its due time has come. -/
def boundaryNow (s : State) (k : Nat) : Prop := ∀ x, (ctxGet s k).sched = some x → x.2 ≤ fieldNs s

/-- A 32-bit counter has counted m (R41). -/
def Counted (s t : State) (a m : Nat) : Prop := (reg t a).toNat = min ((reg s a).toNat + m) 0xFFFFFFFF

-- ---------------------------------------------------------------- device time

/-- A channel makes a count step of d from its source now: it runs, its tile has its clock, nothing freezes it, and the source can step
by d (R368, R369, R371, R398). -/
def canStep (s : State) (t c d : Nat) : Prop :=
  (tmrGet s (8 * t + c)).on = true ∧ tileAwake s t = true ∧ tmFrozen s t c = false ∧
  (if tmCtl s t c F.FT_TMC_CTL_SRC = 1 then fld s R.TB_STAT F.TB_STAT_FSTATE ≠ 0 ∧ 4 ≤ d ∧ d ≤ 6 else d = 1)

/-- The ordinary clock of port e takes a message of its own domain and version (R340). -/
def ptpTakes (s : State) (e : EthNo) (m : PtpMsg) : Prop :=
  hears s e.val = true ∧ ptpEn s = true ∧ ptpPort s = e.val ∧ masterRuns s = true ∧ flag s R.TB_PTP_CTL F.TB_PTP_CTL_TC = false ∧
  m.version = 2 ∧ m.minor ≤ 1 ∧ m.domain = fld s R.TB_PTP_CTL F.TB_PTP_CTL_DOMAIN

/-- PTP messages as they leave a port. -/
def ptpSent (e : EthNo) (l : List (Nat × Nat × List Byte)) : List Sent := l.map (fun x => .ptp e x.1 x.2.1 x.2.2)

/-- A PTP message leaves port e and counts as a frame sent; while a pause is in force it waits instead (R559, R573). -/
def PtpLeaves (s t : State) (e : EthNo) (kind seq : Nat) (b : List Byte) : Prop :=
  if paused s e.val then
    t.sent = s.sent ∧ (partGet t e.val).ptpOut = (partGet s e.val).ptpOut ++ [(kind, seq, b)] ∧ reg t (R.P_ETH_CNT e.val 1) = reg s (R.P_ETH_CNT e.val 1)
  else t.sent = s.sent ++ [.ptp e kind seq b] ∧ (partGet t e.val).ptpOut = (partGet s e.val).ptpOut ∧
    (reg t (R.P_ETH_CNT e.val 1)).toNat = min ((reg s (R.P_ETH_CNT e.val 1)).toNat + 1) 0xFFFFFFFF

/-- The amount of a step in 2^-48 ns, and the word it sets (R322, R329). -/
def stepTo (s : State) (a : StepAmt) : Nat :=
  match a with
  | .add d => ((s.tm.master : Int) + d).toNat
  | .set v => v

/-- A shift of at most 20 ns in 2^-48 ns (R335). -/
def shiftOf (d : Int) : Int := max (-20) (min 20 d) * nsU

-- ---------------------------------------------------------------- Sieve and Trellis

/-- The engine of context k works, its next waiting item is the sample x, no rule-set change is due, and the sample before x has settled
(R411, R428, R444, R446). -/
structure SieveTakes (s : State) (k : Nat) (x : SvSample) (rest : List SvItem) : Prop where
  engine : svEngineUp s k = true
  front : (svGet s k).waiting = .smp x :: rest
  marks : rest.all isSmp = true
  due : (svGet s k).ruleDue = false
  held : (svGet s k).held = none

/-- Context k has the one rule r, with a window of one sample and no partners, in the profile of the sample x, and no spectral block or
snapshot in progress (R423, R430, R433). -/
structure OneRule (s : State) (k r : Nat) (x : SvSample) : Prop where
  rules : rulesOf s k = [r]
  window : rWin s r = 1
  alone : rComb s r = 0
  feature : rFeat s r ≠ bandFeat
  profile : rIn s r (hasFl x.flags flAlert) = true
  bands : (svGet s k).bandWins = []
  snap : (svGet s k).snap = none
  spectral : flag s (R.SV_CX_SPCFG k) F.SV_CX_SPCFG_EN = false

/-- What a Sieve sample may change beside registers: its context's Sieve state, the records on their way, profile requests, the power
states that a wake action asks for with the lanes that an unwound entry restarts (R435, R680), and with no lane the counts that wait to cross (R48). -/
def sieveParts : List Part := [.regs, .sv, .tr, .ctxs, .pow, .cl, .fresh, .pins]

/-- What a change of a queue's fill may reach beside registers: a wake of the host side (R470, R690), and the lanes that an unwound entry
restarts (R680). -/
def fillParts : List Part := [.pow, .cl]

/-- The registers that count the errors of reads of queue memory and of the reorder store (R49, R503). -/
def memRegs : List Nat := [R.TR_EVT, R.TR_CNT_SBE, R.TR_CNT_DBE, R.GLB_CKCNT 3]

/-- The records on their way to Trellis at t are those at s and then these. -/
def Sends (s t : State) (rs : List Rec) : Prop := t.tr.path = s.tr.path ++ rs

/-- The oldest record on its way is r, FH runs, and its queue is enabled in arrival order, with no EPOCH and no DROPPED gap due (R473, R478, R502). -/
structure EntersNext (s : State) (r : Rec) (rest : List Rec) : Prop where
  up : fhUp s = true
  front : s.tr.path = r :: rest
  enabled : qEn s r.q = true
  arrival : flag s (R.Q_ORD r.q) F.Q_ORD_MODE = false
  epoch : (queueGet s r.q).epochDue = none ∧ (queueGet s r.q).secHi = some (tSecHi r.ts)
  owed : (queueGet s r.q).drops = []

/-- Every queue's books but q's are as before. -/
def OtherQueues (q : Nat) (s t : State) : Prop := ∀ p, p ≠ q → queueGet t p = queueGet s p

/-- Every byte of queue memory outside `n` bytes from `off` is as before. -/
def QmemBut (off n : Nat) (s t : State) : Prop := ∀ a, a < off ∨ off + n ≤ a → qmemRead t a 1 = qmemRead s a 1

-- ---------------------------------------------------------------- the opcodes of R514

/-- The payload of a request whose word 0 names an action in bits [3:0] (R329, R528, R544, R676, R717). -/
def actPayload (hi : BitVec 28) (act : Nat) (rest : List Word) : List Word := wordOf (hi.toNat * 16 + act) :: rest

/-- The row `c` is a request. When it passes, it is answered with a status and words, no other port's books change, and P holds. -/
def Asks (st : Nat) (pay : List Word) (c : Instr) (op : Nat) (h : Hdr) (addr : Word) (payload : List Word) (s : State) (P : State → Prop) : Prop :=
  Passes op h addr payload s → Runs c s (fun t =>
    Answers s t h (rowCmd op h addr payload) st pay ∧ (∀ q, q ≠ h.port.val → partGet t q = partGet s q) ∧ P t)

/-- The row `c` is a request that passes and waits for its answer: it is in its port's store, and no response joins. -/
def Waits (c : Instr) (op : Nat) (h : Hdr) (addr : Word) (payload : List Word) (s : State) (P : State → Prop) : Prop :=
  Passes op h addr payload s → Runs c s (fun t =>
    (partGet t h.port.val).resp = (partGet s h.port.val).resp ∧
    (partGet t h.port.val).outst = (partGet s h.port.val).outst ++ [rowCmd op h addr payload] ∧
    (∀ q, q ≠ h.port.val → partGet t q = partGet s q) ∧ P t)

/-- Of the registers only those of a list, beside the port's count of requests, and of the rest only some parts beside those of an
answer, may have changed. -/
def ChangesOnly (h : Hdr) (regs : List Nat) (parts : List Part) (s t : State) : Prop :=
  RegsBut (R.P_CNT h.port.val 0 :: regs) s t ∧ Only (answerParts ++ parts) s t

/-- A READ of the register at a by the row `c` answers with what the register shows, and its companions take the value that goes with
it. -/
def Latches (c : Instr) (h : Hdr) (a : Nat) (s : State) (comps : List (Nat × Word)) : Prop :=
  Reaches (taken opREAD h (wordOf a) [1] s) a →
  Asks stOK [view (taken opREAD h (wordOf a) [1] s) a] c opREAD h (wordOf a) [1] s (fun t =>
    (∀ x ∈ comps, reg t x.1 = x.2) ∧ ChangesOnly h (comps.map (·.1)) [] s t)

/-- Nothing is staged or handed over: no Graft is open and no firmware hand-over runs (R713, R733). -/
def NoGraft (s : State) : Prop := s.graft = none ∧ s.boot.handover = none

/-- The registers that the end of a Graft changes (R739, R741). -/
def graftRegs : List Nat := [R.GLB_GRF_LAST, R.GLB_GRF_STAT, R.GLB_GRF_ITEMS, R.GLB_GRF_EVT, R.GLB_GRF_CNT]

/-- The registers that a change of queue q's fill may change (R466, R470, R471). -/
def fillRegs (q : Nat) : List Nat := [R.Q_STAT q, R.Q_EVT q]

/-- Every context's state but k's is as before. -/
def OtherCtxs (k : Nat) (s t : State) : Prop := ∀ j : CtxNo, j.val ≠ k → cState t j.val = cState s j.val ∧ ctxGet t j.val = ctxGet s j.val

-- ---------------------------------------------------------------- Ethernet and serial host ports

/-- The body of a frame of the request transport (R552): fragment idx of message msg with these bytes, and whether more follow. -/
def transportBody (idx : Nat) (more : Bool) (msg : BitVec 16) (data : List Byte) : List Byte :=
  leBytes 1 1 ++ leBytes 1 (idx + b2n more * 128) ++ leBytes 2 msg.toNat ++ leBytes 2 data.length ++ leBytes 2 0 ++ data

/-- A good frame that reaches port e for itself with this body: untagged, of the port's EtherType (R550 to R552). -/
structure OwnFrame (s : State) (e : EthNo) (f : EthFrame) (body : List Byte) : Prop where
  good : f.fcsOk = true
  pause : f.pause = none
  ptp : f.etype ≠ ptpType
  dst : f.dst = etherAddr s (R.P_ETH_MACLO e.val) (R.P_ETH_MACHI e.val)
  vid : f.vid = none
  etype : f.etype.toNat = fld s (R.P_ETH_TYPE e.val) F.P_ETH_TYPE_ETYPE
  body : f.body = body

/-- The bytes that port e's requests in progress hold (R553). -/
def heldBytes (s : State) (e : Nat) : Nat := sumNat ((partGet s e).reasm.map (fun x => x.bytes.length))

/-- What reached the outside on a port since s is this list. -/
def SentSince (s t : State) (l : List Sent) : Prop := t.sent = s.sent ++ l

/-- No port's books but p's have changed. -/
def OtherPartners (p : Nat) (s t : State) : Prop := ∀ q, q ≠ p → partGet t q = partGet s q

-- ---------------------------------------------------------------- Clasp

/-- The registers that show the senders' unacknowledged bytes (R609). -/
def unackRegs : List Nat := [R.CL_LANE_UNACK 0, R.CL_LANE_UNACK 1]

/-- A data frame that lane x takes as the next of its direction: the lane is in SERVICE, and a frame sent for the first time is one that
goes to this lane and finds room in its retransmit buffer (R584 to R586). -/
structure TakesFrame (s : State) (x : Lane) (f : ClaspFrame) : Prop where
  service : laneUp s x.val = true
  data : f.cls ≠ .heart
  next : f.seq = (dirGet s f.toField).nextRx
  room : newFrame s f = true → laneFor s f.toField = x.val ∧ unackOf (dirGet s f.toField) x.val + f.bytes ≤ 6144

/-- Lane x has left service with a cause, counted and latched, and HB has no other lane's state changed (R588, R608). -/
def LaneLost (s t : State) (x : Lane) (cause : Nat) : Prop :=
  laneSt t x.val = lnFAILED ∧ fld t R.CL_STAT (lnCauseFld x.val) = cause ∧ Counted s t (R.CL_LANE_CNT_DOWN x.val) 1 ∧
  flag t R.CL_EVT (lnDownFld x.val) = true ∧ laneSt t (1 - x.val) = laneSt s (1 - x.val) ∧
  (laneUp s (1 - x.val) = true →
    (t.cl.down.unacked ++ t.cl.up.unacked).all (fun o => o.lane != x.val) = true ∧
    SentSince s t [.claspNotice (Fin.ofNat 2 (1 - x.val))] ∧ t.cl.epHost = s.cl.epHost ∧ t.cl.epField = s.cl.epField)

/-- CK-L failures at an end of a lane within the last millisecond, with one now (R588). -/
def recentErrs (s : State) (e : Nat) : List Nat := s.elapsed :: (tabGet (fun _ => []) s.cl.errs e).filter (fun t => decide (s.elapsed - t < 1000000))

-- ---------------------------------------------------------------- resets and start-up

/-- A device whose image runs, with both sides in Run, no reset and no NV write running, and nothing waiting. -/
structure Calm (s : State) : Prop where
  quiet : Quiet s
  episodes : s.boot.episodes = []
  heldSrcs : s.boot.heldSrcs = []
  out : s.boot.inReset = []
  host : s.pow.host.st = .run
  field : s.pow.field.st = .run
  held : s.boot.hostHeld = false
  stage : fld s R.GLB_BOOTSTAT F.GLB_BOOTSTAT_STAGE = 6
  loaded : fld s R.GLB_BOOTSTAT F.GLB_BOOTSTAT_FSIDE = 3
  nv : s.nv.busyUntil ≤ s.elapsed

/-- A source c asserts at s, where no reset runs: an episode with it alone begins, the reset registers show it, and the dies it
reaches as a whole are in reset (R630 to R632, R666). HB's reset empties the port stores and ends a Graft; a reset of HB or
FH takes both lanes out of service (R571, R600, R739). NV memory stays. -/
def Begins (s t : State) (c : SrcOn) : Prop :=
  t.boot.episodes = [{ srcs := [c], heldOff := false, began := episodeTime s }] ∧
  t.boot.inReset = allDies.filter (fun d => (wholeDies c.reach).contains d) ∧
  reg t R.RST_CAUSE = wordOf (2 ^ c.no) ∧
  (reg t R.RST_LAST).toNat % 2 ^ 17 = c.detail % 512 * 2 ^ 8 + reachCode c.reach * 16 + b2n c.cold * 4 + c.level ∧
  (c.cold = false → reg t R.RST_CAUSEACC = reg s R.RST_CAUSEACC ||| wordOf (2 ^ c.no)) ∧
  ((wholeDies c.reach).contains .hb = true →
    (∀ p : Partner, (partGet t p.val).outst = [] ∧ (partGet t p.val).resp = []) ∧ t.graft = none ∧ t.stalled = []) ∧
  ((wholeDies c.reach).contains .hb = true ∨ (wholeDies c.reach).contains .fh = true → ∀ x : Lane, laneUp t x.val = false) ∧
  t.nv = s.nv ∧ (c.cold = false → t.qmem = s.qmem)

/-- A pulse of source `no` at the level the reset map gives it (R618, R619). -/
def mapSrc (s : State) (no : Nat) (unit : Option Reach) (d : Die) (detail : Nat) : SrcOn :=
  { no := no, level := srcLevel s no, reach := reachAt unit d (srcLevel s no), on := false, detail := detail, cold := srcLevel s no == 0 }

/-- A power source of a side (R611, R618). -/
def powerSrc (no : Nat) (x : Side) : SrcOn := { no := no, level := 0, reach := .side x, on := false, detail := 0, cold := true }

end Sys2Proof.Machine
end

