-- ==== Sys2Proof/Certificates/Slice0/Obligations.lean ====
section
/-! DEFINITION. The statements about the model, for the provers. Each docstring names the rules of spec/ it rests on. -/

open Sys2Proof Sys2Proof.Machine

-- ---------------------------------------------------------------- clear registers

/-- The clear registers, each bit of which clears one register: FPn_CNTCLR (R160), CWn_CNTCLR (R188), SQn_CLR (R242), FH_CTXCLR (R243),
FTt_FLT_CNTCLR (R292), SV_CLR (R454), TR_CLR (R505) and Qq_CLR (R506) of the field side, and GLB_CKCLR (R62), TB_CLR (R364), TB_PTP_CLR (R365),
Pp_CNTCLR (R572), Pp_ETH_CLR (R573), CL_CLR (R608), RST_CLR (R666), PWR_CLR (R711) and GLB_GRF_CLR (R741) of the host side. Each write that
runs is answered OK, zeroes the registers its bits select and leaves every other register, and every other part of the state but the
port's books, as it was. A port that clears its own Pp_CNT_CMD clears the count of the request that does so with it. -/
def Obligations.ClearRegisters : Prop := ∀ (h : Hdr) (v : Word) (s : State),
  (∀ n : PortNo, ClearsOn (.fpCntclr h n v) h (R.FP_CNTCLR n.val) v ((List.range 6).map (R.FP_CNT n.val)) s) ∧
  (∀ n : PortNo, ClearsOn (.cwCntclr h n v) h (R.CW_CNTCLR n.val) v [R.CW_CNT_RD n.val, R.CW_CNT_SWAP n.val] s) ∧
  (∀ n : PortNo, ClearsOn (.sqClr h n v) h (R.SQ_CLR n.val) v
    [R.SQ_PEAK n.val, R.SQ_MAXLAG n.val, R.SQ_CNT_LATE n.val, R.SQ_CNT_CU n.val] s) ∧
  ClearsOn (.fhCtxclr h v) h R.FH_CTXCLR v [R.FH_CTXREF, R.FH_CONFREF] s ∧
  (∀ t : TileNo, ClearsOn (.fltCntclr h t v) h (R.FT_FLT_CNTCLR t.val) v
    [R.FT_FLT_CNT_CKA t.val, R.FT_FLT_CNT_SBE t.val, R.FT_FLT_CNT_DBE t.val] s) ∧
  ClearsOn (.svClr h v) h R.SV_CLR v [R.SV_CNT_FIRE, R.SV_CNT_TAINT, R.SV_CNT_DBE] s ∧
  ClearsOn (.trClr h v) h R.TR_CLR v [R.TR_CNT_SBE, R.TR_CNT_DBE, R.TR_CNT_EARLY] s ∧
  (∀ q : QNo, ClearsOn (.qClr h q v) h (R.Q_CLR q.val) v
    [R.Q_CNT_REC q.val, R.Q_CNT_DROP q.val, R.Q_CNT_OVW q.val, R.Q_CNT_LORD q.val] s) ∧
  ClearsOn (.glbCkclr h v) h R.GLB_CKCLR v ((List.range 6).map R.GLB_CKCNT ++ [R.GLB_RACECNT]) s ∧
  ClearsOn (.tbClr h v) h R.TB_CLR v [R.TB_CNT_REF, R.TB_CNT_STEP, R.TB_CNT_PPSREJ] s ∧
  ClearsOn (.tbPtpClr h v) h R.TB_PTP_CLR v ((List.range 4).map R.TB_PTP_CNT) s ∧
  (∀ p : Partner, ClearsOn (.ppCntclr h p v) h (R.P_CNTCLR p.val) v ((List.range 11).map (R.P_CNT p.val)) s) ∧
  (∀ e : EthNo, ClearsOn (.ppEthClr h e v) h (R.P_ETH_CLR e.val) v ((List.range 7).map (R.P_ETH_CNT e.val)) s) ∧
  ClearsOn (.clClr h v) h R.CL_CLR v [R.CL_CNT_BLOCK, R.CL_CNT_UNREC, R.CL_CNT_NOLANE] s ∧
  ClearsOn (.rstClr h v) h R.RST_CLR v [R.RST_CNT_HOLDOFF] s ∧
  ClearsOn (.pwrClr h v) h R.PWR_CLR v [R.PWR_CNT_QLOST, R.PWR_CNT_WKDROP, R.PWR_ABORT] s ∧
  ClearsOn (.glbGrfClr h v) h R.GLB_GRF_CLR v [R.GLB_GRF_CNT] s

/-- The clear registers whose bits act on more than one register each: CL_x_CLR (R609: bit 6 sets the peak to the present figure),
FTt_TM_CLR (R407), FTt_FLT_SLOTs_CLR (R293), TB_PLSi_CLR (R366) and PWR_HWCLR (R690). -/
def Obligations.SelectiveClears : Prop := ∀ (h : Hdr) (v : Word) (s : State),
  (∀ x : Lane,
    let regs := [R.CL_LANE_CNT_TX x.val, R.CL_LANE_CNT_RX x.val, R.CL_LANE_CNT_CKL x.val, R.CL_LANE_CNT_RETX x.val,
      R.CL_LANE_CNT_DOWN x.val, R.CL_LANE_CNT_TRAINFAIL x.val]
    let u := R.CL_LANE_UNACK x.val
    Wrote (.clLaneClr h x v) h (R.CL_LANE_CLR x.val) v s (u :: regs) [] (fun t =>
      (∀ i b, regs[i]? = some b → reg t b = if bitOf v.toNat i then 0 else reg s b) ∧
      reg t u = if bitOf v.toNat 6 then putFld (reg s u) F.CL_LANE_UNACK_PEAK (fld s u F.CL_LANE_UNACK_NOW) else reg s u)) ∧
  (∀ t : TileNo,
    Wrote (.tmClr h t v) h (R.FT_TM_CLR t.val) v s
      ((List.range 8).map (R.FT_TMC_MATCHES t.val) ++ (List.range 8).map (R.FT_TMC_MISS t.val)) [] (fun u =>
      ∀ c : TmCh,
        reg u (R.FT_TMC_MATCHES t.val c.val) = (if bitOf v.toNat c.val then 0 else reg s (R.FT_TMC_MATCHES t.val c.val)) ∧
        reg u (R.FT_TMC_MISS t.val c.val) = (if bitOf v.toNat c.val then 0 else reg s (R.FT_TMC_MISS t.val c.val)))) ∧
  (∀ (t : TileNo) (f : FSlot),
    let out := R.FT_SLOT_OUT t.val f.val
    let mark := R.FT_SLOT_MARK t.val f.val
    let stat := R.FT_SLOT_STAT t.val f.val
    Wrote (.fltSlotClr h t f v) h (R.FT_SLOT_CLR t.val f.val) v s [out, mark, stat] [] (fun u =>
      reg u out = (if bitOf v.toNat 0 then 0 else reg s out) ∧
      reg u mark = (if bitOf v.toNat 1 then 0 else reg s mark) ∧
      reg u stat = (if bitOf v.toNat 1 then putFld (reg s stat) F.FT_SLOT_STAT_SATC 0 else reg s stat))) ∧
  (∀ i : PulseNo,
    Wrote (.tbPlsClr h i v) h (R.TB_PLS_CLR i.val) v s [R.TB_PLS_CNT i.val] [] (fun t =>
      reg t (R.TB_PLS_CNT i.val) = if bitOf v.toNat 0 then 0 else reg s (R.TB_PLS_CNT i.val))) ∧
  Wrote (.pwrHwclr h v) h R.PWR_HWCLR v s [] [.pow] (fun t =>
    t.pow = if bitOf v.toNat 0 then { s.pow with hwakeOut := false, hwakeDue := false } else s.pow)

-- ---------------------------------------------------------------- writes that start and stop the units

/-- A critical write of FPn_CTL enables a port (R75, R109: its clock is not yet good) or disables it (R79, R80: the slot on the wire goes on,
every other one completes with DISABLED, and one that had not begun counts as performed, R127), and one of CWn_ACCEPT accepts the identities its bits name that are in QUARANTINE (R185). -/
def Obligations.PortWrites : Prop := ∀ (h : Hdr) (n : PortNo) (v : Word) (s : State), isCrit h = true →
  (flag s (R.FP_CTL n.val) F.FP_CTL_EN = false → getFld v F.FP_CTL_EN = 1 →
    Wrote (.portEnable h n v) h (R.FP_CTL n.val) v s [R.FP_CTL n.val, R.FP_STAT n.val] [.ports] (fun t =>
      Takes t (R.FP_CTL n.val) v 0x37 ∧ flag t (R.FP_STAT n.val) F.FP_STAT_CLKOK = false ∧
      (portGet t n.val).driven = (getFld v F.FP_CTL_MODE != 0) ∧ (portGet t n.val).blk = false ∧ OtherPorts n.val s t)) ∧
  (flag s (R.FP_CTL n.val) F.FP_CTL_EN = true → getFld v F.FP_CTL_EN = 0 → (portGet s n.val).winQ = [] →
    Wrote (.portDisable h n v) h (R.FP_CTL n.val) v s ([R.FP_CTL n.val, R.FP_STAT n.val, R.FP_TSNS n.val] ++ slotRegs s n.val)
      [.ports, .ctxs, .tiles] (fun t =>
      flag t (R.FP_CTL n.val) F.FP_CTL_EN = false ∧ flag t (R.FP_STAT n.val) F.FP_STAT_CLKOK = false ∧ OtherPorts n.val s t ∧
      (∀ (i : SlotNo) x, slotGet s n.val i.val = some x → x.fin = none → (portGet s n.val).wire ≠ some i.val →
        ∃ y, slotGet t n.val i.val = some y ∧ y.fin = some (7, 0) ∧ y.ctx = x.ctx ∧ y.tn = x.tn) ∧
      (∀ i : SlotNo, (portGet s n.val).wire = some i.val → slotGet t n.val i.val = slotGet s n.val i.val) ∧
      (portGet t n.val).wire = (portGet s n.val).wire ∧
      (portGet t n.val).driven = (portGet s n.val).wire.isSome)) ∧
  Wrote (.cwAccept h n v) h (R.CW_ACCEPT n.val) v s
    (R.CW_STAT n.val :: R.CW_EVT n.val :: ((List.range 3).map (R.CW_IDS_REFLO n.val) ++ (List.range 3).map (R.CW_IDS_REFHI n.val))) [.ctxs]
    (fun t => ∀ i : Fin 3,
      let acc := bitOf v.toNat i.val && idState s n.val i.val == 3
      idState t n.val i.val = (if acc then 1 else idState s n.val i.val) ∧
      reg t (R.CW_IDS_REFLO n.val i.val) = reg s (if acc then R.CW_IDS_SEENLO n.val i.val else R.CW_IDS_REFLO n.val i.val) ∧
      reg t (R.CW_IDS_REFHI n.val i.val) = reg s (if acc then R.CW_IDS_SEENHI n.val i.val else R.CW_IDS_REFHI n.val i.val) ∧
      (acc → flag t (R.CW_EVT n.val) F.CW_EVT_ACCEPTED = true))

/-- A critical write of FTt_FLT_SLOTs takes effect at once in a slot that no context has, and at its context's boundary in one that a
RUNNING context has (R295); one of SWAP to FTt_FLT_BANK asks the slots that use the coefficients to change at their next output (R285),
and completes at once where there is none (R286).
The model's readings it rests on: notes/assumptions/44.md. -/
def Obligations.FilterWrites : Prop := ∀ (h : Hdr) (t : TileNo) (v : Word) (s : State), isCrit h = true →
  (∀ f : FSlot, slBound s t.val f.val = false →
    Wrote (.fltSlotWrite h t f v) h (R.FT_SLOT t.val f.val) v s [R.FT_SLOT t.val f.val] [] (fun u =>
      Takes u (R.FT_SLOT t.val f.val) v 0xf1b)) ∧
  (∀ f : FSlot, slBound s t.val f.val = true → cState s (slCtx s t.val f.val) = stRunning →
    WroteAs stACCEPTED (.fltSlotWrite h t f v) h (R.FT_SLOT t.val f.val) v s [] [.ctxs] (fun u =>
      (ctxGet u (slCtx s t.val f.val)).acts = (ctxGet s (slCtx s t.val f.val)).acts ++ [.slotWrite t f v] ∧
      ∀ k, k ≠ slCtx s t.val f.val → ctxGet u k = ctxGet s k)) ∧
  (getFld v F.FT_FLT_BANK_SWAP = 1 → flag s (R.FT_FLT_BANK t.val) F.FT_FLT_BANK_SWAP = false →
    (∃ f : FSlot, slBound s t.val f.val = true ∧ slCoef s t.val f.val = true) →
    Wrote (.swap h t v) h (R.FT_FLT_BANK t.val) v s (R.FT_FLT_BANK t.val :: (List.range 16).map (R.FT_SLOT_STAT t.val)) [.filt] (fun u =>
      flag u (R.FT_FLT_BANK t.val) F.FT_FLT_BANK_SWAP = true ∧
      fld u (R.FT_FLT_BANK t.val) F.FT_FLT_BANK_ACTIVE = fld s (R.FT_FLT_BANK t.val) F.FT_FLT_BANK_ACTIVE ∧
      ∀ f : FSlot, slBound s t.val f.val = true → slCoef s t.val f.val = true → (filtGet u (slotIx t.val f.val)).swapDue = true)) ∧
  (getFld v F.FT_FLT_BANK_SWAP = 1 → flag s (R.FT_FLT_BANK t.val) F.FT_FLT_BANK_SWAP = false →
    (∀ f : FSlot, slBound s t.val f.val = false ∧ (filtGet s (slotIx t.val f.val)).swapDue = false) →
    Wrote (.swap h t v) h (R.FT_FLT_BANK t.val) v s
      ([R.FT_FLT_BANK t.val, R.FT_FLT_EVT t.val] ++ (List.range 16).map (R.FT_SLOT_STAT t.val) ++
        (List.range 97).map (R.FT_FLT_COEF t.val) ++ (List.range 97).map (R.FT_FLT_ACOEF t.val)) [] (fun u =>
      flag u (R.FT_FLT_BANK t.val) F.FT_FLT_BANK_SWAP = false ∧
      fld u (R.FT_FLT_BANK t.val) F.FT_FLT_BANK_ACTIVE = 1 - fld s (R.FT_FLT_BANK t.val) F.FT_FLT_BANK_ACTIVE ∧
      flag u (R.FT_FLT_EVT t.val) F.FT_FLT_EVT_SWAPDONE = true ∧
      ∀ i : Fin 97, reg u (R.FT_FLT_ACOEF t.val i.val) = reg s (R.FT_FLT_COEF t.val i.val) ∧
        reg u (R.FT_FLT_COEF t.val i.val) = reg s (R.FT_FLT_ACOEF t.val i.val)))

/-- The writes of the tile timers: a snapshot of the selected channels at one instant (R377, R378), a compare value in each compare
mode and in each half of a linked pair (R385 to R387, R391), and a channel that is switched on and off (R395 to R397); the odd channel
of a linked pair has no CTL of its own (R374).
The model's readings it rests on: notes/assumptions/41.md. -/
def Obligations.TimerWrites : Prop := ∀ (h : Hdr) (t : TileNo) (v : Word) (s : State),
  (v.toNat % 256 ≠ 0 →
    Wrote (.tmSnap h t v) h (R.FT_TM_SNAP t.val) v s (R.FT_TM_SNAPNS t.val :: (List.range 8).map (R.FT_TMC_SNAP t.val)) [.snapSec] (fun u =>
      (∀ c : TmCh, reg u (R.FT_TMC_SNAP t.val c.val) =
        reg s (if snapSelects s t.val c.val v then R.FT_TMC_CNT t.val c.val else R.FT_TMC_SNAP t.val c.val)) ∧
      reg u (R.FT_TM_SNAPNS t.val) = wordOf (tNs (fieldNs s)) ∧
      tabGet (fun _ => 0) u.snapSec t.val = wordOf (tSecLo (fieldNs s)))) ∧
  (isCrit h = true → ∀ c : TmCh, tmRuns s t.val c.val = false →
    Wrote (.cmpWrite h t c v) h (R.FT_TMC_CMP t.val c.val) v s [R.FT_TMC_CMP t.val c.val, R.FT_TMC_STAT t.val (tmHead s t.val c.val)] [] (fun u =>
      let stat := R.FT_TMC_STAT t.val (tmHead s t.val c.val)
      reg u (R.FT_TMC_CMP t.val c.val) = v ∧ reg u stat = putFld (reg s stat) F.FT_TMC_STAT_PEND 0)) ∧
  (isCrit h = true → ∀ c : TmCh, unlinked s t.val c.val → tmRuns s t.val c.val = true →
    Wrote (.cmpWrite h t c v) h (R.FT_TMC_CMP t.val c.val) v s (chanRegs t.val c.val) [] (fun u =>
      let stat := R.FT_TMC_STAT t.val c.val
      if flag s (R.FT_TMC_CTL t.val c.val) F.FT_TMC_CTL_CMPMODE = true then
        reg u (R.FT_TMC_CMP t.val c.val) = v ∧ reg u (R.FT_TMC_CMPSH t.val c.val) = reg s (R.FT_TMC_CMPSH t.val c.val) ∧ reg u stat = reg s stat
      else
        reg u (R.FT_TMC_CMP t.val c.val) = reg s (R.FT_TMC_CMP t.val c.val) ∧
        reg u (R.FT_TMC_CMPSH t.val c.val) = v ∧ reg u stat = putFld (reg s stat) F.FT_TMC_STAT_PEND 1)) ∧
  (isCrit h = true → ∀ c : TmCh, tmLinked s t.val c.val = true → tmRuns s t.val c.val = true →
    Wrote (.cmpWrite h t c v) h (R.FT_TMC_CMP t.val c.val) v s [] [.tmrs] (fun u =>
      (tmrGet u (8 * t.val + c.val)).heldCmp = some v)) ∧
  (isCrit h = true → ∀ c d : TmCh, c.val = d.val + 1 → tmOddOfPair s t.val c.val = true → tmRuns s t.val c.val = true →
    (tmrGet s (8 * t.val + d.val)).heldCmp.isSome = true →
    Wrote (.cmpWrite h t c v) h (R.FT_TMC_CMP t.val c.val) v s (chanRegs t.val c.val ++ chanRegs t.val d.val) [.tmrs] (fun u =>
      let put := if flag s (R.FT_TMC_CTL t.val d.val) F.FT_TMC_CTL_CMPMODE = true then R.FT_TMC_CMP t.val else R.FT_TMC_CMPSH t.val
      some (reg u (put d.val)) = (tmrGet s (8 * t.val + d.val)).heldCmp ∧ reg u (put c.val) = v ∧ (tmrGet u (8 * t.val + d.val)).heldCmp = none)) ∧
  (isCrit h = true → ∀ c : TmCh, tmOddOfPair s t.val c.val = false → flag s (R.FT_TMC_CTL t.val c.val) F.FT_TMC_CTL_EN = false →
    getFld v F.FT_TMC_CTL_EN = 1 →
    Wrote (.timerEnable h t c v) h (R.FT_TMC_CTL t.val c.val) v s (chanRegs t.val c.val) [.tmrs] (fun u =>
      reg u (R.FT_TMC_CTL t.val c.val) = (if c.val % 2 = 0 then v else putFld v F.FT_TMC_CTL_LINK 0) &&& wordOf 0x7bfff ∧
      fld u (R.FT_TMC_STAT t.val c.val) F.FT_TMC_STAT_OWNER = 2 + h.port.val ∧
      flag u (R.FT_TMC_STAT t.val c.val) F.FT_TMC_STAT_RUN = true ∧
      (tmrGet u (8 * t.val + c.val)).on = true ∧ (tmrGet u (8 * t.val + c.val)).phase = 0 ∧ (tmrGet u (8 * t.val + c.val)).edges = 0)) ∧
  (isCrit h = true → ∀ c : TmCh, tmOddOfPair s t.val c.val = true →
    Wrote (.timerEnable h t c v) h (R.FT_TMC_CTL t.val c.val) v s [] [] (fun _ => True)) ∧
  (isCrit h = true → ∀ c : TmCh, tmOddOfPair s t.val c.val = false → flag s (R.FT_TMC_CTL t.val c.val) F.FT_TMC_CTL_EN = true →
    getFld v F.FT_TMC_CTL_EN = 0 →
    Wrote (.timerDisable h t c v) h (R.FT_TMC_CTL t.val c.val) v s (chanRegs t.val c.val) [.tmrs] (fun u =>
      flag u (R.FT_TMC_CTL t.val c.val) F.FT_TMC_CTL_EN = false ∧
      fld u (R.FT_TMC_STAT t.val c.val) F.FT_TMC_STAT_OWNER = 0 ∧
      flag u (R.FT_TMC_STAT t.val c.val) F.FT_TMC_STAT_RUN = false ∧
      (tmrGet u (8 * t.val + c.val)).on = false ∧
      (tmrGet u (8 * t.val + c.val)).pulse = (tmrGet s (8 * t.val + c.val)).pulse))

/-- The writes of the timebase: the servo switched on acquires, with its integral term at the present frequency (R316, R319); a
side on its RC is asked to return to its crystal (R338); a pulse channel is armed at its first instant at least 1 µs away,
misses a single instant that is nearer, or is switched off (R351 to R353, R358). -/
def Obligations.TimebaseWrites : Prop := ∀ (h : Hdr) (v : Word) (s : State), isCrit h = true →
  (tbEn s = false → tbState s = 0 → getFld v F.TB_CTL_EN = 1 → getFld v F.TB_CTL_SRC ≠ 0 →
    Wrote (.servoEnable h v) h R.TB_CTL v s [R.TB_CTL, R.TB_STAT, R.TB_PTP_STAT] [.tm] (fun t =>
      Takes t R.TB_CTL v 0x6f ∧ tbState t = 1 ∧ t.tm = { s.tm with integ := freqNow s, last := none })) ∧
  (let retry (c : Instr) : Prop := Wrote c h R.TB_CLK v s [R.TB_CLK] [] (fun t =>
      fld t R.TB_CLK F.TB_CLK_RETRYH =
        (if getFld v F.TB_CLK_RETRYH = 1 ∧ flag s R.TB_STAT F.TB_STAT_OSCH = true then 1 else fld s R.TB_CLK F.TB_CLK_RETRYH) ∧
      fld t R.TB_CLK F.TB_CLK_RETRYF =
        (if getFld v F.TB_CLK_RETRYF = 1 ∧ flag s R.TB_STAT F.TB_STAT_OSCF = true then 1 else fld s R.TB_CLK F.TB_CLK_RETRYF))
   retry (.retryh h v) ∧ retry (.retryf h v)) ∧
  (∀ i : PulseNo, plsEn s i.val = false → getFld v F.TB_PLS_CTL_EN = 1 → getFld v F.TB_PLS_CTL_MODE ≠ 0 →
    Wrote (.pulseEnable h i v) h (R.TB_PLS_CTL i.val) v s [R.TB_PLS_CTL i.val] [.tm] (fun t =>
      Takes t (R.TB_PLS_CTL i.val) v 0xf ∧ (pulseGet t i.val).driven = true ∧
      (getFld v F.TB_PLS_CTL_MODE = 2 → (pulseGet t i.val).next = none) ∧
      (getFld v F.TB_PLS_CTL_MODE = 1 → 0 < plsPer s i.val → ∃ j, (pulseGet t i.val).next = some (plsStart s i.val + j * plsPer s i.val) ∧
        masterNs s + 1000 ≤ plsStart s i.val + j * plsPer s i.val ∧
        (j = 0 ∨ plsStart s i.val + j * plsPer s i.val < masterNs s + 1000 + plsPer s i.val)) ∧
      ∀ j, j ≠ i.val → pulseGet t j = pulseGet s j)) ∧
  (∀ i : PulseNo, plsEn s i.val = false → getFld v F.TB_PLS_CTL_EN = 1 → getFld v F.TB_PLS_CTL_MODE = 0 →
    masterNs s + 1000 ≤ plsStart s i.val →
    Wrote (.pulseEnable h i v) h (R.TB_PLS_CTL i.val) v s [R.TB_PLS_CTL i.val] [.tm] (fun t =>
      Takes t (R.TB_PLS_CTL i.val) v 0xf ∧ (pulseGet t i.val).next = some (plsStart s i.val))) ∧
  (∀ i : PulseNo, plsEn s i.val = false → getFld v F.TB_PLS_CTL_EN = 1 → getFld v F.TB_PLS_CTL_MODE = 0 →
    plsStart s i.val < masterNs s + 1000 →
    Wrote (.pulseEnable h i v) h (R.TB_PLS_CTL i.val) v s [R.TB_PLS_CTL i.val, R.TB_PLS_CNT i.val, R.TB_EVT] [.tm] (fun t =>
      plsEn t i.val = false ∧ (pulseGet t i.val).next = none ∧ flag t R.TB_EVT F.TB_EVT_MISSED = true ∧
      fld t (R.TB_PLS_CNT i.val) F.TB_PLS_CNT_MISSED = satAdd F.TB_PLS_CNT_MISSED.w (fld s (R.TB_PLS_CNT i.val) F.TB_PLS_CNT_MISSED) 1)) ∧
  (∀ i : PulseNo, plsEn s i.val = true → getFld v F.TB_PLS_CTL_EN = 0 →
    Wrote (.pulseDisable h i v) h (R.TB_PLS_CTL i.val) v s [R.TB_PLS_CTL i.val] [.tm] (fun t =>
      plsEn t i.val = false ∧ (pulseGet t i.val).next = none ∧
      (pulseGet t i.val).driven = (pulseGet s i.val).active.isSome))

/-- The critical writes that switch on a sentinel (R450), a queue with an empty ring (R460, R502), bind a port to a key slot (R533)
and start a management frame (R574), and PWR_AOC's request for a failed crystal (R702). -/
def Obligations.UnitWrites : Prop := ∀ (h : Hdr) (v : Word) (s : State), isCrit h = true →
  (∀ i : Fin 8, Wrote (.sentinelEnable h i v) h (R.SV_SENT_CTL i.val) v s [R.SV_SENT_CTL i.val] [] (fun t =>
    Takes t (R.SV_SENT_CTL i.val) v 0x803f1fff)) ∧
  (∀ q : QNo, qEn s q.val = false → getFld v F.Q_CFG_EN = 1 →
    Wrote (.queueEnable h q v) h (R.Q_CFG q.val) v s
      ([R.Q_CFG q.val, R.Q_WR q.val, R.Q_STAT q.val] ++ (List.range 4).map (R.TR_SUB_DLV q.val) ++ (List.range 4).map (R.TR_SUB_ACK q.val))
      [.tr] (fun t =>
      Takes t (R.Q_CFG q.val) v 0xf0fff7ff ∧ reg t (R.Q_WR q.val) = 0 ∧ flag t (R.Q_STAT q.val) F.Q_STAT_HELD = false ∧
      (∀ p : Partner, reg t (R.TR_SUB_DLV q.val p.val) = 0 ∧ reg t (R.TR_SUB_ACK q.val p.val) = 0) ∧
      (queueGet t q.val).ents = [] ∧ (queueGet t q.val).epochDue = some 1 ∧ ∀ r, r ≠ q.val → queueGet t r = queueGet s r)) ∧
  (∀ p : Partner, Wrote (.keySlotWrite h p v) h (R.P_KEY p.val) v s [R.P_KEY p.val] [] (fun t => Takes t (R.P_KEY p.val) v 0x107)) ∧
  Wrote (.mdioCmd h v) h R.P0_MDIO_CMD v s [R.P0_MDIO_CMD] [.sent] (fun t =>
    flag t R.P0_MDIO_CMD F.P0_MDIO_CMD_BUSY = true ∧ Takes t R.P0_MDIO_CMD v 0x7ffcffff ∧
    t.sent = s.sent ++ [.mdio (reg t R.P0_MDIO_CMD)]) ∧
  (getFld v F.PWR_AOC_XTAL = 1 → getFld v F.PWR_AOC_RETRY = 1 → flag s R.PWR_AOC F.PWR_AOC_XTAL = true →
    flag s R.PWR_AOC F.PWR_AOC_ONRC = true →
    Wrote (.aocRetry h v) h R.PWR_AOC v s [R.PWR_AOC] [] (fun t =>
      flag t R.PWR_AOC F.PWR_AOC_RETRY = true ∧ flag t R.PWR_AOC F.PWR_AOC_XTAL = true ∧ flag t R.PWR_AOC F.PWR_AOC_ONRC = true))

/-- A critical write of CL_CTL puts an enabled lane into training (R582) and drains a disabled one that the other can follow (R605); one of
PWR_PADREL releases the banks of its bits whose sides are in Run, whose ports then run their release periods (R140, R698).
The model's readings it rests on: notes/assumptions/56.md, notes/assumptions/57.md. -/
def Obligations.LaneAndPadWrites : Prop := ∀ (h : Hdr) (v : Word) (s : State), isCrit h = true →
  (∀ x : Lane, bitOf v.toNat x.val = true → lnEn s x.val = false → bitOf v.toNat (1 - x.val) = lnEn s (1 - x.val) →
    laneSt s x.val = lnOFF → s.pow.host.st = .run → s.pow.field.st = .run →
    Wrote (.laneEnable h x v) h R.CL_CTL v s [R.CL_CTL, R.CL_STAT] [.cl] (fun t =>
      Takes t R.CL_CTL v 0xffff0003 ∧ laneSt t x.val = lnTRAIN ∧ laneSt t (1 - x.val) = laneSt s (1 - x.val))) ∧
  (∀ x : Lane, bitOf v.toNat x.val = false → lnEn s x.val = true → bitOf v.toNat (1 - x.val) = lnEn s (1 - x.val) →
    laneUp s x.val = true → laneUp s (1 - x.val) = true →
    Wrote (.laneDisable h x v) h R.CL_CTL v s [R.CL_CTL, R.CL_STAT] [.cl] (fun t =>
      Takes t R.CL_CTL v 0xffff0003 ∧ laneSt t x.val = lnDRAIN ∧ laneSt t (1 - x.val) = lnSERVICE)) ∧
  (s.pow.host.st = .run → s.pow.field.st = .run → s.pow.hwakeDue = false → (∀ k : CtxNo, cState s k.val ≠ stRunning) →
    Wrote (.pwrPadrel h v) h R.PWR_PADREL v s [] [.pow, .ports] (fun t =>
      (∀ b, b ∈ t.pow.held ↔ b ∈ s.pow.held ∧ ¬ (b ∈ allBanks ∧ bitOf v.toNat b = true)) ∧
      (∀ n : PortNo, n.val / 8 ∈ s.pow.held → bitOf v.toNat (n.val / 8) = true → flag s (R.FP_CTL n.val) F.FP_CTL_EN = true →
        fld s (R.FP_CTL n.val) F.FP_CTL_MODE ≠ 0 → (portGet s n.val).bankOk = true → (portGet t n.val).relseq.isSome = true)))

-- ---------------------------------------------------------------- field ports: polls, the wire and the steps

/-- A poll falls due (R218, R219, R222). With a slot free, the lowest takes the transaction under the context's next number, and a template that
begins with an XFER starts on a free wire (R223, R226); with none free the context waits for one and SLOTWAIT says so. The first clause is
the row's completion: with a slot free the poll is issued, whatever its port then makes of it (R80, R142, R210). -/
def Obligations.PollDue : Prop := ∀ (k : CtxNo) (s : State), Quiet s → FallsDue s k.val →
  (∀ i : SlotNo, freeSlot s (cPort s k.val) = some i.val →
    ∃ t, exec (.pollDue k) s = .next t ∧ ∃ y, slotGet t (cPort s k.val) i.val = some y ∧ y.ctx = k.val ∧
      y.tn = fld s (R.CTX_STAT k.val) F.CTX_STAT_NEXTTN ∧ (ctxGet s k.val).sched = some (y.nom, y.due) ∧
      fld t (R.CTX_STAT k.val) F.CTX_STAT_NEXTTN = (fld s (R.CTX_STAT k.val) F.CTX_STAT_NEXTTN + 1) % 65536 ∧
      OtherSlots (cPort s k.val) i.val s t ∧ OtherPorts (cPort s k.val) s t) ∧
  (∀ i : SlotNo, freeSlot s (cPort s k.val) = some i.val → (portGet s (cPort s k.val)).bankOk = true →
    flag s (R.FP_CTL (cPort s k.val)) F.FP_CTL_EN = true → fld s (R.FP_CTL (cPort s k.val)) F.FP_CTL_MODE ≠ 0 →
    xferFirst s (cPort s k.val) k.val 0 → canTake s (cPort s k.val) i.val = true →
    Runs (.pollDue k) s (fun t =>
      let n := cPort s k.val
      (∃ y, slotGet t n i.val = some y ∧ y.ctx = k.val ∧ y.tn = fld s (R.CTX_STAT k.val) F.CTX_STAT_NEXTTN ∧
        (ctxGet s k.val).sched = some (y.nom, y.due) ∧ y.wait = 1 ∧ y.sel = true ∧ y.step = 0 ∧ y.fin = none ∧
        y.start = some (if fieldNs s < y.due + 5 then y.due else fieldNs s)) ∧
      (portGet t n).wire = some i.val ∧
      fld t (R.CTX_STAT k.val) F.CTX_STAT_NEXTTN = (fld s (R.CTX_STAT k.val) F.CTX_STAT_NEXTTN + 1) % 65536 ∧
      Counted s t (R.CTX_POLLS k.val) 1 ∧
      OtherSlots n i.val s t ∧ OtherPorts n s t ∧ RegsBut (startRegs n k.val) s t ∧ Only [.regs, .ctxs, .ports, .tiles, .pins] s t)) ∧
  (freeSlot s (cPort s k.val) = none →
    Runs (.pollDue k) s (fun t =>
      let n := cPort s k.val
      (portGet t n).waiters = (portGet s n).waiters ++ [k.val] ∧ (portGet t n).slots = (portGet s n).slots ∧
      bitOf (fld t (R.FT_SQ_EVT (n / 8)) F.FT_SQ_EVT_SLOTWAIT) (n % 8) = true ∧
      OtherPorts n s t ∧ RegsBut [R.FT_SQ_EVT (n / 8)] s t ∧ Only [.regs, .ctxs, .ports, .tiles, .pins] s t))

/-- The wire goes to the waiting slot with the earliest due time, the lower-numbered one on a tie (R132), which runs its XFER; it goes
from the slot whose XFER ends a template with END, whose frame takes the bits received in value order and whose FRAME stamp is the
instant (R92, R210, R211, R213). -/
def Obligations.TheWire : Prop := ∀ (n : PortNo) (s : State), Quiet s → portUp s n.val = true →
  (∀ (i : SlotNo) x, slotGet s n.val i.val = some x → x.fin = none → x.wait = 0 → x.step = 0 → x.frame = [] → xferFirst s n.val x.ctx x.slen →
    (portGet s n.val).wire = none → (portGet s n.val).freeAt ≤ s.elapsed → bankHeld s n.val = false →
    (∀ (j : SlotNo) z, slotGet s n.val j.val = some z → j ≠ i → z.fin = none → (z.wait = 0 ∨ z.wait = 5) →
      x.due < z.due ∨ (x.due = z.due ∧ i < j)) →
    Runs (.wireGrant n) s (fun t =>
      (∃ y, onWire t n.val i.val y ∧ y.ctx = x.ctx ∧ y.tn = x.tn) ∧
      OtherSlots n.val i.val s t ∧ OtherPorts n.val s t ∧ RegsBut (startRegs n.val x.ctx) s t ∧
      Only [.regs, .ctxs, .ports, .tiles, .pins] s t)) ∧
  (∀ (i : SlotNo) x, inFlight s n.val i.val x → (portGet s n.val).wire = some i.val → x.wait = 1 → x.pulse = false →
    x.pulseOn = none → stepOp s x.ctx x.step = 1 → endsNext s x → (portGet s n.val).endWin = 0 →
    ∀ (rx : List Bool) (edges : Nat), rx.length = txnBits s n.val x (cStep s x.ctx x.step) →
    Runs (.xferDone n rx edges) s (fun t =>
      (∃ y, slotGet t n.val i.val = some y ∧ y.fin = some (0, 0) ∧ y.frame = x.frame ++ frameBits s n.val rx ∧
        y.tsFrame = some (fieldNs s, stampHold s) ∧ y.drove = x.drove + 2 * rx.length ∧ y.read = x.read + edges ∧ y.sel = false) ∧
      (portGet t n.val).wire = none ∧ reg t (R.FP_TSNS n.val) = wordOf (tNs (fieldNs s)) ∧
      OtherSlots n.val i.val s t ∧ OtherPorts n.val s t ∧ RegsBut [R.FP_TSNS n.val] s t ∧ Only [.regs, .ports, .pins] s t))

/-- A data-ready line's level is the line's own; an edge into the active level is stamped where the port stamps edges (R108, R109); a slot that
waits for it goes on, here to its END (R120). The limit of a WAITDR step that has seen no level, on the wire or waiting for it (R133), ends
the transaction with TIMEOUT, cause 2, or 3 with the transaction limit (R113); with the level in the same cycle the step is satisfied and
RACE says so (R110, R134, R137).
The model's readings it rests on: notes/assumptions/50.md, notes/assumptions/61.md. -/
def Obligations.DataReady : Prop := ∀ (n : PortNo) (s : State), Quiet s →
  (∀ (line : DrLine) (active : Bool), (∀ (i : SlotNo) x, slotGet s n.val i.val = some x → awaits s x (drLineNo line) = false) →
    Runs (.dataReady n ⟨line, active⟩) s (fun t =>
      let l := drLineNo line
      drActive t n.val l = active ∧
      drStamp t n.val l = (if active = true ∧ drActive s n.val l = false then
        (if portStamps s n.val then some (fieldNs s, stampHold s) else none) else drStamp s n.val l) ∧
      (∀ i : SlotNo, slotGet t n.val i.val = slotGet s n.val i.val) ∧ OtherPorts n.val s t ∧ RegsBut [] s t ∧ Only [.ports, .pins] s t)) ∧
  (∀ (line : DrLine) (i : SlotNo) x, portStamps s n.val = true → drActive s n.val (drLineNo line) = false →
    inFlight s n.val i.val x → x.wait = 2 → awaits s x (drLineNo line) = true → endsNext s x →
    Runs (.dataReady n ⟨line, true⟩) s (fun t => ∃ y, slotGet t n.val i.val = some y ∧ y.fin = some (0, 0) ∧
      y.tsDr = some (fieldNs s, stampHold s) ∧ y.ctx = x.ctx ∧ y.tn = x.tn)) ∧
  (∀ (i : SlotNo) x, portUp s n.val = true → (portGet s n.val).endWin = 0 → inFlight s n.val i.val x → stepOp s x.ctx x.step = 2 →
    (x.wait = 2 ∨ (x.wait = 0 ∧ x.seen = false)) → x.stepAt + 100 * bitsOf (cStep s x.ctx x.step) 23 0 ≤ s.elapsed →
    Runs (.waitdrTimeout n i false) s (fun t =>
      (∃ y, slotGet t n.val i.val = some y ∧ y.fin = some (1, if tlimUp s x then 3 else 2) ∧ y.sel = false ∧ y.ctx = x.ctx ∧ y.tn = x.tn) ∧
      OtherSlots n.val i.val s t ∧ OtherPorts n.val s t ∧ RegsBut [R.FP_TSNS n.val] s t ∧ Only [.regs, .ports, .tiles, .pins] s t) ∧
    (x.wait = 2 → endsNext s x → anyLane s = true →
      Runs (.waitdrTimeout n i true) s (fun t =>
        (∃ y, slotGet t n.val i.val = some y ∧ y.fin = some (0, 0) ∧ y.race = true ∧
          y.tsDr = (if portStamps s n.val then some (fieldNs s, stampHold s) else none)) ∧
        flag t (R.FP_EVT n.val) F.FP_EVT_RACE = true ∧
        Counted s t R.GLB_RACECNT 1 ∧
        OtherSlots n.val i.val s t ∧ OtherPorts n.val s t ∧ RegsBut [R.FP_EVT n.val, R.GLB_RACECNT, R.FP_TSNS n.val] s t ∧
        Only [.regs, .ports, .tiles, .pins] s t)))

/-- The steps that end by themselves: a retry interval, after which the template runs again from its first step with an empty frame (R103,
R213); a DELAY (R209); the transaction limit, which ends the transaction with TIMEOUT, cause 3 (R111, R112); and the two edges of a TRIG
pulse, of which a timed one is stamped at its instant (R131, R235, R236). Each is stated where its time has come.
The model's readings it rests on: notes/assumptions/51.md. -/
def Obligations.StepEnds : Prop := ∀ (n : PortNo) (i : SlotNo) (x : TxnS) (s : State), Quiet s → portUp s n.val = true →
  inFlight s n.val i.val x → (portGet s n.val).endWin = 0 →
  let here (t : State) : Prop := OtherSlots n.val i.val s t ∧ OtherPorts n.val s t ∧ RegsBut [] s t
  let ended (t : State) : Prop := (portGet t n.val).wire ≠ some i.val ∧ OtherSlots n.val i.val s t ∧ OtherPorts n.val s t ∧
    RegsBut [R.FP_TSNS n.val] s t ∧ Only [.regs, .ports, .tiles, .pins] s t ∧
    (∀ st, x.tsFrame = some st → reg t (R.FP_TSNS n.val) = wordOf (tNs st.1))
  (x.wait = 4 → x.stepAt + 100 * bitsOf x.retry.toNat 15 0 ≤ s.elapsed → xferFirst s n.val x.ctx x.slen → canTake s n.val i.val = true →
    Runs (.retryIntervalExpiry n i) s (fun t =>
      (∃ y, onWire t n.val i.val y ∧ y.attempts = x.attempts + 1 ∧ y.frame = [] ∧ y.stores = [] ∧ y.tn = x.tn ∧ y.start = x.start ∧
        y.few = (x.few || decide (x.read < x.drove)) ∧ y.many = (x.many || decide (x.drove < x.read))) ∧
      here t ∧ Only [.ports, .pins] s t)) ∧
  (x.wait = 3 → x.stepAt + 10 * bitsOf (cStep s x.ctx x.step) 31 0 ≤ s.elapsed → endsNext s x →
    Runs (.delayEnd n i) s (fun t => (∃ y, slotGet t n.val i.val = some y ∧ y.fin = some (0, 0) ∧ y.frame = x.frame) ∧ ended t)) ∧
  ((∀ b, x.began = some b → b + 1000 * x.tlim ≤ s.elapsed) → x.began.isSome = true →
    Runs (.tlimExpiry n i false [] 0) s (fun t =>
      (∃ y, slotGet t n.val i.val = some y ∧ y.fin = some (1, 3) ∧ y.sel = false ∧ y.pulseOn = none) ∧ ended t)) ∧
  (x.wait = 5 → stepOp s x.ctx x.step = 4 → trigAt x (cStep s x.ctx x.step) ≤ fieldNs s →
    (holdsWire s n.val i.val = true ∨ canTake s n.val i.val = true →
      Runs (.timedTrig n i) s (fun t =>
        (∃ y, slotGet t n.val i.val = some y ∧ y.pulse = true ∧ y.pulseOn = some (bitsOf (cStep s x.ctx x.step) 57 55) ∧ y.wait = 1 ∧
          y.tsTrig = some (fieldNs s, stampHold s) ∧ y.fin = none) ∧
        (portGet t n.val).wire = some i.val ∧ here t ∧ Only [.ports, .tiles, .pins] s t)) ∧
    (holdsWire s n.val i.val = false → canTake s n.val i.val = false →
      Runs (.timedTrig n i) s (fun t =>
        (∃ y, slotGet t n.val i.val = some y ∧ y.pulse = x.pulse ∧ y.wait = 0) ∧ here t ∧ Only [.ports, .pins] s t))) ∧
  (x.pulse = true → x.pulseOn.isSome = true → x.stepAt + 5 * bitsOf (cStep s x.ctx x.step) 15 0 ≤ s.elapsed → endsNext s x →
    Runs (.trigTrailingEdge n i) s (fun t =>
      (∃ y, slotGet t n.val i.val = some y ∧ y.pulse = false ∧ y.fin = some (0, 0)) ∧ ended t))

/-- A transaction that has ended frees its slot (R125). One that ended in TIMEOUT is counted, sets its event bit and is reported in FPn_LAST (R126,
R157, R159); one that ran to its end with every edge read back and no stuck line counts as good; one with too few edges read back, in its last
attempt or before, sets TOO_FEW and counts (R114, R129).
The model's readings it rests on: notes/assumptions/61.md. -/
def Obligations.Completion : Prop := ∀ (n : PortNo) (i : SlotNo) (cka : Nat) (x : TxnS) (s : State), Quiet s → portUp s n.val = true → fhUp s = true →
  slotGet s n.val i.val = some x → x.ctx < 512 → (portGet s n.val).waiters = [] →
  let freed (t : State) : Prop := slotGet t n.val i.val = none ∧ OtherSlots n.val i.val s t ∧ OtherPorts n.val s t
  (∀ c : Fin 8, x.fin = some (1, c.val) →
    Runs (.transactionComplete n ⟨i, cka⟩) s (fun t => freed t ∧
      (let v := reg t (R.FP_LAST n.val)
       getFld v F.FP_LAST_VALID = 1 ∧ getFld v F.FP_LAST_OUTCOME = 1 ∧ getFld v F.FP_LAST_CAUSE = c.val ∧ getFld v F.FP_LAST_SLOT = i.val) ∧
      Counted s t (R.FP_CNT n.val 2) 1 ∧
      flag t (R.FP_EVT n.val) F.FP_EVT_TIMEOUT = true)) ∧
  (x.fin = some (0, 0) → x.stuck = 0 → x.many = false → x.read ≤ x.drove →
    (x.few = false → x.read = x.drove →
      Runs (.transactionComplete n ⟨i, cka⟩) s (fun t => freed t ∧
        getFld (reg t (R.FP_LAST n.val)) F.FP_LAST_OUTCOME = 0 ∧
        Counted s t (R.FP_CNT n.val 0) 1 ∧
        reg t (R.FP_EVT n.val) = reg s (R.FP_EVT n.val))) ∧
    (x.few = true ∨ x.read < x.drove →
      Runs (.transactionComplete n ⟨i, cka⟩) s (fun t => freed t ∧
        getFld (reg t (R.FP_LAST n.val)) F.FP_LAST_OUTCOME = 2 ∧
        Counted s t (R.FP_CNT n.val 3) 1 ∧ Counted s t (R.FP_CNT n.val 0) 0 ∧
        flag t (R.FP_EVT n.val) F.FP_EVT_TOO_FEW = true)))

-- ---------------------------------------------------------------- field ports: bitstreams, banks, windows and identity

/-- Bitstream mode: a block is stamped, its bad SCK periods are counted and end CLKOK (R95 to R97, R99, R115); the clock monitor that finds no
edge stops the blocks, unless an edge comes in the same cycle (R100, R136, R137); good periods set CLKOK and begin blocks while device time is
known (R97, R98); a stuck stream is counted and shown (R118, R119). -/
def Obligations.Bitstream : Prop := ∀ (n : PortNo) (s : State), Quiet s → portUp s n.val = true →
  clkWatched s n.val = true →
  let bad (periods : List Nat) : Nat :=
    (periods.filter (fun p => decide (p < fld s (R.FP_CLKMON n.val) F.FP_CLKMON_PMIN ∨ fld s (R.FP_CLKMON n.val) F.FP_CLKMON_PMAX < p))).length
  (∀ (a b : BitVec 256) (edges age : Nat) (periods : List Nat), (portGet s n.val).blk = true →
    fld s R.TB_STAT F.TB_STAT_FSTATE ≠ 0 → tileRuns s (n.val / 8) = true →
    Runs (.blockComplete n a b edges age periods) s (fun t =>
      reg t (R.FP_TSNS n.val) = wordOf (tNs (stampBack s age).1) ∧
      Counted s t (R.FP_CNT n.val 5) (bad periods) ∧
      (bad periods = 0 → flag s (R.FP_STAT n.val) F.FP_STAT_CLKOK = true → flag t (R.FP_STAT n.val) F.FP_STAT_CLKOK = true) ∧
      (bad periods ≠ 0 → periods.length < 17 → flag t (R.FP_STAT n.val) F.FP_STAT_CLKOK = false) ∧
      (bad periods ≠ 0 → flag t (R.FP_EVT n.val) F.FP_EVT_CLK_RANGE = true) ∧
      (portGet t n.val).blk = true ∧ OtherPorts n.val s t)) ∧
  (∀ periods : List Nat, Runs (.clkLost n ⟨false, periods⟩) s (fun t =>
    flag t (R.FP_STAT n.val) F.FP_STAT_CLKOK = false ∧ flag t (R.FP_EVT n.val) F.FP_EVT_CLK_LOST = true ∧
    Counted s t (R.FP_CNT n.val 5) (bad periods + 1) ∧
    (portGet t n.val).blk = false ∧ (portGet t n.val).clkGap.isSome = true ∧ OtherPorts n.val s t ∧
    (periods = [] → RegsBut [R.FP_STAT n.val, R.FP_EVT n.val, R.FP_CNT n.val 5] s t ∧ Only [.regs, .ports, .pins] s t))) ∧
  (anyLane s = true → ∀ periods : List Nat, Runs (.clkLost n ⟨true, periods⟩) s (fun t =>
    flag t (R.FP_EVT n.val) F.FP_EVT_RACE = true ∧ Counted s t R.GLB_RACECNT 1 ∧ Counted s t (R.FP_CNT n.val 5) (bad periods) ∧
    (periods = [] → RegsBut [R.FP_EVT n.val, R.GLB_RACECNT] s t ∧ Only [.regs, .pins] s t))) ∧
  (∀ periods : List Nat, Runs (.clkok ⟨n, periods⟩) s (fun t => flag t (R.FP_STAT n.val) F.FP_STAT_CLKOK = true ∧ (portGet t n.val).clkGap = none ∧
    (portGet t n.val).blk = decide (fld s R.TB_STAT F.TB_STAT_FSTATE ≠ 0) ∧ Counted s t (R.FP_CNT n.val 5) (bad periods) ∧ OtherPorts n.val s t)) ∧
  (∀ x : Fin 2, flag s (R.FP_BCFG n.val) (if x = 0 then F.FP_BCFG_AEN else F.FP_BCFG_BEN) = true → (portGet s n.val).runLim ≠ 0 →
    Runs (.streamStuck n x) s (fun t =>
      x.val ∈ (portGet t n.val).stuckStreams ∧ (∀ y, y ≠ x.val → (y ∈ (portGet t n.val).stuckStreams ↔ y ∈ (portGet s n.val).stuckStreams)) ∧
      flag t (R.FP_STAT n.val) F.FP_STAT_STUCK = true ∧
      flag t (R.FP_EVT n.val) F.FP_EVT_STUCK = true ∧ Counted s t (R.FP_CNT n.val 4) 1 ∧ OtherPorts n.val s t ∧
      RegsBut [R.FP_STAT n.val, R.FP_EVT n.val, R.FP_CNT n.val 4] s t ∧ Only [.regs, .ports, .pins] s t))

/-- A tile's bank that drops ends every transaction of its ports with BANK_DOWN, its ports drive nothing, and their window commands end with LINK_DOWN
(R142, R177); while the field side holds no state only the bank's own changes. Its return gives it the class of its supply, where it has none (R73, R143,
R778). At the end of its 1 ms window a port's LOAD is the share of the window in which a slot held the wire, its hold gap with it, and PEAK the
largest (R234, R242).
The model's readings it rests on: notes/assumptions/57.md. -/
def Obligations.BanksAndLoad : Prop := ∀ (t : TileNo) (s : State), Quiet s →
  (fieldAlive s = true →
    Runs (.bankDown t) s (fun u => Only [.regs, .ports, .ctxs, .tiles, .part, .nv, .nvOld, .pins] s u ∧
      (∀ n : PortNo, n.val / 8 ≠ t.val → portGet u n.val = portGet s n.val) ∧
      (∀ n : PortNo, n.val / 8 = t.val →
        flag u (R.FP_EVT n.val) F.FP_EVT_BANK_DOWN = true ∧ flag u (R.FP_STAT n.val) F.FP_STAT_CLKOK = false ∧
        (portGet u n.val).bankOk = false ∧ (portGet u n.val).driven = false ∧ (portGet u n.val).blk = false ∧
        ((portGet s n.val).wire = none ∨ (∃ (i : SlotNo) (x : TxnS), (portGet s n.val).wire = some i.val ∧ slotGet s n.val i.val = some x ∧ x.fin = none) →
          (portGet u n.val).winQ = [] ∧ (portGet u n.val).wire = none) ∧
        (∀ (i : SlotNo) x, slotGet s n.val i.val = some x → ∃ y, slotGet u n.val i.val = some y ∧ y.fin = some (x.fin.getD (5, 0))) ∧
        (portGet u n.val).waiters = (portGet s n.val).waiters))) ∧
  (fieldAlive s = false →
    Runs (.bankDown t) s (fun u => RegsBut [] s u ∧ Only [.ports, .pins] s u ∧
      (∀ n : PortNo, portGet u n.val = if n.val / 8 = t.val then { portGet s n.val with bankOk := false, bankV := 0 } else portGet s n.val))) ∧
  (∀ mv : Nat, Runs (.bankReturn t mv) s (fun u => RegsBut [] s u ∧ Only [.ports, .pins] s u ∧
    (∀ n : PortNo, n.val / 8 ≠ t.val → portGet u n.val = portGet s n.val) ∧
    (∀ n : PortNo, n.val / 8 = t.val →
      (portGet u n.val).bankOk = ((portGet s n.val).bankOk || decide (bankClass mv ≠ 0)) ∧
      (portGet u n.val).bankV = (if (portGet s n.val).bankOk = false ∧ bankClass mv ≠ 0 then bankClass mv else (portGet s n.val).bankV) ∧
      (portGet u n.val).slots = (portGet s n.val).slots))) ∧
  ((∀ n : PortNo, n.val / 8 = t.val → portUp s n.val = true → (portGet s n.val).loadAt + 1000000 ≤ s.elapsed) →
  Runs (.loadWindowEnd t) s (fun u => Only [.regs, .ports, .pins] s u ∧
    ∀ n : PortNo, n.val / 8 = t.val → portUp s n.val = true →
      let p := portGet s n.val
      let rest := if p.wire.isNone && p.relSlot.isSome then p.relAt - s.elapsed else 0
      let held := p.wireAcc + (if p.wire.isSome then s.elapsed - p.wireSince else 0) - rest
      fld u (R.SQ_LOAD n.val) F.SQ_LOAD_LOAD = min (held * 4096 / 1000000) 0xFFFF ∧
      fld u (R.SQ_PEAK n.val) F.SQ_PEAK_PEAK = max (fld s (R.SQ_PEAK n.val) F.SQ_PEAK_PEAK) (min (held * 4096 / 1000000) 0xFFFF) ∧
      (portGet u n.val).wireAcc = min rest p.wireAcc ∧ (portGet u n.val).wireSince = s.elapsed ∧ (portGet u n.val).loadAt = s.elapsed ∧
      (portGet u n.val).slots = p.slots))

/-- Register windows: a command sends its opcode and address with its select (R161, R165, R166, R175); the chunk that completes a READ answers it with
the bytes in arrival order (R161, R162, R167); a WRITE goes through its write-enable, its data and its status reads until the device is no
longer busy (R175); the limits answer TIMEOUT with CW_EVT.TMO and WFAIL (R171, R176), and a command whose last edge comes in the same cycle is
answered OK with RACE (R37, R172).
The model's readings it rests on: notes/assumptions/52.md, notes/assumptions/59.md. -/
def Obligations.Windows : Prop := ∀ (n : PortNo) (w : WinCmd) (rest : List WinCmd) (s : State), Quiet s → portUp s n.val = true →
  winFront s n.val w rest → (portGet s n.val).endWin = 0 →
  let ran (tx : List Bool) (rx : Nat) (t : State) : Prop :=
    (portGet t n.val).txBits = tx ∧ (portGet t n.val).txSel = fld s (R.CW_CFG n.val) F.CW_CFG_SEL ∧
    s.elapsed + winTime s n.val (tx.length + rx) ≤ t.elapsed
  (∀ rx : List Byte, winReady s n.val → w.write = false → rx.length = chunkLen s n.val w → w.got.length + rx.length = w.want →
    Runs (.windowChunk n rx) s (fun t =>
      Answered s t w.port.val w.cmd (winAnswer w (w.got ++ rx)).1 (winAnswer w (w.got ++ rx)).2 ∧
      (portGet t n.val).winQ = rest ∧ Counted s t (R.CW_CNT_RD n.val) 1 ∧
      ran (readBits s n.val (w.addr + w.got.length)) (8 * rx.length) t ∧
      RegsButTimers [R.CW_CNT_RD n.val] s t ∧ Only (clockParts ++ answerParts ++ [.ports]) s t)) ∧
  (∀ rx : List Byte, winReady s n.val → w.write = true → w.phase < 2 →
    Runs (.windowChunk n rx) s (fun t =>
      (portGet t n.val).winQ = { w with phase := w.phase + 1 } :: rest ∧ (w.phase = 0 → flag t (R.CW_STAT n.val) F.CW_STAT_WIP = true) ∧
      ran (if w.phase = 0 then opBits s n.val F.CW_CMD_WEOP else progBits s n.val w) 0 t ∧
      RegsButTimers [R.CW_STAT n.val] s t ∧ Only (clockParts ++ [.ports]) s t)) ∧
  (∀ b : Byte, winReady s n.val → w.write = true →
    let ends (c : Instr) : Prop := Runs c s (fun t =>
      (b.getLsbD 0 = false → Answered s t w.port.val w.cmd stOK [] ∧ (portGet t n.val).winQ = rest ∧
        flag t (R.CW_STAT n.val) F.CW_STAT_WIP = false) ∧
      (b.getLsbD 0 = true → (∃ v, (portGet t n.val).winQ = v :: rest ∧ v.phase = 3 ∧ v.cmd = w.cmd ∧ v.srop = t.elapsed) ∧ RegsButTimers [] s t) ∧
      ran (opBits s n.val F.CW_CMD_SROP) 8 t ∧
      RegsButTimers [R.CW_STAT n.val] s t ∧ Only (clockParts ++ answerParts ++ [.ports]) s t)
    (w.phase = 2 → ends (.windowChunk n [b])) ∧ (w.phase = 3 → w.srop + 100000 ≤ s.elapsed → ends (.statusReadRepeat n b))) ∧
  (w.write = false → w.since + 1000000 * fld s (R.CW_TLIM n.val) F.CW_TLIM_LIMIT ≤ s.elapsed →
    Runs (.windowReadTimeout n false []) s (fun t =>
      Answered s t w.port.val w.cmd stTIMEOUT (List.replicate (w.want / 4 + w.past) 0) ∧ (portGet t n.val).winQ = rest ∧
      flag t (R.CW_EVT n.val) F.CW_EVT_TMO = true ∧ RegsBut [R.CW_EVT n.val] s t ∧ Only (answerParts ++ [.ports]) s t) ∧
    (∀ rx : List Byte, lastChunk s n.val w rx = true → anyLane s = true →
      Runs (.windowReadTimeout n true rx) s (fun t =>
        Answered s t w.port.val w.cmd (winAnswer w (w.got ++ rx)).1 (winAnswer w (w.got ++ rx)).2 ∧
        (portGet t n.val).winQ = rest ∧ flag t (R.CW_EVT n.val) F.CW_EVT_RACE = true ∧ Counted s t R.GLB_RACECNT 1 ∧
        Counted s t (R.CW_CNT_RD n.val) 1 ∧
        RegsBut [R.CW_EVT n.val, R.CW_CNT_RD n.val, R.GLB_RACECNT] s t ∧ Only (answerParts ++ [.ports]) s t))) ∧
  (∀ b, w.write = true → w.wlim = some b → b + 1000000 * fld s (R.CW_TLIM n.val) F.CW_TLIM_WLIM ≤ s.elapsed →
    (∀ st : Option Byte, (∀ x ∈ st, x.getLsbD 0 = true) →
      Runs (.writeLimitExpiry ⟨n, st⟩) s (fun t =>
        Answered s t w.port.val w.cmd stTIMEOUT [] ∧ (portGet t n.val).winQ = rest ∧ flag t (R.CW_EVT n.val) F.CW_EVT_WFAIL = true ∧
        flag t (R.CW_STAT n.val) F.CW_STAT_WIP = false ∧ RegsBut [R.CW_EVT n.val, R.CW_STAT n.val] s t ∧ Only (answerParts ++ [.ports]) s t)) ∧
    (∀ x : Byte, x.getLsbD 0 = false → anyLane s = true →
      Runs (.writeLimitExpiry ⟨n, some x⟩) s (fun t =>
        Answered s t w.port.val w.cmd stOK [] ∧ (portGet t n.val).winQ = rest ∧ flag t (R.CW_EVT n.val) F.CW_EVT_RACE = true ∧
        flag t (R.CW_STAT n.val) F.CW_STAT_WIP = false ∧ Counted s t R.GLB_RACECNT 1 ∧
        RegsBut [R.CW_EVT n.val, R.CW_STAT n.val, R.GLB_RACECNT] s t ∧ Only (answerParts ++ [.ports]) s t)))

/-- Identity: a read of a slot in use falls due while the slot is unchecked, and at the end of its probe period while it is ABSENT, PRESENT under
RECHK, or to be read again (R179, R180); its command names IDADDR and the slot's select (R178); it ends with the bytes in SEEN and the slot
PRESENT where they are the reference, ABSENT where they are all ones, else in QUARANTINE with CW_EVT.SWAP, or accepted under AUTOACC (R178,
R179, R181), an accept in the same cycle coming first (R187); one that ends without bytes changes no state and is repeated (R179).
The model's readings it rests on: notes/assumptions/17.md, notes/assumptions/52.md, notes/assumptions/65.md. -/
def Obligations.Identity : Prop := ∀ (n : PortNo) (i : Fin 3) (s : State), Quiet s → portUp s n.val = true → idUsed s n.val i.val = true →
  (portGet s n.val).endWin = 0 →
  let since := tabGet (fun _ => 0) (portGet s n.val).idAt i.val
  (flag s (R.FP_CTL n.val) F.FP_CTL_EN = true → i.val ∉ (portGet s n.val).idDue →
    ((idState s n.val i.val = 0 ∧ i.val ∉ (portGet s n.val).idRetry) ∨
      ((idState s n.val i.val = 2 ∨ i.val ∈ (portGet s n.val).idRetry ∨
        (idState s n.val i.val = 1 ∧ flag s (R.CW_PROBE n.val) F.CW_PROBE_RECHK = true)) ∧
        since + 1000000 * fld s (R.CW_PROBE n.val) F.CW_PROBE_PERIOD ≤ s.elapsed)) →
    Runs (.identityRead n i) s (fun t => (portGet t n.val).idDue = (portGet s n.val).idDue ++ [i.val] ∧ OtherPorts n.val s t ∧
      RegsBut [] s t ∧ Only [.ports, .pins] s t)) ∧
  (i.val ∈ (portGet s n.val).idDue → serialMayRun s n.val = true →
    ∀ (bs : List Byte) (withAccept : Bool), bs.length = fld s (R.CW_ID n.val) F.CW_ID_IDLEN →
    Runs (.identityJudge n i (some bs) withAccept) s (fun t =>
      let acc := withAccept && idState s n.val i.val == 3
      let lo := if acc then R.CW_IDS_SEENLO n.val i.val else R.CW_IDS_REFLO n.val i.val
      let hi := if acc then R.CW_IDS_SEENHI n.val i.val else R.CW_IDS_REFHI n.val i.val
      let ref := (wordBytes (reg s lo) ++ wordBytes (reg s hi)).take (fld s (R.CW_ID n.val) F.CW_ID_IDLEN)
      let auto := flag s (R.CW_CTL n.val) F.CW_CTL_AUTOACC
      let ones := bs.all (· == 0xFF)
      idState t n.val i.val = (if ones then 2 else if bs = ref ∨ auto = true then 1 else 3) ∧
      reg t (R.CW_IDS_SEENLO n.val i.val) = wordOf (leNat (bs.take 4)) ∧ reg t (R.CW_IDS_SEENHI n.val i.val) = wordOf (leNat (bs.drop 4)) ∧
      (ones = false → bs ≠ ref → (idState s n.val i.val ≠ 3 ∨ acc = true ∨ auto = true) → flag t (R.CW_EVT n.val) F.CW_EVT_SWAP = true) ∧
      (ones = false → bs ≠ ref → auto = true → flag t (R.CW_EVT n.val) F.CW_EVT_ACCEPTED = true ∧
          reg t (R.CW_IDS_REFLO n.val i.val) = wordOf (leNat (bs.take 4)) ∧ reg t (R.CW_IDS_REFHI n.val i.val) = wordOf (leNat (bs.drop 4))) ∧
      (portGet t n.val).txBits = readBits s n.val (fld s (R.CW_ID n.val) F.CW_ID_IDADDR) ∧
      (portGet t n.val).txSel = fld s (R.CW_IDS_CTL n.val i.val) F.CW_IDS_CTL_SEL ∧
      i.val ∉ (portGet t n.val).idDue ∧ i.val ∈ (portGet t n.val).idDone ∧ (∀ j : Fin 3, j ≠ i → idState t n.val j.val = idState s n.val j.val))) ∧
  (i.val ∈ (portGet s n.val).idDue →
    ((portGet s n.val).bankOk = false ∨ since + 1000000 * fld s (R.CW_TLIM n.val) F.CW_TLIM_LIMIT ≤ s.elapsed) →
    Runs (.identityJudge n i none false) s (fun t => i.val ∉ (portGet t n.val).idDue ∧ i.val ∈ (portGet t n.val).idDone ∧
      i.val ∈ (portGet t n.val).idRetry ∧ OtherPorts n.val s t ∧ RegsBut [] s t ∧ Only [.ports, .pins] s t))

/-- The boundary of a context: a STOP that waits takes effect, a calibration is taken over, and with nothing waiting nothing changes (R203,
R205, R721); the profile request of a polled context takes effect where it changes the profile, and that of a bitstream context waits for an
output (R231). A filter output is counted, and what its checks find is counted and shown (R249, R264 to R268).
The model's readings it rests on: notes/assumptions/49.md, notes/assumptions/53.md. -/
def Obligations.Boundaries : Prop := ∀ (s : State), Quiet s → fhUp s = true →
  (∀ k : CtxNo, cState s k.val = stRunning → boundaryNow s k.val →
    ((ctxGet s k.val).acts = [] → Runs (.periodBoundary k) s (fun t => (ctxGet t k.val) = { ctxGet s k.val with quarKeep := false } ∧
      RegsBut [] s t ∧ Only [.ctxs, .pins] s t)) ∧
    ((ctxGet s k.val).acts = [.stop] → inflight s k.val = false →
      Runs (.periodBoundary k) s (fun t => cState t k.val = stStopped ∧ (ctxGet t k.val).acts = [] ∧ (ctxGet t k.val).sched = none ∧
        ∀ j : CtxNo, j ≠ k → cState t j.val = cState s j.val)) ∧
    (∀ g o : Word, (ctxGet s k.val).acts = [.cal g o] → inflight s k.val = false →
      Runs (.periodBoundary k) s (fun t => reg t (R.CTX_GAIN k.val) = g ∧ reg t (R.CTX_OFFS k.val) = o ∧ cState t k.val = stRunning ∧
        (ctxGet t k.val).acts = [])) ∧
    (cBit s k.val = true → Runs (.profileSwitch k) s (Only [.pins] s)) ∧
    (∀ a : Bool, cBit s k.val = false → (ctxGet s k.val).profReq = some a →
      (a ≠ cAlert s k.val → cHasAlert s k.val = true →
        Runs (.profileSwitch k) s (fun t => cAlert t k.val = a ∧ (ctxGet t k.val).profReq = none ∧ cState t k.val = stRunning)) ∧
      (a = cAlert s k.val ∨ cHasAlert s k.val = false →
        Runs (.profileSwitch k) s (fun t => (ctxGet t k.val).profReq = none ∧ RegsBut [] s t ∧ Only [.ctxs, .pins] s t)))) ∧
  (∀ (t : TileNo) (f : FSlot) (err : FiltErr), engineUp s t.val = true → slBound s t.val f.val = true →
    (Runs (.filterOutput t f err true) s (fun u => Counted s u (R.FT_FLT_CNT_DBE t.val) 1 ∧
      flag u (R.FT_FLT_EVT t.val) F.FT_FLT_EVT_DBE = true ∧
      (ctxGet u (slCtx s t.val f.val)).gapDue.isSome = true)) ∧
    (needUnit s t.val f.val ((filtGet s (slotIx t.val f.val)).outs + 1) ≤ haveUnits s t.val f.val →
      (slBit s t.val f.val = true → (ctxGet s (slCtx s t.val f.val)).acts = [] ∧ (ctxGet s (slCtx s t.val f.val)).profReq = none) → anyLane s = true →
      Runs (.filterOutput t f err false) s (fun u => Counted s u (R.FT_SLOT_OUT t.val f.val) 1 ∧
        Counted s u (R.FT_FLT_CNT_CKA t.val) err.cka ∧ Counted s u (R.GLB_CKCNT 1) err.cka ∧ Counted s u (R.FT_FLT_CNT_SBE t.val) err.sbe ∧
        Counted s u (R.FT_FLT_CNT_DBE t.val) (if err.dbe then 1 else 0) ∧
        (err.cka ≠ 0 → flag u (R.FT_FLT_EVT t.val) F.FT_FLT_EVT_CKA = true) ∧ (err.sbe ≠ 0 → flag u (R.FT_FLT_EVT t.val) F.FT_FLT_EVT_SBE = true) ∧
        (err.dbe = true → flag u (R.FT_FLT_EVT t.val) F.FT_FLT_EVT_DBE = true) ∧
        (∀ (v : TileNo) (g : FSlot), (v, g) ≠ (t, f) → reg u (R.FT_SLOT_OUT v.val g.val) = reg s (R.FT_SLOT_OUT v.val g.val)))))

-- ---------------------------------------------------------------- device time

/-- An exchange in service gives its offset and its frequency to the field side, and 16 good ones in a row lead from FHOLD to TRACK (R304, R307,
R311); the first after NOTIME gives it master time (R307, R312), and the first after a wake with the field's time kept gives that
to the host side (R361). No exchange for 500 µs leads to FHOLD, and no accepted sample for TMO to HOLDOVER, unless one comes in the
same cycle (R307, R310, R319, R321).
The model's readings it rests on: notes/assumptions/14.md, notes/assumptions/23.md. -/
def Obligations.Exchanges : Prop := ∀ (s : State), Quiet s →
  (∀ (x : Lane) (off : Int), laneUp s x.val = true →
    (s.tm.fromField = true → fState s ≠ 0 →
      Runs (.timeExchange x off) s (fun t => t.tm.master = s.tm.field ∧ t.tm.fromField = false ∧ t.tm.field = s.tm.field ∧
        RegsBut [] s t ∧ Only [.tm, .pins] s t)) ∧
    (s.tm.fromField = false → masterRuns s = true → fState s ≠ 0 →
      Runs (.timeExchange x off) s (fun t =>
        fld t R.TB_FOFFS F.TB_FOFFS_FOFF = unsignedOf 16 off ∧ (s.tm.fieldStep = [] → t.tm.frate = freqNow s) ∧
        t.tm.good = (if off.natAbs ≤ 32 then min (s.tm.good + 1) 16 else 0) ∧
        fState t = (if fState s = 2 ∧ off.natAbs ≤ 32 ∧ 15 ≤ s.tm.good then 1 else fState s) ∧
        t.tm.master = s.tm.master ∧ t.tm.field = s.tm.field ∧ RegsBut [R.TB_FOFFS, R.TB_STAT] s t ∧ Only [.regs, .tm, .pins] s t)) ∧
    (s.tm.fromField = false → masterRuns s = true → fState s = 0 → s.pow.field.st = .run → coldReset s .field = false →
      Runs (.timeExchange x off) s (fun t => t.tm.field = s.tm.master ∧ t.tm.master = s.tm.master ∧ fState t = 2 ∧ t.tm.frate = freqNow s))) ∧
  (fieldRuns s = true → fState s = 1 → s.tm.exAt + 500000 ≤ s.elapsed →
    Runs (.fstateTimeout false) s (fun t => fState t = 2 ∧ flag t R.TB_EVT F.TB_EVT_FHOLD = true ∧ RegsBut [R.TB_STAT, R.TB_EVT] s t ∧
      Only [.regs, .tm, .pins] s t) ∧
    (anyLane s = true → Runs (.fstateTimeout true) s (fun t => fState t = 1 ∧ flag t R.TB_EVT F.TB_EVT_RACE = true ∧ Counted s t R.GLB_RACECNT 1 ∧
      RegsBut [R.GLB_RACECNT, R.TB_EVT] s t ∧ Only [.regs, .pins] s t))) ∧
  (masterRuns s = true → tbState s = 2 → (∀ l ∈ s.tm.last, l + fld s R.TB_HOLD F.TB_HOLD_TMO * 1000000 * nsU ≤ s.tm.master) →
    Runs (.servoTmo false) s (fun t => tbState t = 3 ∧ flag t R.TB_EVT F.TB_EVT_HOLDOVER = true ∧ reg t R.TB_FREQ = reg s R.TB_FREQ ∧
      RegsBut [R.TB_STAT, R.TB_EVT, R.TB_PTP_STAT] s t ∧ Only [.regs, .pins] s t) ∧
    Runs (.servoTmo true) s (fun t => tbState t = 2 ∧ flag t R.TB_EVT F.TB_EVT_RACE = true ∧ Counted s t R.GLB_RACECNT 1 ∧
      RegsBut [R.GLB_RACECNT, R.TB_EVT] s t ∧ Only [.regs, .pins] s t))

/-- A step instant that has come moves device time by the step, or to its value; the event and the count show it, and the command that
asked for it is answered OK (R322 to R324, R329, R331). The field side moves with it while a lane is in service and its time is known, else the
amount waits (R323).
The model's readings it rests on: notes/assumptions/62.md. -/
def Obligations.StepInstant : Prop := ∀ (s : State), Quiet s → masterRuns s = true →
  (∀ q ∈ s.tm.step.head?, q.at_ ≤ s.tm.master → fieldStepFirst s = false →
    Runs .stepInstant s (fun t =>
      t.tm.master = stepTo s q.amt ∧ t.tm.step = s.tm.step.tail.map (laterStep (stepAmount s q.amt)) ∧ t.tm.last = none ∧
      flag t R.TB_EVT F.TB_EVT_STEPPED = true ∧ flag t R.TB_STAT F.TB_STAT_PEND = false ∧
      (reg t R.TB_CNT_STEP).toNat = min ((reg s R.TB_CNT_STEP).toNat + 1) 0xFFFFFFFF ∧
      (anyLane s = false → t.tm.field = s.tm.field ∧ t.tm.fieldPend = s.tm.fieldPend + stepAmount s q.amt) ∧
      (anyLane s = true → fState s ≠ 0 → t.tm.field = ((s.tm.field : Int) + stepAmount s q.amt).toNat) ∧
      (∀ x ∈ q.cmd, (partGet s x.1.val).outst.contains x.2 = true → Answered s t x.1.val x.2 stOK (stepWords (stepAmount s q.amt) (masterNs t))))) ∧
  (fieldStepFirst s = true → ∀ q ∈ s.tm.fieldStep.head?, q.at_ ≤ s.tm.master →
    Runs .stepInstant s (fun t => t.tm.master = s.tm.master ∧ t.tm.step = s.tm.step ∧ t.tm.fieldStep = s.tm.fieldStep.tail ∧
      t.tm.field = ((s.tm.field : Int) + stepAmount s q.amt).toNat))

/-- A reference that fails leaves its side on its RC: the flag and the event say so, device time of the side moves by at most 20 ns, a LOCKED
servo holds over and a field side with known time goes to FHOLD (R334 to R337); the switch back after a request clears both bits (R338); an oscillator
that is good after a wake ends its side's time on the RC (R692). FH writes the measured ratio of the always-on counter while the field side runs (R359). -/
def Obligations.Oscillators : Prop := ∀ (d : Int) (s : State), Quiet s →
  (hostAlive s = true → flag s R.TB_STAT F.TB_STAT_OSCH = false →
    Runs (.oscFail .host d) s (fun t => flag t R.TB_STAT F.TB_STAT_OSCH = true ∧ flag t R.TB_EVT F.TB_EVT_OSCFAIL_H = true ∧
      t.tm.master = ((s.tm.master : Int) + shiftOf d).toNat ∧ t.tm.field = s.tm.field ∧
      tbState t = (if tbState s = 2 then 3 else tbState s) ∧ RegsBut [R.TB_STAT, R.TB_EVT, R.TB_PTP_STAT] s t ∧ Only [.regs, .tm, .pins] s t)) ∧
  (fieldAlive s = true → flag s R.TB_STAT F.TB_STAT_OSCF = false →
    Runs (.oscFail .field d) s (fun t => flag t R.TB_STAT F.TB_STAT_OSCF = true ∧ flag t R.TB_EVT F.TB_EVT_OSCFAIL_F = true ∧
      t.tm.field = ((s.tm.field : Int) + shiftOf d).toNat ∧ t.tm.master = s.tm.master ∧
      fState t = (if fState s = 0 then 0 else 2) ∧ RegsBut [R.TB_STAT, R.TB_EVT] s t ∧ Only [.regs, .tm, .ctxs, .fresh, .pins] s t)) ∧
  (∀ x : Side, sideAlive s x = true → flag s R.TB_STAT (oscFld x) = true →
    (flag s R.TB_CLK (retryFld x) = true →
      Runs (.oscSwitchBack x d) s (fun t => flag t R.TB_STAT (oscFld x) = false ∧ flag t R.TB_CLK (retryFld x) = false ∧
        (t.tm.master, t.tm.field) = (if x = .host then (((s.tm.master : Int) + shiftOf d).toNat, s.tm.field)
          else (s.tm.master, ((s.tm.field : Int) + shiftOf d).toNat)) ∧
        RegsBut [R.TB_STAT, R.TB_CLK] s t ∧ Only [.regs, .tm, .pins] s t)) ∧
    ((sideGet s x).onRc = true →
      Runs (.oscillatorReady x) s (fun t => flag t R.TB_STAT (oscFld x) = false ∧ (sideGet t x).onRc = false ∧
        RegsBut [R.TB_STAT] s t ∧ Only [.regs, .pow, .pins] s t))) ∧
  (∀ r : Word, fieldAlive s = true → s.pow.field.st = .run → fState s ≠ 0 →
    Runs (.aocRatioUpdate r) s (fun t => reg t R.TB_AOC_RATIO = r ∧ RegsBut [R.TB_AOC_RATIO] s t ∧ Only [.regs, .pins] s t))

/-- PPS_IN: an edge is stamped (R347); one whose distance from the last is not 1 s ± 1 ms is rejected and counted (R349); one that the servo does not use
changes nothing more. Pulses: the leading edge at a channel's instant, the next instant a period later (R351, R352); the trailing edge WIDTH
later, after which a ONCE channel is off (R351, R353); a Sieve request that drives an idle EVENT channel, and is dropped and counted at any other (R354). -/
def Obligations.PulsesAndPps : Prop := ∀ (s : State), Quiet s → masterRuns s = true →
  (flag s R.TB_PPSIN F.TB_PPSIN_EN = true →
    let late := ∃ e ∈ s.tm.ppsLast, s.elapsed - e < 999000000 ∨ 1001000000 < s.elapsed - e
    (late ∨ tbSrc s ≠ 2 →
      Runs .ppsIn s (fun t => reg t R.TB_PPSNS = wordOf (tNs (masterNs s)) ∧ t.tm.ppsSec = wordOf (tSecLo (masterNs s)) ∧
        t.tm.ppsLast = some s.elapsed ∧
        (late → flag t R.TB_EVT F.TB_EVT_PPSREJ = true ∧ Counted s t R.TB_CNT_PPSREJ 1) ∧
        (¬ late → reg t R.TB_EVT = reg s R.TB_EVT ∧ reg t R.TB_CNT_PPSREJ = reg s R.TB_CNT_PPSREJ) ∧
        RegsBut [R.TB_PPSNS, R.TB_EVT, R.TB_CNT_PPSREJ] s t ∧ Only [.regs, .tm, .pins] s t)) ∧
    (¬ late → tbSrc s = 2 → tbEn s = false →
      Runs .ppsIn s (fun t => reg t R.TB_PPSNS = wordOf (tNs (masterNs s)) ∧
        reg t R.TB_OFFS = BitVec.ofInt 32 (ppsTheta ((masterNs s : Int) - signedOf 16 (fld s R.TB_PPSIN F.TB_PPSIN_DLY))) ∧
        RegsBut [R.TB_PPSNS, R.TB_OFFS] s t ∧ Only [.regs, .tm, .pins] s t))) ∧
  (∀ i : PulseNo, (∀ m ∈ (pulseGet s i.val).next, m ≤ masterNs s) → (pulseGet s i.val).next.isSome = true → plsEn s i.val = true →
    Runs (.pulseInstant i) s (fun t =>
      let x := pulseGet t i.val
      x.active = some s.elapsed ∧ x.driven = true ∧ x.level = !plsIdle s i.val ∧ x.lastSec = wordOf (tSecLo (masterNs s)) ∧
      reg t (R.TB_PLS_LASTNS i.val) = wordOf (tNs (masterNs s)) ∧
      x.next = (if plsMode s i.val = 1 then (pulseGet s i.val).next.map (· + max 1 (plsPer s i.val)) else none) ∧
      RegsBut [R.TB_PLS_LASTNS i.val] s t ∧ Only [.regs, .tm, .pins] s t)) ∧
  (∀ i : PulseNo, (∀ e ∈ (pulseGet s i.val).active, e + plsWidth s i.val ≤ s.elapsed) → (pulseGet s i.val).active.isSome = true →
    Runs (.pulseEnd i) s (fun t =>
      let x := pulseGet t i.val
      x.active = none ∧ x.level = plsIdle s i.val ∧
      plsEn t i.val = (plsEn s i.val && (decide (plsMode s i.val ≠ 0) || (pulseGet s i.val).next.isSome)) ∧ x.driven = (plsEn t i.val && (pulseGet s i.val).driven) ∧
      RegsBut [R.TB_PLS_CTL i.val] s t ∧ Only [.regs, .tm, .pins] s t)) ∧
  (∀ i : PulseNo, i.val ∈ s.sv.pulses →
    Runs (.pulseRequest i) s (fun t =>
      t.sv.pulses = dropNat i.val s.sv.pulses ∧
      (if plsEn s i.val = true ∧ plsMode s i.val = 2 ∧ (pulseGet s i.val).active = none then
        (pulseGet t i.val).active = some s.elapsed ∧ (pulseGet t i.val).level = !plsIdle s i.val
      else
        fld t (R.TB_PLS_CNT i.val) F.TB_PLS_CNT_DROP = satAdd F.TB_PLS_CNT_DROP.w (fld s (R.TB_PLS_CNT i.val) F.TB_PLS_CNT_DROP) 1 ∧
        pulseGet t i.val = pulseGet s i.val) ∧
      RegsBut [R.TB_PLS_CNT i.val, R.TB_PLS_LASTNS i.val] s t ∧ Only [.regs, .tm, .sv, .pins] s t))

/-- PTP: a master answers a Delay_Req with a Delay_Resp, a slave keeps its master's two-step Sync for the Follow_Up (R340, R341), and the transparent
clock passes a message on to the other port (R343); a master sends Sync, with Follow_Up unless it is one-step, and Announce (R340, R342); the delay request is
stamped with the port's latency (R341); a port that no longer hears its master listens, or becomes master itself where it may (R340). Counts and numbers
are those of R365; the messages' bytes are in network order (R11). The states and messages beyond R340's words are those of IEEE 1588 (the model's reading: notes/assumptions/22.md).
The model's readings it rests on: notes/assumptions/22.md. -/
def Obligations.PtpMessages : Prop := ∀ (s : State), Quiet s →
  (∀ (e : EthNo) (m : PtpMsg), ptpTakes s e m →
    (m.kind = 1 → pState s = 6 → ptpPeer s = false →
      Runs (.ptpEventRx e m) s (fun t => PtpLeaves s t e 9 m.seqId (delayResp s (ptpRxT s e.val m.rx) m) ∧ Counted s t (R.P_ETH_CNT e.val 0) 1 ∧
        Counted s t (R.TB_PTP_CNT 0) 1 ∧ Counted s t (R.TB_PTP_CNT 1) 1 ∧
        RegsBut [R.P_ETH_CNT e.val 0, R.P_ETH_CNT e.val 1, R.TB_PTP_CNT 0, R.TB_PTP_CNT 1] s t ∧ Only [.regs, .part, .sent, .pins] s t)) ∧
    (m.kind = 0 → (pState s = 8 ∨ pState s = 9) → fromParent s m = true → m.twoStep = true →
      Runs (.ptpEventRx e m) s (fun t => t.tm = { s.tm with ptp := { s.tm.ptp with sync := some (m.seqId, m.rx, m.corr) } } ∧
        Counted s t (R.P_ETH_CNT e.val 0) 1 ∧ Counted s t (R.TB_PTP_CNT 0) 1 ∧ RegsBut [R.P_ETH_CNT e.val 0, R.TB_PTP_CNT 0] s t ∧
        Only [.regs, .tm, .pins] s t))) ∧
  (∀ (e : EthNo) (m : PtpMsg), hears s e.val = true → flag s R.TB_PTP_CTL F.TB_PTP_CTL_TC = true → ptpEn s = false →
    (linkIsUp s (1 - e.val) = true →
      Runs (.ptpEventRx e m) s (fun t => PtpLeaves s t (1 - e) m.kind m.seqId (ptpForwarded m (takeFree s).1) ∧ Counted s t (R.P_ETH_CNT e.val 0) 1 ∧
        Counted s t (R.TB_PTP_CNT 3) 1 ∧ RegsBut [R.P_ETH_CNT e.val 0, R.P_ETH_CNT (1 - e.val) 1, R.TB_PTP_CNT 3] s t ∧
        Only [.regs, .part, .fresh, .sent, .pins] s t)) ∧
    (linkIsUp s (1 - e.val) = false →
      Runs (.ptpEventRx e m) s (fun t => t.sent = s.sent ∧ Counted s t (R.P_ETH_CNT e.val 0) 1 ∧ Counted s t (R.P_ETH_CNT e.val 5) 1 ∧
        RegsBut [R.P_ETH_CNT e.val 0, R.P_ETH_CNT e.val 5] s t ∧ Only [.regs, .pins] s t))) ∧
  (∀ e : EthNo, ptpSends s = true → ptpEn s = true → ptpPort s = e.val →
    (pState s = 6 → ∀ tx : Nat,
      Runs (.syncTransmit tx) s (fun t =>
        let one := flag s R.TB_PTP_CTL F.TB_PTP_CTL_ONESTEP
        let at_ := ptpTxT s e.val tx
        t.sent = s.sent ++ [.ptp e 0 s.tm.ptp.seqSync (syncSent s one at_)] ++
          (if one then [] else [.ptp e 8 s.tm.ptp.seqSync (followSent s at_)]) ∧
        t.tm.ptp.seqSync = (s.tm.ptp.seqSync + 1) % 65536 ∧ Counted s t (R.TB_PTP_CNT 1) (if one then 1 else 2) ∧
        Counted s t (R.P_ETH_CNT e.val 1) (if one then 1 else 2) ∧ RegsBut [R.P_ETH_CNT e.val 1, R.TB_PTP_CNT 1] s t ∧ Only [.regs, .sent, .tm, .pins] s t)) ∧
    (pState s = 6 →
      Runs .announceTransmit s (fun t => t.sent = s.sent ++ [.ptp e 11 s.tm.ptp.seqAnn (announceSent s)] ∧ t.tm.ptp.seqAnn = (s.tm.ptp.seqAnn + 1) % 65536 ∧
        Counted s t (R.TB_PTP_CNT 1) 1 ∧ Counted s t (R.P_ETH_CNT e.val 1) 1 ∧ RegsBut [R.P_ETH_CNT e.val 1, R.TB_PTP_CNT 1] s t ∧
        Only [.regs, .sent, .tm, .pins] s t)) ∧
    (ptpPeer s = true ∨ pState s = 8 ∨ pState s = 9 → ∀ tx : Nat,
      Runs (.delayReqTransmit tx) s (fun t => t.sent = s.sent ++ [.ptp e (if ptpPeer s then 2 else 1) s.tm.ptp.seqDreq (delaySent s)] ∧
        t.tm.ptp.dreq = some (s.tm.ptp.seqDreq, tx + fld s (R.TB_PTP_LAT e.val) F.TB_PTP_LAT_TX * 65536) ∧
        t.tm.ptp.seqDreq = (s.tm.ptp.seqDreq + 1) % 65536 ∧ Counted s t (R.TB_PTP_CNT 1) 1 ∧
        Counted s t (R.P_ETH_CNT e.val 1) 1 ∧ RegsBut [R.P_ETH_CNT e.val 1, R.TB_PTP_CNT 1] s t ∧ Only [.regs, .sent, .tm, .pins] s t))) ∧
  (masterRuns s = true → ptpEn s = true → pState s ≠ 6 → s.tm.ptp.parent.isSome = true → s.tm.ptp.annAt + annWait s ≤ s.elapsed →
    (∀ f ∈ s.tm.ptp.foreign, ∃ g ∈ s.tm.ptp.parent, f.srcId = g.srcId ∧ f.srcPort = g.srcPort) →
    Runs .announceReceiptTimeout s (fun t =>
      let may := flag s R.TB_PTP_CTL F.TB_PTP_CTL_MCAP
      pState t = (if may then 6 else 4) ∧ t.tm.ptp.parent = none ∧ t.tm.ptp.foreign = [] ∧ t.tm.ptp.annAt = s.elapsed ∧
      RegsBut ([R.TB_PTP_STAT] ++ (if may then [R.TB_PTP_GMLO, R.TB_PTP_GMHI] else [])) s t ∧ Only [.regs, .tm, .pins] s t))

/-- Tile timers: a count step that passes the compare value is a match, with its bit and its count; one that passes zero is an overflow (R371, R372,
R388, R394); a pulse ends when its width has passed (R394, R395); an accepted edge counts in an edge channel and captures in one with CAPEN (R368, R379, R381);
the debugger's halt freezes through a lane in service, and the resume ends it (R398, R399).
The model's readings it rests on: notes/assumptions/6.md, notes/assumptions/41.md. -/
def Obligations.TimerEvents : Prop := ∀ (t : TileNo) (c : TmCh) (s : State), s.waits = [] →
  (∀ d : Fin 7, unlinked s t.val c.val → canStep s t.val c.val d.val →
    let a := (reg s (R.FT_TMC_CNT t.val c.val)).toNat
    let m := tmDist (2 ^ 32) a (reg s (R.FT_TMC_CMP t.val c.val)).toNat
    let z := tmDist (2 ^ 32) a 0
    let steps (e : Instr) : Prop := Runs e s (fun u =>
      (reg u (R.FT_TMC_CNT t.val c.val)).toNat = (a + d.val) % 2 ^ 32 ∧
      (m ≤ d.val → flag u (R.FT_TMC_EVT t.val c.val) F.FT_TMC_EVT_MATCH = true ∧ Counted s u (R.FT_TMC_MATCHES t.val c.val) 1) ∧
      (d.val < m → reg u (R.FT_TMC_MATCHES t.val c.val) = reg s (R.FT_TMC_MATCHES t.val c.val)) ∧
      (z ≤ d.val → flag u (R.FT_TMC_EVT t.val c.val) F.FT_TMC_EVT_OVF = true) ∧
      RegsBut (chanRegs t.val c.val ++ [R.FT_TMC_CNT t.val c.val, R.FT_TMC_EVT t.val c.val, R.FT_TMC_MATCHES t.val c.val]) s u ∧
      Only [.regs, .tmrs, .pins] s u)
    (m ≤ d.val → steps (.countMatch t c d.val)) ∧ (z ≤ d.val → steps (.overflow t c d.val))) ∧
  (∀ p ∈ (tmrGet s (8 * t.val + c.val)).pulse, tileAwake s t.val = true → tmFrozen s t.val c.val = false →
    (tmrGet s (8 * t.val + c.val)).on = false → s.tmrAt = s.elapsed → 0 < p → p < 2 ^ 32 →
    Runs (.timerPulseEnd t c) s (fun u => (tmrGet u (8 * t.val + c.val)).pulse = none ∧ (tmrGet u (8 * t.val + c.val)).level = none ∧
      s.elapsed + 5 * p ≤ u.elapsed ∧ RegsButTimers [] s u ∧ Only clockParts s u)) ∧
  (∀ (pin : Fin 4) (level : Bool) (age : Nat), tileAwake s t.val = true → unlinked s t.val c.val → (tmrGet s (8 * t.val + c.val)).on = true →
    tmAccepts s t.val c.val age = true →
    tmCtl s t.val c.val F.FT_TMC_CTL_PIN = pin.val → tmCtl s t.val c.val F.FT_TMC_CTL_EDGE = (if level then 0 else 1) →
    (∀ e : TmCh, e ≠ c → (tmrGet s (8 * t.val + e.val)).on = true → tmCtl s t.val e.val F.FT_TMC_CTL_PIN ≠ pin.val) →
    tmCtl s t.val c.val F.FT_TMC_CTL_CAPEN = 1 → tmCtl s t.val c.val F.FT_TMC_CTL_SRC ≠ 2 →
    (tmrGet s (8 * t.val + c.val)).edges = fld s (R.FT_TMC_INCFG t.val c.val) F.FT_TMC_INCFG_NDIV → fld s R.TB_STAT F.TB_STAT_FSTATE ≠ 0 →
    Runs (.trigEdge t pin level age) s (fun u =>
      let x := tmrGet u (8 * t.val + c.val)
      reg u (R.FT_TMC_CAP t.val c.val) = reg s (R.FT_TMC_CNT t.val c.val) ∧
      x.capNs = wordOf (tNs (stampBack s age).1) ∧ x.capSec = wordOf (tSecLo (stampBack s age).1) ∧ x.edges = 0 ∧
      flag u (R.FT_TMC_EVT t.val c.val) F.FT_TMC_EVT_CAP = true ∧
      (flag s (R.FT_TMC_EVT t.val c.val) F.FT_TMC_EVT_CAP = true → flag u (R.FT_TMC_EVT t.val c.val) F.FT_TMC_EVT_CAPOVR = true) ∧
      RegsBut [R.FT_TMC_CAP t.val c.val, R.FT_TMC_EVT t.val c.val, R.FT_TMC_MISS t.val c.val] s u ∧ Only [.regs, .tmrs, .pins] s u)) ∧
  Runs .debugHalt s (fun u => u.frozen = true ∧ (anyLane s = true → tmCtl s t.val c.val F.FT_TMC_CTL_DBGRUN = 0 → unlinked s t.val c.val →
    tmFrozen u t.val c.val = true) ∧ RegsBut [] s u ∧ Only [.frozen, .pins] s u) ∧
  Runs .debugResume s (fun u => u.frozen = false ∧ RegsBut [] s u ∧ Only [.frozen, .pins] s u)

-- ---------------------------------------------------------------- Sieve

/-- Sieve takes a sample: it counts for its engine, joins the window and is tainted where its copy fails, which counts once (R413, R416); a double-bit
error is counted and restarts the windows (R420, R422). A rule over one sample judges a value of ABOVE: the leaf rises past T1, which counts,
sends the EVENT record and sets the IRQ bit, and stays FALSE otherwise (R430, R432, R435, R436); a tainted window is not judged (R417). -/
def Obligations.SieveSamples : Prop := ∀ (k : CtxNo) (x : SvSample) (rest : List SvItem) (s : State), Quiet s → SieveTakes s k.val x rest →
  (∀ copyOk : Bool,
    Runs (.sieveSample k copyOk false) s (fun t =>
      let c := svGet t k.val
      c.waiting = rest ∧ c.n = (svGet s k.val).n + 1 ∧ c.hist.head? = some { x with taint := x.taint || !copyOk } ∧
      Counted s t (R.SV_ENG_CNT (fld s (R.SV_CX_STAT k.val) F.SV_CX_STAT_ENG)) 1 ∧
      (copyOk = false → x.taint = false → anyLane s = true → Counted s t (R.GLB_CKCNT (if cFen s k.val then 2 else 1)) 1) ∧
      (∀ j, j ≠ k.val → svGet t j = svGet s j) ∧ Only sieveParts s t)) ∧
  (Runs (.sieveSample k true true) s (fun t =>
    Counted s t R.SV_CNT_DBE 1 ∧ flag t R.SV_EVT F.SV_EVT_DBE = true ∧ (svGet t k.val).n = 1 ∧ (svGet t k.val).waiting = rest ∧
    (∀ j, j ≠ k.val → svGet t j = svGet s j) ∧ Only sieveParts s t)) ∧
  (∀ r : Nat, r < 1024 → OneRule s k.val r x →
    (x.taint = false → rState s r = 0 → fld s (R.SVR_CFG r) F.SVR_CFG_DON = 1 → rRes s r = false → rCmp s r = 0 →
      ∀ v : Word, windowVal s k.val r (x :: (svGet s k.val).hist) = some v →
      Runs (.sieveSample k true false) s (fun t =>
        let fires := decide (thr (reg s (R.SVR_T1 r)) < thr v)
        reg t (R.SV_RVAL r) = v ∧ rState t r = (if fires then 2 else 0) ∧ rRes t r = fires ∧
        fld t (R.SVR_STAT r) F.SVR_STAT_DCNT = 0 ∧ flag t (R.SVR_STAT r) F.SVR_STAT_TAINT = false ∧
        Counted s t R.SV_CNT_FIRE (if fires then 1 else 0) ∧
        (fires = true → flag t R.SV_EVT F.SV_EVT_FIRE = true) ∧
        (fires = true → bitOf (rMask s r) 2 = true → bitOf (fld t R.SV_IRQ F.SV_IRQ_PEND) (fld s (R.SVR_ACT r) F.SVR_ACT_IRQSEL) = true) ∧
        Sends s t (if fires && bitOf (rMask s r) 0 then [eventRec s k.val r false (rMask s r % 128) v x] else []))) ∧
    (x.taint = true →
      Runs (.sieveSample k true false) s (fun t => Counted s t R.SV_CNT_TAINT 1 ∧ flag t (R.SVR_STAT r) F.SVR_STAT_TAINT = true ∧
        rState t r = rState s r ∧ fld t (R.SVR_STAT r) F.SVR_STAT_DCNT = fld s (R.SVR_STAT r) F.SVR_STAT_DCNT ∧ rRes t r = rRes s r ∧
        reg t (R.SV_RVAL r) = reg s (R.SV_RVAL r) ∧ Sends s t [])))

/-- A snapshot that has its last sample leaves as consecutive SNAPSHOT records, each of as many samples as fit in 16,384 bytes (R441); a transform leaves
its unit's queue and counts, and every SPEVERY-th gives a SPECTRUM record (R427, R429); a due rule-set change takes effect with the states of
R421 (R446); an engine that fails retires to the spare, which takes its load and its contexts, and a spare that fails retires (R448, R449). -/
def Obligations.SieveUnits : Prop := ∀ (s : State), Quiet s → fhUp s = true →
  (∀ k : CtxNo, svEngineUp s k.val = true → ∀ p, (svGet s k.val).snap = some p → p.want ≤ p.post.length →
    (∀ x ∈ p.pre ++ p.post, x.vals.length = cVals s k.val) →
    Runs (.snapshotComplete k) s (fun t =>
      let per := 16384 / (max 1 (cVals s k.val * fmtBytes (cFmt s k.val)))
      let recs := t.tr.path.drop s.tr.path.length
      Sends s t recs ∧ recs.length = ceilDiv (p.pre.length + p.post.length) per ∧
      recs.all (fun r => r.kind == kSnapshot && r.ctx == k.val && r.q == cEvq s k.val && decide (r.payload.length ≤ 32 + 16384)) = true ∧
      (svGet t k.val).snap = none ∧ flag t (R.SV_CX_STAT k.val) F.SV_CX_STAT_SNBUSY = false ∧
      RegsBut [R.SV_CX_STAT k.val] s t ∧ Only [.regs, .sv, .tr, .pins] s t)) ∧
  (∀ (u : Fin 2) (b : SpBlock) (rest : List SpBlock), spuQueue s u.val = b :: rest → rest.length < 8 → (svGet s b.ctx).bandWins = [] →
    (svGet s b.ctx).held = none → (svGet s b.ctx).waiting.all isSmp = true →
    Runs (.transformComplete u) s (fun t =>
      let every := fld s (R.SV_CX_SPCFG b.ctx) F.SV_CX_SPCFG_SPEVERY
      let no := (svGet s b.ctx).tno + 1
      let recs := t.tr.path.drop s.tr.path.length
      spuQueue t u.val = rest ∧ fld t (R.SV_SPU_STAT u.val) F.SV_SPU_STAT_DEPTH = rest.length ∧ Counted s t (R.SV_SPU_CNT u.val) 1 ∧
      (svGet t b.ctx).tno = no ∧ Sends s t recs ∧ recs.length = (if every ≠ 0 ∧ no % every = 0 then 1 else 0) ∧
      recs.all (fun r => r.kind == kSpectrum && r.ctx == b.ctx && r.q == cQ s b.ctx && r.seq == b.seq && r.ts == b.ts && r.payload.length == 2064) = true ∧
      RegsBut [R.SV_SPU_STAT u.val, R.SV_SPU_CNT u.val] s t ∧ Only [.regs, .sv, .tr, .pins] s t)) ∧
  (∀ (k : CtxNo) (r : Fin 1024) (v : Word), (svGet s k.val).ruleDue = true → (svGet s k.val).ruleSet = some [(R.SVR_T1 r.val, v)] →
    (svGet s k.val).snap = none → (svGet s k.val).held = none →
    Runs (.ruleSetChange k) s (fun t =>
      reg t (R.SVR_T1 r.val) = v ∧ (svGet t k.val).ruleSet = none ∧ (svGet t k.val).n = 0 ∧ (svGet t k.val).hist = [] ∧
      (∀ q ∈ rulesOf s k.val, rState t q = 0 ∧ fld t (R.SVR_STAT q) F.SVR_STAT_DCNT = 0 ∧ fld t (R.SVR_STAT q) F.SVR_STAT_SEQJ = 0 ∧ rRes t q = false) ∧
      (∀ q : Fin 1024, q ≠ r → reg t (R.SVR_T1 q.val) = reg s (R.SVR_T1 q.val)) ∧ Only [.regs, .sv, .pins] s t)) ∧
  (∀ e : Fin 17, e.val < 16 → engState s e.val = 0 → engState s 16 = 1 →
    Runs (.engineRetire e) s (fun t => engState t e.val = 2 ∧ engState t 16 = 0 ∧ fld t (R.SV_ENG_STAT 16) F.SV_ENG_STAT_TOOK = e.val ∧
      reg t (R.SV_ENG_LOAD 16) = reg s (R.SV_ENG_LOAD e.val) ∧ reg t (R.SV_ENG_LOAD e.val) = 0 ∧
      flag t R.SV_STAT F.SV_STAT_SPAREUSED = true ∧ flag t R.SV_EVT F.SV_EVT_RETIRE = true ∧
      (∀ k : CtxNo, flag s (R.SV_CX_STAT k.val) F.SV_CX_STAT_ASSIGNED = true →
        fld t (R.SV_CX_STAT k.val) F.SV_CX_STAT_ENG =
          (if fld s (R.SV_CX_STAT k.val) F.SV_CX_STAT_ENG = e.val then 16 else fld s (R.SV_CX_STAT k.val) F.SV_CX_STAT_ENG)) ∧
      (∀ d : Fin 17, d ≠ e → d.val < 16 → engState t d.val = engState s d.val) ∧ Only [.regs, .pins] s t)) ∧
  (engState s 16 = 1 →
    Runs .spareFailure s (fun t => engState t 16 = 2 ∧ flag t R.SV_EVT F.SV_EVT_RETIRE = true ∧ RegsBut [R.SV_ENG_STAT 16, R.SV_EVT] s t ∧
      Only [.regs, .pins] s t))

/-- A sentinel's poll, with the field side in Sleep (R703, R704): its next one is set, its context's number advances, its slot is free again, and a poll
that hands on no sample, here for want of the bank's supply, adds nothing to the window and counts as BANK_DOWN in FPn_LAST.
The model's readings it rests on: notes/assumptions/40.md. -/
def Obligations.Sentinels : Prop := ∀ (i : Fin 8) (rx : List (List Bool)) (s : State), Quiet s → s.pow.field.st = .sleep →
  flag s (R.SV_SENT_CTL i.val) F.SV_SENT_CTL_EN = true →
  let k := fld s (R.SV_SENT_CTL i.val) F.SV_SENT_CTL_CTX
  let n := cPort s k
  cState s k = stRunning → cBit s k = false → s.tm.aoc ≤ (sentGet s i.val).next → (sentGet s i.val).next < 2 ^ 48 →
  (bankHeld s n = false → ctxAbsent s k = false →
    Runs (.sentinelPoll i rx) s (fun t =>
      slotGet t n 0 = none ∧ fld t (R.CTX_STAT k) F.CTX_STAT_NEXTTN = (fld s (R.CTX_STAT k) F.CTX_STAT_NEXTTN + 1) % 65536 ∧
      (sentGet t i.val).next = (sentGet s i.val).next + (fld s (R.SV_SENT_PER i.val) F.SV_SENT_PER_PER * 32768 + 500) / 1000 ∧
      t.tm.aoc = (sentGet s i.val).next ∧
      ((portGet s n).bankOk = false → (sentGet t i.val).kept = (sentGet s i.val).kept ∧ (sentGet t i.val).win = (sentGet s i.val).win ∧
        fld t (R.FP_LAST n) F.FP_LAST_OUTCOME = 5 ∧ fld t (R.FP_LAST n) F.FP_LAST_SLOT = 0 ∧ t.pow = s.pow))) ∧
  (bankHeld s n = true →
    Runs (.sentinelPoll i rx) s (fun t => (sentGet t i.val).kept = (sentGet s i.val).kept ∧ (sentGet t i.val).win = (sentGet s i.val).win ∧
      fld t (R.CTX_STAT k) F.CTX_STAT_NEXTTN = fld s (R.CTX_STAT k) F.CTX_STAT_NEXTTN ∧ Only (.sv :: clockParts) s t))

-- ---------------------------------------------------------------- Trellis

/-- The oldest record on its way reaches Trellis. In a queue in arrival order with room it stands whole at the write pointer, after a FILL record where it would
pass the ring's end, and counts (R465, R478, R490); in a held queue without room it is discarded and counted (R473); a queue that is off takes
nothing. In a sample-time queue it waits for its release, and one that is late enters with its flag and counts (R482, R484).
The model's readings it rests on: notes/assumptions/62.md. -/
def Obligations.RecordsArrive : Prop := ∀ (r : Rec) (rest : List Rec) (s : State), Quiet s →
  (EntersNext s r rest →
    let size := qLines s r.q
    let wr := qWr s r.q
    let n := recLines r
    (hasRoom s r.q [n] = true →
      Runs .recordArrival s (fun t =>
        let wraps := decide (size < wr + n)
        let off := if wraps then 0 else wr
        let base := qBase s r.q
        t.tr.path = rest ∧
        qmemRead t (base + 16 * off) (16 * n) = recBytes r ∧
        (queueGet t r.q).ents = (queueGet s r.q).ents ++
          (if wraps then [{ off := wr, lines := size - wr, kind := kFill, ctx := 0, ts := 0, key := 0, ovw := none, wrote := s.elapsed }] else []) ++
            [entOf r off none s.elapsed] ∧
        reg t (R.Q_WR r.q) = wordOf (16 * ((off + n) % size)) ∧ Counted s t (R.Q_CNT_REC r.q) 1 ∧
        (wraps = false → QmemBut (base + 16 * off) (16 * n) s t) ∧ OtherQueues r.q s t ∧
        Only ([.regs, .qmem, .tr, .pins] ++ fillParts) s t)) ∧
    (hasRoom s r.q [n] = false → flag s (R.Q_CFG r.q) F.Q_CFG_POLICY = false →
      Runs .recordArrival s (fun t => t.tr.path = rest ∧ Counted s t (R.Q_CNT_DROP r.q) 1 ∧ flag t (R.Q_EVT r.q) F.Q_EVT_DROP = true ∧
        (queueGet t r.q).ents = (queueGet s r.q).ents ∧
        (queueGet t r.q).drops = [{ ctx := r.ctx, count := 1, first := r.ts, last := r.key }] ∧ OtherQueues r.q s t ∧
        RegsBut [R.Q_CNT_DROP r.q, R.Q_EVT r.q] s t ∧ Only [.regs, .tr, .pins] s t))) ∧
  (fhUp s = true → s.tr.path = r :: rest → qEn s r.q = false → flag s (R.Q_ORD r.q) F.Q_ORD_MODE = false →
    Runs .recordArrival s (fun t => t.tr = { s.tr with path := rest } ∧ RegsBut [] s t ∧ Only [.tr, .pins] s t)) ∧
  (fhUp s = true → s.tr.path = r :: rest → flag s (R.Q_ORD r.q) F.Q_ORD_MODE = true →
    (keyBefore r s = false → fieldNs s < releaseAt s r → (queueGet s r.q).mark ≤ r.key → heldLines s + recLines r ≤ 65536 →
      Runs .recordArrival s (fun t => t.tr = { s.tr with path := rest, held := s.tr.held ++ [r] } ∧ RegsBut [] s t ∧ Only [.tr, .pins] s t)) ∧
    (keyBefore r s = true →
      Runs .recordArrival s (fun t => t.tr.path = rest ∧ t.tr.held = s.tr.held ∧ Counted s t (R.Q_CNT_LORD r.q) 1 ∧
        flag t (R.Q_EVT r.q) F.Q_EVT_LORD = true ∧ (queueGet t r.q).mark = (queueGet s r.q).mark)) ∧
    (keyBefore r s = false → r.key < (queueGet s r.q).mark →
      Runs .recordArrival s (fun t => t.tr.path = rest ∧ t.tr.held = s.tr.held ∧ Counted s t (R.Q_CNT_LORD r.q) 1 ∧
        flag t (R.Q_EVT r.q) F.Q_EVT_LORD = true ∧ (queueGet t r.q).mark = (queueGet s r.q).mark)))

/-- The next release of a sample-time queue: the record with the earliest release time leaves the reorder store, device time has reached that time, and
the mark is not behind its key (R482). A stream frame of a queue that port e subscribes to and streams takes the waiting record whole: it
leaves with the queue's frame number, and the delivery pointer moves past the record (R539, R554, R555).
The model's readings it rests on: notes/assumptions/29.md. -/
def Obligations.ReleasesAndStreams : Prop := ∀ (q : QNo) (s : State), Quiet s →
  (∀ (r : Rec) (mem : MemErr), earliest s (s.tr.held.filter (fun x => x.q == q.val)) = some r → fhUp s = true → fieldNs s < releaseAt s r →
    fState s ≠ 0 →
    Runs (.sampleTimeRelease ⟨q, mem⟩) s (fun t => r ∉ t.tr.held ∧ r.key ≤ (queueGet t q.val).mark ∧ releaseAt s r ≤ fieldNs t ∧
      Counted s t R.TR_CNT_SBE mem.sbe ∧ Counted s t R.TR_CNT_DBE mem.dbe.length ∧
      (∀ x ∈ s.tr.held, x.q ≠ q.val → x ∈ t.tr.held) ∧ OtherQueues q.val s t ∧ Only (clockParts ++ [.qmem, .tr] ++ fillParts) s t)) ∧
  (∀ (e : EthNo) (x : Ent) (mem : MemErr), fromPtr (dlvOf s q.val e.val) (queueGet s q.val).ents = [x] → mayStream s e.val = true → egressOpen s = true →
    streamTurn s e.val = some q.val → (partGet s e.val).fwd = [] → x.kind ≠ kFill →
    1 + 4 * x.lines ≤ (fld s (R.P_ETH_MTU e.val) F.P_ETH_MTU_MTU - 24) / 4 →
    Runs (.streamFrameSend e ⟨q, mem⟩) s (fun t =>
      let no := tabGet (fun _ => 0) (partGet s e.val).sseq q.val
      let corrupt := (ckqBad mem).contains 0 || decide (0 < (partGet s e.val).badRecs)
      t.sent = s.sent ++ [.stream e q.val (etherHead s e.val (etherAddr s (R.P_ETH_DSTLO e.val) (R.P_ETH_DSTHI e.val)) ++
        streamBytes (masterNs s + fld s (R.TB_PTP_LAT e.val) F.TB_PTP_LAT_TX) q.val 0 1 no (16 * x.off)
          [wordOf x.lines] (wordsBytes (recWords s q.val corrupt x)))] ∧
      (partGet t e.val).lastQ = q.val ∧
      Counted s t R.TR_CNT_SBE mem.sbe ∧ Counted s t R.TR_CNT_DBE mem.dbe.length ∧
      reg t (R.TR_SUB_DLV q.val e.val) = wordOf (pastEnt (qLines s q.val) x) ∧
      tabGet (fun _ => 0) (partGet t e.val).sseq q.val = (no + 1) % 65536 ∧
      Counted s t (R.P_ETH_CNT e.val 1) 1 ∧ (∀ p : Partner, p.val ≠ e.val → partGet t p.val = partGet s p.val) ∧
      RegsBut ([R.TR_SUB_DLV q.val e.val, R.P_ETH_CNT e.val 1] ++ memRegs) s t ∧ Only [.regs, .part, .sent, .cl, .pins] s t))

-- ---------------------------------------------------------------- requests: reads and writes

/-- READ answers with what the registers show, ascending, words past the block zero under OVERRUN (R53, R56, R536); here of words whose read has no effect of
its own. Nothing else happens, but that the errors which a read of queue memory meets count (R49, R503). -/
def Obligations.Reads : Prop := ∀ (h : Hdr) (a : BitVec 32) (n : Fin 1025) (s : State), a.toNat % 4 = 0 → 0 < n.val →
  (blockAt a.toNat).kind ≠ .win →
  let T := taken opREAD h a [wordOf n.val] s
  (∀ b ∈ wordsIn a.toNat n.val, readWord b T = (view T b, T)) → Reaches T a.toNat →
  Asks (if overruns a.toNat n.val then stOVERRUN else stOK)
    ((wordsIn a.toNat n.val).map (view T) ++ List.replicate (n.val - (wordsIn a.toNat n.val).length) 0)
    (.read h a [wordOf n.val]) opREAD h a [wordOf n.val] s (fun t =>
      ((blockAt a.toNat).kind ≠ .qmem → ChangesOnly h [] [] s t) ∧
      ((blockAt a.toNat).kind = .qmem → Counted s t R.TR_CNT_SBE h.mem.sbe ∧ Counted s t R.TR_CNT_DBE h.mem.dbe.length) ∧
      ChangesOnly h memRegs [.cl] s t ∧
      (0x1000000 ≤ a.toNat → a.toNat < 0x1800000 → wordBytes (view T a.toNat) = qmemRead s (a.toNat - 0x1000000) 4))

/-- The registers whose read copies or latches a companion: the seconds that go with the nanoseconds of FPn_TSNS (R158), of
FTt_FLT_SLOTs_INSNS (R294), TB_NOWNS, TB_PPSNS and TB_AOCLO (R364), TB_PLSi_LASTNS (R366), FTt_TM_SNAPNS (R407), a captured
value (R383), Qq_MARKNS (R506), PWR_LWNS (R711), and the high word of SEC_CTRp_LO (R576). -/
def Obligations.LatchedReads : Prop := ∀ (h : Hdr) (s : State),
  (∀ n : PortNo, Latches (.tsnsRead h n) h (R.FP_TSNS n.val) s [(R.FP_TSSEC n.val, (portGet s n.val).lastSec)]) ∧
  (∀ (t : TileNo) (f : FSlot), Latches (.insnsRead h t f) h (R.FT_SLOT_INSNS t.val f.val) s
    [(R.FT_SLOT_INSSEC t.val f.val, (filtGet s (slotIx t.val f.val)).lastSec)]) ∧
  Latches (.tbNownsRead h) h R.TB_NOWNS s
    [(R.TB_NOWFRAC, wordOf (s.tm.master % nsU / 2 ^ 32)), (R.TB_NOWSECLO, wordOf (masterNs s / 1000000000)),
     (R.TB_NOWSECHI, wordOf (masterNs s / 1000000000 / 2 ^ 32))] ∧
  Latches (.tbPpsnsRead h) h R.TB_PPSNS s [(R.TB_PPSSEC, s.tm.ppsSec)] ∧
  Latches (.tbAocloRead h) h R.TB_AOCLO s [(R.TB_AOCHI, wordOf (s.tm.aoc / 2 ^ 32))] ∧
  (∀ i : PulseNo, Latches (.lastnsRead h i) h (R.TB_PLS_LASTNS i.val) s [(R.TB_PLS_LASTSEC i.val, (pulseGet s i.val).lastSec)]) ∧
  (∀ t : TileNo, Latches (.snapnsRead h t) h (R.FT_TM_SNAPNS t.val) s [(R.FT_TM_SNAPSEC t.val, tabGet (fun _ => 0) s.snapSec t.val)]) ∧
  (∀ (t : TileNo) (c : TmCh), unlinked s t.val c.val →
    Latches (.capRead h t c) h (R.FT_TMC_CAP t.val c.val) s
      [(R.FT_TMC_CAPNS t.val c.val, (tmrGet s (8 * t.val + c.val)).capNs), (R.FT_TMC_CAPSEC t.val c.val, (tmrGet s (8 * t.val + c.val)).capSec)]) ∧
  (∀ q : QNo, Latches (.marknsRead h q) h (R.Q_MARKNS q.val) s [(R.Q_MARKSEC q.val, wordOf ((queueGet s q.val).mark / 1000000000))]) ∧
  (∀ p : Partner, p ≠ h.port → Latches (.secCtrRead h p) h (R.SEC_CTR_LO p.val) s [(R.SEC_CTR_HI p.val, wordOf ((partGet s p.val).lastCtr / 2 ^ 32))]) ∧
  Latches (.pwrLwnsRead h) h R.PWR_LWNS s [(R.PWR_LWSEC, s.pow.lwSec)]

/-- WRITE (R14, R17, R537): a critical write of a template word takes the value (R208); bits written 1 of an event register of a
port are cleared (R157); a read-only register and a reserved address keep what they show, zero for the address, and the write is answered OK
(R18); a WRITE of any number of words to queue memory or the flash view is DENIED and nothing is written (R54). -/
def Obligations.Writes : Prop := ∀ (h : Hdr) (v : Word) (s : State),
  (∀ (j : Fin 1024) (i : Fin 32), isCrit h = true →
    Wrote (.write h (wordOf (R.TPL_WORD j.val i.val)) [v]) h (R.TPL_WORD j.val i.val) v s [R.TPL_WORD j.val i.val] [] (fun t =>
      reg t (R.TPL_WORD j.val i.val) = v)) ∧
  (∀ n : PortNo, Wrote (.write h (wordOf (R.FP_EVT n.val)) [v]) h (R.FP_EVT n.val) v s [R.FP_EVT n.val] [] (fun t =>
    reg t (R.FP_EVT n.val) = reg s (R.FP_EVT n.val) &&& ~~~(v &&& wordOf (descOf (R.FP_EVT n.val)).w1c))) ∧
  Wrote (.write h (wordOf R.GLB_ID) [v]) h R.GLB_ID v s [] [] (fun _ => True) ∧
  (∀ a : BitVec 32, a.toNat % 4 = 0 → (∃ r ∈ reservedRanges, r.1 ≤ a.toNat ∧ a.toNat < r.2) →
    view s a.toNat = 0 ∧ Wrote (.write h (wordOf a.toNat) [v]) h a.toNat v s [] [] (fun t => view t a.toNat = 0)) ∧
  (∀ (a : BitVec 32) (ws : List Word), a.toNat % 4 = 0 → ws ≠ [] →
    (0x1000000 ≤ a.toNat ∧ a.toNat < 0x1800000) ∨ (0x80000000 ≤ a.toNat ∧ a.toNat < 0x88000000) →
    inLoadWait s = false → Reaches (taken opWRITE h a ws s) a.toNat →
    Asks stDENIED [] (.write h a ws) opWRITE h a ws s (ChangesOnly h [R.P_CNT h.port.val 5, R.P_EVT h.port.val] [] s))

/-- A WRITE one of whose words is refused writes nothing: the first refusal in word order is the answer (R538).
The model's readings it rests on: notes/assumptions/7.md. -/
def Obligations.WriteRefused : Prop := ∀ (h : Hdr) (a : BitVec 32) (ws : List Word) (s : State), a.toNat % 4 = 0 → ws ≠ [] →
  (blockAt a.toNat).kind ≠ .win → (blockAt a.toNat).kind ≠ .qmem → (blockAt a.toNat).kind ≠ .flash →
  let T := taken opWRITE h a ws s
  inLoadWait T = false →
  (heldByOther T h.port.val && writeCrit T h.port.val (rowCmd opWRITE h a ws)) = false → Reaches T a.toNat →
  ∀ st : Nat, firstRefusal (some h.port.val) (isCrit h) (fun _ => false) (wordsOf a.toNat ws) T = some st → st ≠ stAUTH_FAIL → st ≠ stREPLAY →
    (st ≠ stDENIED → Asks st [] (.write h a ws) opWRITE h a ws s (ChangesOnly h [] [] s)) ∧
    (st = stDENIED → Asks st [] (.write h a ws) opWRITE h a ws s (ChangesOnly h [R.P_CNT h.port.val 5, R.P_EVT h.port.val] [] s))

/-- The READ and the WRITE of a register window join the queue of their port and are answered when the wire has carried them (R161 to
R165, R170, R173, R174). -/
def Obligations.WindowCommands : Prop := ∀ (h : Hdr) (n : PortNo) (off : Nat) (s : State), off % 4 = 0 → off < 0x01000000 →
  let a := winBase + n.val * winSize + off
  winDown s n.val = false → winSelBad s n.val = false → (portGet s n.val).winQ.length < 4 →
  (∀ c : Fin 257, 0 < c.val → off + 4 * c.val ≤ 0x01000000 → Reaches (taken opREAD h (wordOf a) [wordOf c.val] s) a →
    Waits (.windowRead h (wordOf a) [wordOf c.val]) opREAD h (wordOf a) [wordOf c.val] s (fun t =>
      (portGet t n.val).winQ = (portGet s n.val).winQ ++
        [{ port := h.port, cmd := rowCmd opREAD h (wordOf a) [wordOf c.val], write := false, addr := off, bytes := [], want := 4 * c.val, got := [],
           since := s.elapsed }] ∧
      OtherPorts n.val s t ∧ ChangesOnly h [] [.ports] s t)) ∧
  (∀ ws : List Word, isCrit h = true → ws ≠ [] → ws.length ≤ 64 →
    off / 2 ^ fld s (R.CW_CFG n.val) F.CW_CFG_PAGEL = (off + 4 * ws.length - 1) / 2 ^ fld s (R.CW_CFG n.val) F.CW_CFG_PAGEL →
    fld s (R.CW_CFG n.val) F.CW_CFG_PAGEL ≤ 8 → inLoadWait (taken opWRITE h (wordOf a) ws s) = false →
    heldByOther s h.port.val = false → Reaches (taken opWRITE h (wordOf a) ws s) a →
    Waits (.windowWrite h (wordOf a) ws) opWRITE h (wordOf a) ws s (fun t =>
      (portGet t n.val).winQ = (portGet s n.val).winQ ++
        [{ port := h.port, cmd := rowCmd opWRITE h (wordOf a) ws, write := true, addr := off, bytes := wordsBytes ws, want := 0, got := [],
           since := s.elapsed }] ∧
      OtherPorts n.val s t ∧ ChangesOnly h [] [.ports] s t))

-- ---------------------------------------------------------------- requests: queues

/-- POP and PEEK of a queue with one waiting record that fits answer with its offset, its descriptor and its words; POP moves the delivery pointer past it,
PEEK reads from the acknowledge pointer and moves nothing (R539 to R541); a record that fails CK-Q carries CORRUPT, and its
error counts (R49, R51, R503). ACK at the delivery pointer moves the acknowledge pointer there
(R542); one that leads to no record of the stretch is refused and moves nothing (R542, R543). -/
def Obligations.Deliveries : Prop := ∀ (h : Hdr) (q : QNo) (s : State), queueOk s q.val h.port.val = true → streamsTo s q.val h.port.val = false →
  let p := h.port.val
  let words (x : Ent) : List Word := [wordOf (16 * x.off), 1, wordOf x.lines] ++ recWords s q.val ((ckqBad h.mem).contains 0) x
  let errors (t : State) : Prop := Counted s t R.TR_CNT_SBE h.mem.sbe ∧ Counted s t R.TR_CNT_DBE h.mem.dbe.length ∧
    (h.mem = {} → RegsBut (R.P_CNT p 0 :: R.TR_SUB_DLV q.val p :: []) s t)
  (∀ (n : Nat), 4115 ≤ n → n ≤ 16384 →
    (∀ x : Ent, fromPtr (dlvOf s q.val p) (queueGet s q.val).ents = [x] → x.kind ≠ kFill → 3 + 4 * x.lines ≤ n →
      Reaches (taken opPOP h (wordOf q.val) [wordOf n] s) trellisAddr →
      Asks stOK (words x) (.pop h (wordOf q.val) [wordOf n]) opPOP h (wordOf q.val) [wordOf n] s (fun t =>
        reg t (R.TR_SUB_DLV q.val p) = wordOf (pastEnt (qLines s q.val) x) ∧ errors t ∧
        ChangesOnly h (R.TR_SUB_DLV q.val p :: memRegs) [.cl] s t)) ∧
    (∀ x : Ent, fromPtr (ackOf s q.val p) (queueGet s q.val).ents = [x] → x.kind ≠ kFill → 3 + 4 * x.lines ≤ n →
      Reaches (taken opPEEK h (wordOf q.val) [wordOf n] s) trellisAddr →
      Asks stOK (words x) (.peek h (wordOf q.val) [wordOf n]) opPEEK h (wordOf q.val) [wordOf n] s (fun t =>
        errors t ∧ ChangesOnly h memRegs [.cl] s t))) ∧
  (let offs := dlvOf s q.val p
   offs < 2 ^ 23 → (∀ e ∈ (queueGet s q.val).ents, 16 * e.off = offs → e.kind ≠ kFill) →
   Reaches (taken opACK h (wordOf q.val) [wordOf offs] s) trellisAddr →
   Asks stOK [] (.ack h (wordOf q.val) [wordOf offs]) opACK h (wordOf q.val) [wordOf offs] s (fun t =>
     reg t (R.TR_SUB_ACK q.val p) = wordOf offs ∧ (queueGet t q.val).ents <:+ (queueGet s q.val).ents ∧
     OtherQueues q.val s t ∧ ChangesOnly h (R.TR_SUB_ACK q.val p :: fillRegs q.val) [.tr, .pow] s t)) ∧
  (∀ offs : Nat, ackTarget s q.val p offs = none → offs < 2 ^ 23 → Reaches (taken opACK h (wordOf q.val) [wordOf offs] s) trellisAddr →
    Asks stRANGE [] (.ack h (wordOf q.val) [wordOf offs]) opACK h (wordOf q.val) [wordOf offs] s (ChangesOnly h [] [] s))

/-- SUBSCRIBE: ADD starts a port at the write pointer with an EPOCH due (R469, R544), REMOVE ends its subscription and its stream, REWIND goes
back to the acknowledge pointer, STREAMON and STREAMOFF switch an Ethernet port's stream (R544). While that is on, POP and PEEK of the queue are refused with CONFLICT (R546). -/
def Obligations.Subscriptions : Prop := ∀ (h : Hdr) (q : QNo) (s : State), NoGraft s →
  let p := h.port.val
  let at_ (act : Nat) : Prop := Reaches (taken opSUBSCRIBE h (wordOf q.val) (actPayload 0 act []) s) trellisAddr
  let run (act : Nat) (c : Instr) (P : State → Prop) : Prop :=
    at_ act → Asks stOK [] c opSUBSCRIBE h (wordOf q.val) (actPayload 0 act []) s P
  (qEn s q.val = true → qSub s q.val p = false → run 1 (.subscribeAdd h (wordOf q.val) 0 []) (fun t =>
    qSub t q.val p = true ∧ reg t (R.TR_SUB_DLV q.val p) = reg s (R.Q_WR q.val) ∧ reg t (R.TR_SUB_ACK q.val p) = reg s (R.Q_WR q.val) ∧
    queueGet t q.val = { queueGet s q.val with epochDue := some 4 } ∧ OtherQueues q.val s t ∧
    (∀ r : Partner, r.val ≠ p → qSub t q.val r.val = qSub s q.val r.val) ∧
    ChangesOnly h [R.Q_CFG q.val, R.TR_SUB_DLV q.val p, R.TR_SUB_ACK q.val p] [.tr] s t)) ∧
  (queueOk s q.val p = true → streamsTo s q.val p = true → ∀ n : Nat, 4115 ≤ n → n ≤ 16384 →
    (Reaches (taken opPOP h (wordOf q.val) [wordOf n] s) trellisAddr →
      Asks stCONFLICT [] (.pop h (wordOf q.val) [wordOf n]) opPOP h (wordOf q.val) [wordOf n] s (ChangesOnly h [] [] s)) ∧
    (Reaches (taken opPEEK h (wordOf q.val) [wordOf n] s) trellisAddr →
      Asks stCONFLICT [] (.peek h (wordOf q.val) [wordOf n]) opPEEK h (wordOf q.val) [wordOf n] s (ChangesOnly h [] [] s))) ∧
  (qSub s q.val p = true →
    run 2 (.subscribeRemove h (wordOf q.val) 0 []) (fun t =>
      qSub t q.val p = false ∧ q.val ∉ (partGet t p).streams ∧ OtherQueues q.val s t ∧
      (∀ r : Partner, r.val ≠ p → qSub t q.val r.val = qSub s q.val r.val) ∧
      ChangesOnly h (R.Q_CFG q.val :: fillRegs q.val) [.tr, .pow] s t) ∧
    run 3 (.rewind h (wordOf q.val) 0 []) (fun t =>
      reg t (R.TR_SUB_DLV q.val p) = reg s (R.TR_SUB_ACK q.val p) ∧ ChangesOnly h [R.TR_SUB_DLV q.val p] [] s t) ∧
    (p < 2 → noDest s p = false → run 4 (.streamon h (wordOf q.val) 0 []) (fun t =>
      (partGet t p).streams = (if streamsTo s q.val p then (partGet s p).streams else (partGet s p).streams ++ [q.val]) ∧
      ChangesOnly h [] [] s t)) ∧
    run 5 (.streamoff h (wordOf q.val) 0 []) (fun t =>
      (partGet t p).streams = (partGet s p).streams.filter (· != q.val) ∧ ChangesOnly h [] [] s t))

-- ---------------------------------------------------------------- requests: contexts

/-- CTX (R197 to R205): ADD stores an entry, which is STOPPED, with its counts zero, and answers the index it chose where none was named; CHANGE replaces the words
of a stopped context; START runs it in the calm profile; REMOVE frees it. On a RUNNING context CHANGE, REMOVE and STOP are ACCEPTED and
wait for its boundary; the filter slots of a CHANGE are bound from the commit (R245). Each passes the checks of R199.
The model's readings it rests on: notes/assumptions/46.md. -/
def Obligations.ContextCommands : Prop := ∀ (h : Hdr) (k : CtxNo) (s : State), NoGraft s →
  let pays (idx : Word) (act : Nat) (ws : List Word) : Prop :=
    Reaches (taken opCTX h idx (actPayload 0 act ws) s) 0x210000 ∧ ctxCheck (taken opCTX h idx (actPayload 0 act ws) s) idx.toNat act ws false = .ok k.val
  let run (st : Nat) (pay : List Word) (idx : Word) (act : Nat) (ws : List Word) (c : Instr) (P : State → Prop) : Prop :=
    pays idx act ws → Asks st pay c opCTX h idx (actPayload 0 act ws) s P
  let entry (t : State) (ws : List Word) : Prop := ∀ i : Fin 12,
    reg t ((entryAddrs k.val).getD i.val 0) = ws.getD i.val 0 &&& wordOf (namedBits ((entryAddrs k.val).getD i.val 0))
  let i := wordOf k.val
  (∀ ws : List Word, bitOf (ws.getD 0 0).toNat F.CTX_CTL_AUTOSTART.lo = false →
    (run stOK [] i 1 ws (.ctxAdd h i 0 ws) (fun t => cState t k.val = stStopped ∧ entry t ws ∧
      reg t (R.CTX_CNT k.val) = 0 ∧ reg t (R.CTX_POLLS k.val) = 0 ∧ OtherCtxs k.val s t)) ∧
    (run stOK [i] 0xFFFFFFFF 1 ws (.ctxAdd h 0xFFFFFFFF 0 ws) (fun t => cState t k.val = stStopped ∧ entry t ws ∧ OtherCtxs k.val s t ∧
      (∀ j : CtxNo, j < k → cState s j.val ≠ stFree)))) ∧
  (cState s k.val = stStopped →
    (∀ ws : List Word, run stOK [] i 2 ws (.ctxChange h i 0 ws) (fun t => cState t k.val = stStopped ∧ entry t ws ∧ OtherCtxs k.val s t)) ∧
    (run stOK [] i 4 [] (.ctxStart h i 0 []) (fun t => cState t k.val = stRunning ∧ cAlert t k.val = false ∧ OtherCtxs k.val s t)) ∧
    (inflight s k.val = false → run stOK [] i 3 [] (.ctxRemove h i 0 []) (fun t => cState t k.val = stFree ∧ OtherCtxs k.val s t))) ∧
  (cState s k.val = stRunning → (ctxGet s k.val).acts = [] →
    let waits (t : State) (a : CtxAct) : Prop := cState t k.val = stRunning ∧ (ctxGet t k.val).acts = [a] ∧ OtherCtxs k.val s t ∧ ChangesOnly h [] [.ctxs] s t
    (∀ ws : List Word, run stACCEPTED [] i 2 ws (.ctxChange h i 0 ws) (fun t => cState t k.val = stRunning ∧ (ctxGet t k.val).acts = [.change ws] ∧
      (∀ p ∈ ctxSlots (withEntry k.val ws s) k.val, slBound t p.1 p.2 = true) ∧ OtherCtxs k.val s t ∧
      ChangesOnly h bindRegs [.ctxs, .filt, .tiles] s t)) ∧
    run stACCEPTED [] i 3 [] (.ctxRemove h i 0 []) (fun t => waits t .remove) ∧
    run stACCEPTED [] i 5 [] (.ctxStop h i 0 []) (fun t => waits t .stop))

-- ---------------------------------------------------------------- requests: Graft

/-- GRAFT (R713, R717 to R731, R739). BEGIN opens a Graft under the next number; STAGE keeps an item that passes its checks; COMMIT of a calibration change
gives the context its new words at once and ends the Graft; ABORT ends it with nothing applied; FLASH writes the inactive slot's bytes, and no other sector of
the flash changes.
The model's readings it rests on: notes/assumptions/18.md, notes/assumptions/34.md. -/
def Obligations.Grafts : Prop := ∀ (h : Hdr) (s : State), s.boot.handover = none →
  let run (pay : List Word) (act : Nat) (ws : List Word) (c : Instr) (P : State → Prop) : Prop :=
    Asks stOK pay c opGRAFT h 0 (actPayload 0 act ws) s P
  let at_ (act : Nat) (ws : List Word) (a : Nat) : Prop := Reaches (taken opGRAFT h 0 (actPayload 0 act ws) s) a
  (s.graft = none → ∀ tmo : Fin 65536, 0 < tmo.val →
    let old := fld s R.GLB_GRF_STAT F.GLB_GRF_STAT_GID
    let gid := if old = 0xFFFF then 1 else old + 1
    run [wordOf gid] 1 [wordOf tmo.val] (.graftBegin h 0 0 [wordOf tmo.val]) (fun t =>
      t.graft = some { gid := gid, holder := h.port, tmo := tmo.val, since := s.elapsed, items := [] } ∧
      fld t R.GLB_GRF_STAT F.GLB_GRF_STAT_GID = gid ∧ fld t R.GLB_GRF_STAT F.GLB_GRF_STAT_HOLDER = 2 + h.port.val ∧
      fld t R.GLB_GRF_STAT F.GLB_GRF_STAT_STATE = 1 ∧ ChangesOnly h [R.GLB_GRF_STAT] [.graft, .boot] s t)) ∧
  (∀ g, s.graft = some g → g.holder = h.port → g.gid < 65536 →
    (∀ t : TileNo, g.items = [] → at_ 2 [wordOf g.gid, wordOf (t.val * 256 + giTILE)] 0x200000 →
      run [] 2 [wordOf g.gid, wordOf (t.val * 256 + giTILE)] (.graftStage h 0 0 [wordOf g.gid, wordOf (t.val * 256 + giTILE)]) (fun u =>
        u.graft = some { g with items := [{ kind := giTILE, words := [wordOf t.val] }], since := s.elapsed } ∧
        fld u R.GLB_GRF_ITEMS F.GLB_GRF_ITEMS_STAGED = 1 ∧ ChangesOnly h [R.GLB_GRF_ITEMS] [.graft] s u)) ∧
    (∀ (k : CtxNo) (x y : Word), g.items = [{ kind := giCAL, words := [wordOf k.val, x, y] }] → cState s k.val ≠ stFree → s.waits = [] →
      at_ 3 [wordOf g.gid] 0x200000 →
      run [] 3 [wordOf g.gid] (.graftCommit h 0 0 [wordOf g.gid]) (fun t =>
        reg t (R.CTX_GAIN k.val) = x ∧ reg t (R.CTX_OFFS k.val) = y ∧ t.graft = none ∧ fld t R.GLB_GRF_STAT F.GLB_GRF_STAT_STATE = 0 ∧
        flag t R.GLB_GRF_EVT F.GLB_GRF_EVT_COMMIT = true ∧ fld t R.GLB_GRF_ITEMS F.GLB_GRF_ITEMS_PEND = 0 ∧ OtherCtxs k.val s t ∧
        ChangesOnly h (graftRegs ++ [R.CTX_GAIN k.val, R.CTX_OFFS k.val]) [.graft, .tr] s t)) ∧
    run [] 4 [wordOf g.gid] (.graftAbort h 0 0 [wordOf g.gid]) (fun t =>
      t.graft = none ∧ fld t R.GLB_GRF_STAT F.GLB_GRF_STAT_STATE = 0 ∧ reg t R.GLB_GRF_LAST = wordOf (g.gid * 2 ^ 16 + 2 * 2 ^ 4) ∧
      (∀ k : CtxNo, cState s k.val ≠ stReserved → cState t k.val = cState s k.val) ∧ Only (answerParts ++ [.graft]) s t) ∧
    (∀ (off : Nat) (ws : List Word), ws ≠ [] → ws.length ≤ 1021 → slotExists s true = true → off % 4 = 0 → g.flashEnd ≤ off →
      off + 4 * ws.length ≤ slotAvail s (idleSlot s) → s.nv.trial = false → g.items.any (fun it => it.kind == giIMAGE) = false →
      run [] 5 (wordOf g.gid :: wordOf off :: ws) (.graftFlash h 0 0 (wordOf g.gid :: wordOf off :: ws)) (fun t =>
        let lo := slotBase (idleSlot s) + off
        flashBytesAt t lo (4 * ws.length) = wordsBytes ws ∧
        (∀ a : Nat, a / s.boot.flashSector < lo / s.boot.flashSector ∨ (lo + 4 * ws.length - 1) / s.boot.flashSector < a / s.boot.flashSector →
          flashByte t a = flashByte s a) ∧
        t.graft = some { g with flashEnd := off + 4 * ws.length, since := s.elapsed } ∧ ChangesOnly h [] [.graft, .boot] s t)))

/-- What happens to a Graft without its holder: the firmware hand-over ends and the COMMIT is answered, INTERNAL where the copy fails, and the firmware
changes only where it matches (R733); a waiting item's boundary comes, and DONE is set as the last one ends (R203, R726); TMO passes and the
Graft ends, unless a COMMIT comes in the same cycle (R716).
The model's readings it rests on: notes/assumptions/34.md. -/
def Obligations.GraftEvents : Prop := ∀ (s : State), s.stalled = [] →
  (∀ (p : Partner) (c : Cmd) (st : Nat) (copyOk : Bool), s.waits = [] → s.boot.handover = some (p.val, c, st) →
    (partGet s p.val).outst.contains c = true → (st = stOK ∨ st = stACCEPTED) → s.graft.isSome = true →
    Runs (.firmwareHandover copyOk) s (fun t =>
      Answered s t p.val c (if copyOk then st else stINTERNAL) [] ∧ t.boot.handover = none ∧ t.graft = none ∧
      t.boot.firmware = (if copyOk then activeFirmware s else s.boot.firmware) ∧ fld t R.GLB_GRF_STAT F.GLB_GRF_STAT_STATE = 0 ∧
      RegsBut graftRegs s t ∧ Only (answerParts ++ [.boot, .graft]) s t)) ∧
  (∀ k : CtxNo, s.waits = [{ acts := [(k.val, .stop)], rules := [] }] → (ctxGet s k.val).acts = [.stop] → cState s k.val = stRunning →
    inflight s k.val = false → boundaryNow s k.val → fhUp s = true →
    Runs (.pendingItem 0) s (fun t => cState t k.val = stStopped ∧ (ctxGet t k.val).acts = [] ∧ t.waits = [] ∧
      fld t R.GLB_GRF_ITEMS F.GLB_GRF_ITEMS_PEND = 0 ∧ flag t R.GLB_GRF_EVT F.GLB_GRF_EVT_DONE = true ∧ OtherCtxs k.val s t)) ∧
  (∀ g, s.graft = some g → s.waits = [] → s.boot.handover = none → g.since + g.tmo * 1000000 ≤ s.elapsed →
    Runs (.graftTmo false) s (fun t => t.graft = none ∧ reg t R.GLB_GRF_LAST = wordOf (g.gid * 2 ^ 16 + stTIMEOUT * 2 ^ 8 + 3 * 2 ^ 4) ∧
      flag t R.GLB_GRF_EVT F.GLB_GRF_EVT_TMO = true ∧ (∀ k : CtxNo, cState s k.val ≠ stReserved → cState t k.val = cState s k.val) ∧
      Only [.regs, .graft, .pins] s t) ∧
    Runs (.graftTmo true) s (fun t => t.graft = s.graft ∧ flag t R.GLB_GRF_EVT F.GLB_GRF_EVT_RACE = true ∧ Counted s t R.GLB_RACECNT 1 ∧
      RegsBut [R.GLB_GRF_EVT, R.GLB_RACECNT] s t ∧ Only [.regs, .pins] s t))

-- ---------------------------------------------------------------- requests: power, reset, time, keys, status

/-- POWER: a request for a sleep state starts an entry at AP0 and is ACCEPTED, one that changes nothing is answered OK; both with the states of
the sides as they stood (R676 to R679). RESET: a coded request within the map waits for its 20 µs after OK; a wider level is DENIED and another
coding is RANGE (R636, R637). -/
def Obligations.PowerAndReset : Prop := ∀ (h : Hdr) (s : State),
  (let run (st : Nat) (w : Nat) (P : State → Prop) : Prop :=
     Asks st [powerWordNow s] (.power h 0 [wordOf w]) opPOWER h 0 [wordOf w] s P
   s.pow.field.st = .run → s.pow.cmdSleep = [] →
   (fieldAway s = false →
     run stACCEPTED 0xF2 (fun t => t.pow.field = { s.pow.field with st := .entering, target := .sleep, ap := 0, qret := false, apAt := s.elapsed } ∧
       t.pow.host = s.pow.host ∧ ChangesOnly h [] [.pow] s t) ∧
     (undelivered s = false → run stACCEPTED 0xF4 (fun t =>
       t.pow.field = { s.pow.field with st := .entering, target := .off, ap := 0, qret := false, apAt := s.elapsed } ∧ t.pow.host = s.pow.host ∧ ChangesOnly h [] [.pow] s t)) ∧
     run stACCEPTED 0x1F3 (fun t => t.pow.field = { s.pow.field with st := .entering, target := .deep, ap := 0, qret := true, apAt := s.elapsed } ∧
       t.pow.host = s.pow.host ∧ ChangesOnly h [] [.pow] s t)) ∧
   run stACCEPTED 0x2F (fun t => t.pow = { s.pow with host := { s.pow.host with st := .entering, target := .sleep, ap := 0, qret := false, apAt := s.elapsed } } ∧
     ChangesOnly h [] [.pow] s t) ∧
   run stOK 0xFF (fun t => t.pow = s.pow ∧ ChangesOnly h [] [] s t)) ∧
  (∀ w : Word,
    (∀ r, resetReach w = some r → srcLevel s 24 ≤ rsLevel w → (∀ e : Fin 17, r = .engine e → engState s e.val ≠ 2) →
      Asks stOK [] (.reset h 0 [w]) opRESET h 0 [w] s (fun t => t.boot = { s.boot with resets := s.boot.resets ++ [{ port := h.port.val, tag := h.tag, word := w }] } ∧ ChangesOnly h [] [.boot] s t)) ∧
    ((resetReach w).isSome = true → rsLevel w < srcLevel s 24 →
      Asks stDENIED [] (.reset h 0 [w]) opRESET h 0 [w] s (ChangesOnly h [R.P_CNT h.port.val 5, R.P_EVT h.port.val] [] s)) ∧
    (resetReach w = none → Asks stRANGE [] (.reset h 0 [w]) opRESET h 0 [w] s (ChangesOnly h [] [] s)))

/-- TIME (R322, R329 to R333): SET, STEP and ACCEPT of a refused sample ask for a step at the instant 32 µs from now and wait for it; ACCEPT with nothing pending is answered
with zeros; OFFSET is taken as a sample where the source is the host, else CONFLICT; FREQ sets TB_FREQ while the servo is off, else
CONFLICT. -/
def Obligations.TimeCommands : Prop := ∀ (h : Hdr) (s : State),
  let pay := actPayload 0
  let asks (act : Nat) (ws : List Word) (c : Instr) (amt : StepAmt) : Prop :=
    Waits c opTIME h 0 (pay act ws) s (fun t =>
      t.tm = { s.tm with step := [{ amt := amt, at_ := s.tm.master + 32000 * nsU, cmd := some (h.port, rowCmd opTIME h 0 (pay act ws)) }] } ∧
      ChangesOnly h [] [.tm] s t)
  (s.tm.step = [] →
    (∀ lo hi ns fr : Word, ns.toNat < 1000000000 → fr.toNat < 65536 →
      asks 1 [lo, hi, ns, fr] (.timeSet h 0 0 [lo, hi, ns, fr])
        (.set ((((lo.toNat + hi.toNat * 2 ^ 32) * 1000000000 + ns.toNat) * 65536 + fr.toNat) * 2 ^ 32))) ∧
    (∀ lo hi : Word, timeOut ((masterNs s : Int) + 32000 + twoWords lo hi) = false →
      asks 2 [lo, hi] (.timeStep h 0 0 [lo, hi]) (.add (twoWords lo hi * nsU))) ∧
    (flag s R.TB_STAT F.TB_STAT_PEND = true → asks 5 [] (.timeAccept h 0 0 []) (.add (s.tm.refused * nsU))) ∧
    (flag s R.TB_STAT F.TB_STAT_PEND = false →
      Asks stOK [0, 0, 0, 0] (.timeAccept h 0 0 []) opTIME h 0 (pay 5 []) s (ChangesOnly h [] [] s))) ∧
  (∀ lo hi : Word,
    (tbSrc s = 3 → tbEn s = false →
      Asks stOK [] (.timeOffset h 0 0 [lo, hi]) opTIME h 0 (pay 3 [lo, hi]) s (fun t =>
        reg t R.TB_OFFS = BitVec.ofInt 32 (max (-2147483647) (min 2147483647 (twoWords lo hi))) ∧ ChangesOnly h [R.TB_OFFS] [] s t)) ∧
    (tbSrc s ≠ 3 → Asks stCONFLICT [] (.timeOffset h 0 0 [lo, hi]) opTIME h 0 (pay 3 [lo, hi]) s (ChangesOnly h [] [] s))) ∧
  (∀ v : Word, v.toInt ≤ 500000000 → -500000000 ≤ v.toInt →
    (tbEn s = false → Asks stOK [] (.timeFreq h 0 0 [v]) opTIME h 0 (pay 4 [v]) s (fun t => reg t R.TB_FREQ = v ∧ ChangesOnly h [R.TB_FREQ] [] s t)) ∧
    (tbEn s = true → Asks stCONFLICT [] (.timeFreq h 0 0 [v]) opTIME h 0 (pay 4 [v]) s (ChangesOnly h [] [] s)))

/-- KEY (R527 to R531): LOAD unwraps a key under another slot's and ERASE empties a slot, where no port uses it; LOAD_CLEAR sets a key in an empty store from a serial host port
without CRIT. The other slots keep their keys.
The model's readings it rests on: notes/assumptions/48.md. -/
def Obligations.Keys : Prop := ∀ (h : Hdr) (i : Fin 8) (s : State),
  let idle := ∀ p : Partner, slotUser s i.val p.val = false
  let others (t : State) : Prop := ∀ j : Fin 8, j ≠ i → keySlot t j.val = keySlot s j.val
  let sets (key : List Byte) (t : State) : Prop :=
    keySlot t i.val = { key := some key, loads := min ((keySlot s i.val).loads + 1) 0xFFFF } ∧ others t
  (∀ (kek : Fin 8) (rest : List Word), kek ≠ i → idle → (rest.length = 6 ∨ rest.length = 10) →
    ∀ k, (keySlot s kek.val).key = some k → ∀ new, kwUnwrap k (wordsBytes rest) = some new →
    Asks stOK [] (.keyLoad h (wordOf i.val) (BitVec.ofNat 28 (kek.val * 16)) rest) opKEY h (wordOf i.val)
      (actPayload (BitVec.ofNat 28 (kek.val * 16)) 1 rest) s (fun t => sets new t ∧ ChangesOnly h [] [] s t)) ∧
  (idle → Asks stOK [] (.keyErase h (wordOf i.val) 0 []) opKEY h (wordOf i.val) (actPayload 0 2 []) s (fun t =>
    keySlot t i.val = { keySlot s i.val with key := none } ∧ others t ∧ ChangesOnly h [] [] s t)) ∧
  (∀ rest : List Word, isCrit h = false → 2 ≤ h.port.val → (rest.length = 4 ∨ rest.length = 8) → fuseBit s 1 = false →
    (∀ j : Fin 8, (keySlot s j.val).key = none) →
    Asks stOK [] (.loadClear h (wordOf i.val) 0 rest) opKEY h (wordOf i.val) (actPayload 0 3 rest) s (fun t =>
      sets (wordsBytes rest) t ∧ flag t R.SEC_EVT F.SEC_EVT_PROV = true ∧ ChangesOnly h [R.SEC_EVT] [] s t))

/-- STATUS answers with 16 words: identity, silicon revision, the sides' and the timebases' states and the lanes, the latest reset's
and wake's sources, the port's last counter, its outstanding commands and responses, and for each queue whether it has records for the port and
whether it has events (R547).
The model's readings it rests on: notes/assumptions/36.md. -/
def Obligations.Status : Prop := ∀ (h : Hdr) (s : State),
  let p := h.port.val
  let T := taken opSTATUS h 0 [] s
  Asks stOK (statusWords T p) (.status h 0 []) opSTATUS h 0 [] s (ChangesOnly h [] [] s) ∧
  (let w := statusWords T p
   w.length = 16 ∧ w[0]? = some (view s R.GLB_ID) ∧ w[1]? = some (view s R.GLB_SILREV) ∧
   w[2]? = some (wordOf (fpwr s + hpwr s * 16 + tbState s * 256 + fState s * 1024 + b2n (laneUp s 0) * 4096 + b2n (laneUp s 1) * 8192)) ∧
   w[3]? = some (reg s R.RST_CAUSE) ∧ w[4]? = some (wordOf (fld s R.PWR_LASTWAKE F.PWR_LASTWAKE_SRC)) ∧
   w[5]? = some (wordOf ((partGet s p).lastCtr % 2 ^ 32)) ∧ w[6]? = some (wordOf ((partGet s p).lastCtr / 2 ^ 32 % 2 ^ 32)) ∧
   w[7]? = some (wordOf (min ((partGet s p).outst.length + 1) 32 + min (partGet s p).resp.length 32 * 256)) ∧
   (∀ q : QNo, bitOf ((w.getD (8 + q.val / 32) 0).toNat) (q.val % 32) = hasWaiting s q.val p ∧
     bitOf ((w.getD (12 + q.val / 32) 0).toNat) (q.val % 32) = decide (reg s (R.Q_EVT q.val) ≠ 0)))

-- ---------------------------------------------------------------- the ends of waits; loading

/-- A waiting response of an Ethernet port leaves, and its command is no longer outstanding (R518, R519, R553); a register READ that has waited 250 µs is answered TIMEOUT, or OK
with RACE where the value comes in the same cycle (R33, R37, R520); a management frame ends and a read leaves its value (R574); an NV write ends
(R633); a draining lane goes to OFF, and its frames to the other lane (R605).
The model's readings it rests on: notes/assumptions/32.md. -/
def Obligations.PartnerEvents : Prop := ∀ (s : State), s.waits = [] →
  (∀ (e : EthNo) (i : Nat), s.stalled = [] → ∀ r, (partGet s e.val).resp[i]? = some r → hears s e.val = true → paused s e.val = false →
    Runs (.responseSend e i) s (fun t =>
      t.sent = s.sent ++ [.response ⟨e.val, by omega⟩ r (respFrames s e.val r)] ∧ (partGet t e.val).resp = (partGet s e.val).resp.eraseIdx i ∧
      (partGet t e.val).outst = (if r.kept then dropCmd r.cmd (partGet s e.val).outst else (partGet s e.val).outst) ∧
      Counted s t (R.P_CNT e.val 1) 1 ∧ Counted s t (R.P_ETH_CNT e.val 1) (respFrames s e.val r).length ∧
      t.boot = (resetGone e.val r s).boot ∧
      RegsBut [R.P_CNT e.val 1, R.P_ETH_CNT e.val 1] s t ∧ Only [.regs, .part, .boot, .sent, .pins] s t)) ∧
  (∀ (p : Partner) (c : Cmd), s.stalled = [(p.val, c)] → plainRead c = true → (partGet s p.val).outst.contains c = true → c.ctr = none →
    (∀ w, c.since = some w → w + 250000 ≤ s.elapsed) →
    Runs (.registerReadTimeout p c.tag false) s (fun t =>
      Answered s t p.val c stTIMEOUT (List.replicate (c.word 0).toNat 0) ∧ t.stalled = [] ∧ RegsBut [] s t ∧ Only [.part, .stalled, .pins] s t) ∧
    (∀ w : Word, c.payload = [1] → readWord c.addr.toNat s = (w, s) → c.addr.toNat < (blockAt c.addr.toNat).hi →
      overruns c.addr.toNat 1 = false →
      Runs (.registerReadTimeout p c.tag true) s (fun t =>
        (partGet t p.val).resp = (partGet s p.val).resp ++ [{ cmd := c, status := stOK, race := true, payload := [w] }] ∧ t.stalled = [] ∧
        flag t (R.P_EVT p.val) F.P_EVT_RACE = true ∧ Counted s t R.GLB_RACECNT 1 ∧
        RegsBut [R.P_EVT p.val, R.GLB_RACECNT] s t ∧ Only [.regs, .part, .stalled, .pins] s t))) ∧
  (∀ d : BitVec 16, s.stalled = [] → flag s R.P0_MDIO_CMD F.P0_MDIO_CMD_BUSY = true →
    Runs (.mdioFrameEnd d) s (fun t => flag t R.P0_MDIO_CMD F.P0_MDIO_CMD_BUSY = false ∧
      fld t R.P0_MDIO_CMD F.P0_MDIO_CMD_DATA = (if 2 ≤ fld s R.P0_MDIO_CMD F.P0_MDIO_CMD_OP then d.toNat else fld s R.P0_MDIO_CMD F.P0_MDIO_CMD_DATA) ∧
      RegsBut [R.P0_MDIO_CMD] s t ∧ Only [.regs, .pins] s t)) ∧
  (s.stalled = [] → s.boot.heldSrcs = [] → s.nv.busyUntil ≤ s.elapsed → Runs .nvWriteEnd s (fun t => t.nv = { s.nv with busyUntil := 0 } ∧ RegsBut [] s t ∧ Only [.nv, .pins] s t)) ∧
  (∀ x : Lane, laneSt s x.val = lnDRAIN → lnEn s x.val = false → (laneOwes s x.val = true → laneSince s x.val + 10000 ≤ s.elapsed) →
    Runs (.drainEnd x) s (fun t => laneSt t x.val = lnOFF ∧ laneSt t (1 - x.val) = laneSt s (1 - x.val) ∧
      (laneUp s (1 - x.val) = true → (t.cl.down.unacked ++ t.cl.up.unacked).all (fun o => o.lane != x.val) = true) ∧
      Only [.regs, .cl, .pins] s t))

/-- The partner's load in LOADWAIT (R655, R656): BEGIN starts a pass, CHUNK takes words from the load window, END of pass 1 judges the bytes and shows the error. A WRITE of
SEC_OTPPROG programs the bits that the fuses take, keeps those that stood, and answers INTERNAL where some bit does not read back; a locked word is refused
(R577).
The model's readings it rests on: notes/assumptions/9.md, notes/assumptions/12.md. -/
def Obligations.Loading : Prop := ∀ (h : Hdr) (v : Word) (s : State),
  (inLoadWait s = true →
    let run (c : Instr) (P : State → Prop) : Prop := Asks stOK [] c opWRITE h (wordOf R.GLB_LOADCTL) [v] s P
    let l := s.boot.load
    (getFld v F.GLB_LOADCTL_OP = 1 → (getFld v F.GLB_LOADCTL_PASS = 1 → l.pass1.isSome = true) →
      run (.loadBegin h v) (fun t => t.boot.load = { l with bytes := [], inPass := true, partner := true
                                                            pass1 := if getFld v F.GLB_LOADCTL_PASS = 1 then l.pass1 else none } ∧
        fld t R.GLB_LOADSTAT F.GLB_LOADSTAT_PASS = getFld v F.GLB_LOADCTL_PASS ∧ fld t R.GLB_LOADSTAT F.GLB_LOADSTAT_BYTES = 0 ∧
        ChangesOnly h [R.GLB_LOADSTAT] [.boot] s t)) ∧
    (getFld v F.GLB_LOADCTL_OP = 2 → l.inPass = true → 1 ≤ getFld v F.GLB_LOADCTL_WORDS → getFld v F.GLB_LOADCTL_WORDS ≤ 8192 →
      run (.loadChunk h v) (fun t =>
        t.boot.load = { l with bytes := l.bytes ++ (List.range (getFld v F.GLB_LOADCTL_WORDS)).flatMap (fun i => wordBytes (tabGet (fun _ => 0) l.window i)) } ∧
        ChangesOnly h [R.GLB_LOADSTAT] [.boot] s t)) ∧
    (getFld v F.GLB_LOADCTL_OP = 3 → l.inPass = true → flag s R.GLB_LOADSTAT F.GLB_LOADSTAT_PASS = false →
      let e := passOne s l.bytes l.bytes.length
      run (.loadEnd h v) (fun t => fld t R.GLB_BOOTSTAT F.GLB_BOOTSTAT_ERR = e.1 ∧ t.boot.load.inPass = false ∧
        (e.1 ≠ 0 → t.boot.load = {}) ∧ (e.1 = 0 → t.boot.load.pass1 = some (sha256 l.bytes)) ∧
        ChangesOnly h [R.GLB_BOOTSTAT, R.GLB_IMGSEQ, R.GLB_IMGVER] [.boot] s t))) ∧
  (isCrit h = true → ∀ took : Word,
    let w := getFld v F.SEC_OTPPROG_WORD
    let new := fuseWord s w ||| (reg s R.SEC_OTPDATA &&& took)
    let good := decide (new &&& reg s R.SEC_OTPDATA = reg s R.SEC_OTPDATA)
    WriteRuns h R.SEC_OTPPROG v s →
    Runs (.otpProgram h v took) s (fun t =>
      Answers s t h (rowCmd opWRITE h (wordOf R.SEC_OTPPROG) [v]) (if good then stOK else stINTERNAL) [] ∧ fuseWord t w = new ∧
      (∀ x : Fin 128, x.val ≠ w → fuseWord t x.val = fuseWord s x.val) ∧
      (good = false → flag t R.SEC_EVT F.SEC_EVT_OTPFAIL = true ∧ reg t R.SEC_OTPPROG = reg s R.SEC_OTPPROG) ∧ ChangesOnly h [R.SEC_OTPPROG, R.SEC_EVT] [] s t))

-- ---------------------------------------------------------------- Ethernet frames and links, serial transactions, refusals

/-- A frame that reaches a port with its link up counts; a bad FCS, a wrong EtherType or TYPE drops it; a PAUSE frame sets
PAUSED where PAUSERX is 1; a frame for another address is forwarded where both ports forward and there is room; a first fragment is
kept, with a PAUSE sent past 3/4 of the buffer; the last fragment of a request makes the request arrive (R550 to R553, R557, R559).
The model's readings it rests on: notes/assumptions/28.md. -/
def Obligations.EthernetFrames : Prop := ∀ (e : EthNo) (s : State), Quiet s → hears s e.val = true →
  let c (i : Nat) : Nat := R.P_ETH_CNT e.val i
  let o : Nat := 1 - e.val
  (∀ f : EthFrame, f.fcsOk = false →
    Runs (.ethFrameReceive e f) s (fun t => Counted s t (c 0) 1 ∧ Counted s t (c 2) 1 ∧ RegsBut [c 0, c 2] s t ∧ Only [.regs, .pins] s t)) ∧
  (∀ f : EthFrame, ∀ q, f.pause = some q → f.fcsOk = true →
    Runs (.ethFrameReceive e f) s (fun t => Counted s t (c 0) 1 ∧ Counted s t (c 6) 1 ∧
      paused t e.val = (if ethCtl s e.val F.P_ETH_CTL_PAUSERX then decide (q ≠ 0) else paused s e.val) ∧
      (let out := if ethCtl s e.val F.P_ETH_CTL_PAUSERX = true ∧ q = 0 then (partGet s e.val).ptpOut else []
       partGet t e.val = { partGet s e.val with
         pauseEnd := if ethCtl s e.val F.P_ETH_CTL_PAUSERX then s.elapsed + quantaNs s e.val q else (partGet s e.val).pauseEnd
         ptpOut := if ethCtl s e.val F.P_ETH_CTL_PAUSERX = true ∧ q = 0 then [] else (partGet s e.val).ptpOut } ∧
       SentSince s t (ptpSent e out) ∧ Counted s t (c 1) out.length) ∧
      OtherPartners e.val s t ∧ RegsBut [c 0, c 1, c 6, R.P_ETH_STAT e.val] s t ∧ Only [.regs, .part, .sent, .pins] s t)) ∧
  (∀ f : EthFrame, f.fcsOk = true → f.pause = none → f.etype ≠ ptpType →
    (addressedTo s e.val f = true →
      ((f.vid.isSome = true ∧ ethCtl s e.val F.P_ETH_CTL_VLAN = false) ∨ f.etype.toNat ≠ fld s (R.P_ETH_TYPE e.val) F.P_ETH_TYPE_ETYPE ∨ f.body.getD 0 0 ≠ 1) →
      Runs (.ethFrameReceive e f) s (fun t => Counted s t (c 0) 1 ∧ Counted s t (c 3) 1 ∧ RegsBut [c 0, c 3] s t ∧ Only [.regs, .pins] s t)) ∧
    (addressedTo s e.val f = false → ethCtl s 0 F.P_ETH_CTL_FWD = true → ethCtl s 1 F.P_ETH_CTL_FWD = true →
      let fits := hears s o && decide (sumNat ((partGet s o).fwd.map frameBytes) + frameBytes f ≤ 32768)
      Runs (.ethFrameReceive e f) s (fun t => Counted s t (c 0) 1 ∧ Counted s t (c (if fits then 4 else 5)) 1 ∧
        (partGet t o).fwd = (if fits then (partGet s o).fwd ++ [f] else (partGet s o).fwd) ∧ OtherPartners o s t ∧
        RegsBut [c 0, c 4, c 5] s t ∧ Only [.regs, .part, .pins] s t))) ∧
  (∀ (f : EthFrame) (msg : BitVec 16) (data : List Byte), OwnFrame s e f (transportBody 0 true msg data) → data.length < 65536 →
    (∀ x ∈ (partGet s e.val).reasm, reasmLate s x = false ∧ (x.src ≠ f.src ∨ x.msg ≠ msg)) → (partGet s e.val).reasm.length < 4 →
    let n := heldBytes s e.val + data.length
    let xoff := flag s (R.P_ETH_STAT e.val) F.P_ETH_STAT_XOFF
    Runs (.ethFrameReceive e f) s (fun t =>
      (partGet t e.val).reasm = (partGet s e.val).reasm ++ [{ src := f.src, msg := msg, next := 1, bytes := data, since := s.elapsed }] ∧
      (partGet t e.val).rxFill = n ∧ OtherPartners e.val s t ∧ Counted s t (c 0) 1 ∧
      (ethCtl s e.val F.P_ETH_CTL_PAUSETX = true → xoff = false → 12288 < n →
        SentSince s t [.pause e (fld s (R.P_ETH_PAUSE e.val) F.P_ETH_PAUSE_QUANTA)] ∧ Counted s t (c 1) 1 ∧ flag t (R.P_ETH_STAT e.val) F.P_ETH_STAT_XOFF = true) ∧
      (xoff = false → n ≤ 12288 → SentSince s t [] ∧ Counted s t (c 1) 0) ∧ RegsBut [c 0, c 1, R.P_ETH_STAT e.val] s t ∧ Only [.regs, .part, .sent, .pins] s t)) ∧
  (∀ (h : Hdr) (f : EthFrame) (x : Reasm) (data : List Byte), h.port.val = e.val → h.src = f.src → h.mem = {} → isCrit h = false →
    let r := reqOf opREAD h (wordOf R.GLB_ID) [1]
    x.src = f.src → x.msg = h.msg → x.next < 128 → s.elapsed ≤ x.since + 1000000 → x.bytes ++ data = reqBytes r → (partGet s e.val).reasm = [x] →
    OwnFrame s e f (transportBody x.next false h.msg data) → flag s (R.P_ETH_STAT e.val) F.P_ETH_STAT_XOFF = false →
    Passes opREAD h (wordOf R.GLB_ID) [1] s →
    Runs (.ethFrameReceive e f) s (fun t =>
      Answers s t h (rowCmd opREAD h (wordOf R.GLB_ID) [1]) stOK [view s R.GLB_ID] ∧ (partGet t e.val).reasm = [] ∧
      OtherPartners e.val s t ∧ Counted s t (c 0) 1 ∧ RegsBut [c 0, R.P_CNT e.val 0] s t ∧ Only [.regs, .part, .pins] s t))

/-- A link going down latches LINKCHG and discards the responses that wait, counted and latched as LOST; a link that comes up latches LINKCHG and
shows its speed (R561, R573). A reassembly 1 ms old ends with FRAG (R553). Energy sets ENERGY and wakes a host side in Deep sleep where EDWAKE
is 1 (R560). A pause ends (R559). A buffered frame leaves where nothing of a higher priority waits (R557, R558).
The model's readings it rests on: notes/assumptions/28.md. -/
def Obligations.EthernetLinks : Prop := ∀ (e : EthNo) (s : State), Quiet s →
  let c (i : Nat) : Nat := R.P_ETH_CNT e.val i
  let est := R.P_ETH_STAT e.val
  let u := partGet s e.val
  (linkIsUp s e.val = true →
    Runs (.linkDown e) s (fun t => t.boot = (eachOf u.resp (resetGone e.val) s).boot ∧ linkIsUp t e.val = false ∧ flag t est F.P_ETH_STAT_LINK = false ∧ paused t e.val = false ∧
      flag t (R.P_EVT e.val) F.P_EVT_LINKCHG = true ∧ (u.resp ≠ [] → flag t (R.P_EVT e.val) F.P_EVT_LOST = true) ∧
      Counted s t (R.P_CNT e.val 9) u.resp.length ∧ (partGet t e.val).resp = [] ∧ (partGet t e.val).reasm = [] ∧
      (partGet t e.val).lastCtr = u.lastCtr ∧ OtherPartners e.val s t ∧
      RegsBut [est, R.P_STAT e.val, R.P_EVT e.val, R.P_CNT e.val 9] s t ∧ Only [.regs, .part, .boot, .pins] s t)) ∧
  (linkIsUp s e.val = false → portEn s e.val = true → hostHears s = true → hostSleeps s = false → fld s (R.P_ETH_CTL e.val) F.P_ETH_CTL_MODE < 2 →
    Runs (.linkUp e) s (fun t => linkIsUp t e.val = true ∧ flag t est F.P_ETH_STAT_LINK = true ∧ flag t (R.P_EVT e.val) F.P_EVT_LINKCHG = true ∧
      fld t est F.P_ETH_STAT_SPEED = 2 + fld s (R.P_ETH_CTL e.val) F.P_ETH_CTL_MODE ∧
      RegsBut [est, R.P_STAT e.val, R.P_EVT e.val] s t ∧ Only [.regs, .pins] s t)) ∧
  (∀ x, u.reasm = [x] → x.since + 1000000 ≤ s.elapsed →
    Runs (.reassemblyTimeout e x.msg) s (fun t => (partGet t e.val).reasm = [] ∧ (partGet t e.val).rxFill = 0 ∧ Counted s t (c 3) 1 ∧
      flag t (R.P_EVT e.val) F.P_EVT_FRAG = true ∧
      (flag s est F.P_ETH_STAT_XOFF = true → SentSince s t [.pause e 0] ∧ Counted s t (c 1) 1 ∧ flag t est F.P_ETH_STAT_XOFF = false) ∧
      (flag s est F.P_ETH_STAT_XOFF = false → SentSince s t [] ∧ Counted s t (c 1) 0) ∧ OtherPartners e.val s t ∧
      RegsBut [c 1, c 3, est, R.P_EVT e.val] s t ∧ Only [.regs, .part, .sent, .pins] s t)) ∧
  (s.pow.host.st = .deep → hostAlive s = true → portEn s e.val = true → ethCtl s e.val F.P_ETH_CTL_EDWAKE = true →
    Runs (.energyDetect e) s (fun t => flag t est F.P_ETH_STAT_ENERGY = true ∧ t.pow.host.st = .waking ∧ t.pow.host.src = 7 + e.val ∧
      t.pow.field = s.pow.field ∧ RegsBut [est] s t ∧ Only [.regs, .pow, .pins] s t)) ∧
  (s.pow.host.st = .run → hostAlive s = true →
    Runs (.energyDetect e) s (fun t => flag t est F.P_ETH_STAT_ENERGY = true ∧ RegsBut [est] s t ∧ Only [.regs, .pins] s t)) ∧
  ((paused s e.val = true → u.pauseEnd ≤ s.elapsed) → Runs (.pauseQuantaExpiry e) s (fun t =>
    let out := if paused s e.val then u.ptpOut else []
    paused t e.val = false ∧ SentSince s t (ptpSent e out) ∧ Counted s t (c 1) out.length ∧ OtherPartners e.val s t ∧
    RegsBut [est, c 1] s t ∧ Only [.regs, .part, .sent, .pins] s t)) ∧
  (∀ f rest, u.fwd = f :: rest → mayStream s e.val = true → (u.turn = true ∨ streamReady s e.val = false) →
    Runs (.forwardedFrameSend e) s (fun t => SentSince s t [.forwarded e f] ∧ (partGet t e.val).fwd = rest ∧ Counted s t (c 1) 1 ∧
      OtherPartners e.val s t ∧ RegsBut [c 1] s t ∧ Only [.regs, .part, .sent, .pins] s t))

/-- A transaction on a serial host port: its first byte says what it is (R563); a whole request arrives, with EXTRA where edges
follow it (R569); one that breaks off is TRUNC within a word and SHORT between words (R567, R568); LEN above 1,024 is answered
RANGE (R566). A response transaction sends the oldest response; a select that rises early in one only counts, and the response stays (R564, R565,
R570). A select that falls wakes a sleeping host side (R687).
The model's readings it rests on: notes/assumptions/27.md, notes/assumptions/30.md. -/
def Obligations.SerialPorts : Prop := ∀ (p : ShpNo) (s : State), Quiet s →
  let q : Partner := shpPort p
  let ev := R.P_EVT q.val
  let c (i : Nat) : Nat := R.P_CNT q.val i
  (s.pow.host.st = .run → hears s q.val = true →
    (∀ (rest : List Byte) (x : Bool), Runs (.shpTransaction p (0 :: rest) x) s (Only [.pins] s)) ∧
    (∀ (b : Byte) (rest : List Byte) (x : Bool), 0x80 ≤ b.toNat →
      Runs (.shpTransaction p (b :: rest) x) s (fun t => flag t ev F.P_EVT_BADSTART = true ∧ RegsBut [ev] s t ∧ Only [.regs, .pins] s t)) ∧
    (∀ (h : Hdr) (more : List Byte) (x : Bool), h.port = q → isCrit h = false → h.src = 0 → h.msg = 0 → h.mem = {} →
      Passes opREAD h (wordOf R.GLB_ID) [1] s →
      Runs (.shpTransaction p (reqBytes (reqOf opREAD h (wordOf R.GLB_ID) [1]) ++ more) x) s (fun t =>
        Answers s t h (rowCmd opREAD h (wordOf R.GLB_ID) [1]) stOK [view s R.GLB_ID] ∧ OtherPartners q.val s t ∧
        ((x = true ∨ more ≠ []) → flag t ev F.P_EVT_EXTRA = true ∧ Counted s t (c 8) 1) ∧
        (x = false → more = [] → RegsBut [c 0] s t) ∧ RegsBut [c 0, c 8, ev] s t ∧ Only [.regs, .part, .pins] s t)) ∧
    (∀ (b : Byte) (rest : List Byte) (x : Bool), 0 < b.toNat → b.toNat < 0x80 → rest.length < 9 →
      let whole := decide ((rest.length + 1) % 4 = 0)
      Runs (.shpTransaction p (b :: rest) x) s (fun t =>
        flag t ev (if whole then F.P_EVT_SHORT else F.P_EVT_TRUNC) = true ∧ Counted s t (c (if whole then 7 else 6)) 1 ∧
        RegsBut [ev, c 6, c 7] s t ∧ Only [.regs, .pins] s t)) ∧
    (∀ (rx : List Byte) (x : Bool), 20 ≤ rx.length → 0 < (rx.getD 0 0).toNat → (rx.getD 0 0).toNat < 0x80 → 1024 < leNat ((rx.drop 8).take 2) →
      (partGet s q.val).outst = [] →
      Runs (.shpTransaction p rx x) s (fun t => Counted s t (c 0) 1 ∧
        (partGet t q.val).resp.dropLast = (partGet s q.val).resp ∧
        (partGet t q.val).resp.getLast?.map (fun r => (r.status, r.payload, r.cmd.op, r.cmd.tag.toNat)) =
          some (stRANGE, [], (rx.getD 0 0).toNat, leNat ((rx.drop 2).take 2)) ∧
        OtherPartners q.val s t ∧ RegsBut [c 0] s t ∧ Only [.regs, .part, .pins] s t)) ∧
    (∀ r rest, (partGet s q.val).resp = r :: rest → ∀ x : Bool,
      Runs (.shpResponse p x) s (fun t => SentSince s t [.response q r []] ∧ (partGet t q.val).resp = rest ∧
        (partGet t q.val).outst = (if r.kept then dropCmd r.cmd (partGet s q.val).outst else (partGet s q.val).outst) ∧ Counted s t (c 1) 1 ∧
        (x = true → flag t ev F.P_EVT_EXTRA = true ∧ Counted s t (c 8) 1) ∧ (x = false → RegsBut [c 1] s t) ∧
        t.boot = (resetGone q.val r s).boot ∧
        OtherPartners q.val s t ∧ RegsBut [c 1, c 8, ev] s t ∧ Only [.regs, .part, .boot, .sent, .pins] s t)) ∧
    ((partGet s q.val).resp ≠ [] → ∀ bits : Nat,
      Runs (.shpSelectRise p true bits) s (fun t => Counted s t (c 10) 1 ∧ RegsBut [c 10] s t ∧ Only [.regs, .pins] s t)) ∧
    (∀ bits : Nat, 0 < bits →
      let whole := decide (bits % 32 = 0)
      Runs (.shpSelectRise p false bits) s (fun t =>
        flag t ev (if whole then F.P_EVT_SHORT else F.P_EVT_TRUNC) = true ∧ Counted s t (c (if whole then 7 else 6)) 1 ∧
        RegsBut [ev, c 6, c 7] s t ∧ Only [.regs, .pins] s t))) ∧
  (s.pow.host.st = .deep → portEn s q.val = true → hostHears s = true → ∀ (rx : List Byte) (x : Bool),
    Runs (.shpTransaction p rx x) s (fun t => t.pow.host = { s.pow.host with
      st := .waking, from_ := .deep, src := 9 + p.val, regRetry := false, oscRetry := false, regAt := s.elapsed, oscAt := s.elapsed } ∧
      t.pow.field = s.pow.field ∧ Only [.pow, .pins] s t))

/-- What R516 refuses before step 8, for any row that is a WRITE: a bad CRC is counted and not answered; then, in order, BUSY on a full store
(not kept there), CONFLICT on a tag in use, RANGE on reserved bits or LEN, AUTH_FAIL, REPLAY with the reference, and DENIED. Nothing else changes.
The model's readings it rests on: notes/assumptions/26.md. -/
def Obligations.Refusals : Prop := ∀ (h : Hdr) (addr : Word) (payload : List Word) (s : State),
  s.pow.host.st = .run → hears s h.port.val = true → Quiet s →
  let p := h.port.val
  let r := reqOf opWRITE h addr payload
  let k := rowCmd opWRITE h addr payload
  let u := partGet s p
  let tells (st : Nat) (pay : List Word) (i : Nat) (f : Fld) (t : State) : Prop :=
    (partGet t p).resp = u.resp ++ [respFor k st pay] ∧ (partGet t p).outst = u.outst ++ [k] ∧ Counted s t (R.P_CNT p 0) 1 ∧
    Counted s t (R.P_CNT p i) 1 ∧ flag t (R.P_EVT p) f = true ∧ OtherPartners p s t ∧ RegsBut [R.P_CNT p 0, R.P_CNT p i, R.P_EVT p] s t ∧
    Only [.regs, .part, .pins] s t
  let says0 (st : Nat) (kept : Bool) (t : State) : Prop :=
    (partGet t p).resp = u.resp ++ [{ respFor k st [] with kept := kept }] ∧ (partGet t p).outst = (if kept then u.outst ++ [k] else u.outst) ∧
    Counted s t (R.P_CNT p 0) 1 ∧ OtherPartners p s t ∧ RegsBut [R.P_CNT p 0] s t ∧ Only [.regs, .part, .pins] s t
  let run (P : State → Prop) : Prop := Runs (.write h addr payload) s P
  let shape := h.flags &&& 0xFE = 0 ∧ h.resv = 0 ∧ payload.length ≤ 1024
  (reqCrcHolds r = false → run (fun t => Counted s t (R.P_CNT p 2) 1 ∧ flag t (R.P_EVT p) F.P_EVT_CRC = true ∧ RegsBut [R.P_CNT p 2, R.P_EVT p] s t ∧
    Only [.regs, .pins] s t)) ∧
  (reqCrcHolds r = true →
    (32 ≤ u.outst.length → run (says0 stBUSY false)) ∧
    (u.outst.length < 32 →
      ((∃ x ∈ u.outst, x.tag = h.tag) → run (says0 stCONFLICT true)) ∧
      ((∀ x ∈ u.outst, x.tag ≠ h.tag) →
        (¬ shape → run (says0 stRANGE true)) ∧
        (shape →
          (isCrit h = true → signed s p r = false → run (tells stAUTH_FAIL [] 3 F.P_EVT_AUTH)) ∧
          (isCrit h = true → signed s p r = true → h.ctr.toNat ≤ ctrReference s p →
            run (tells stREPLAY [wordOf (ctrReference s p % 2 ^ 32), wordOf (ctrReference s p / 2 ^ 32 % 2 ^ 32)] 4 F.P_EVT_REPLAY)) ∧
          (inLoadWait s = false → (isCrit h = true → signed s p r = true ∧ ctrReference s p < h.ctr.toNat) →
            (permBits s p k).all (permits s p) = false ∨ (isCrit h = false ∧ writeCrit s p k = true) →
            run (tells stDENIED [] 5 F.P_EVT_DENIED))))))

-- ---------------------------------------------------------------- Clasp: frames and lanes

/-- A frame at the end of a lane in SERVICE (R585 to R595): the next good one is counted and advances the sequence, and a command outside the
check of R594 is counted as a block (R595); a good one ahead of the sequence waits; a bad one is counted and asked for again, and its eighth copy is
unrecoverable, its command answered INTERNAL, or waits for its turn (R593); a bad one that reaches ERRLIM within 1 ms takes the lane out of service (R588). A
heartbeat acknowledges the other direction's frames and reports a lane down (R586, R587, R589); the two ends of a lane each send one (R587).
The model's readings it rests on: notes/assumptions/16.md, notes/assumptions/56.md. -/
def Obligations.ClaspFrames : Prop := ∀ (x : Lane) (s : State), s.waits = [] →
  let tx := R.CL_LANE_CNT_TX x.val
  let rx := R.CL_LANE_CNT_RX x.val
  let ckl := R.CL_LANE_CNT_CKL x.val
  let rtx := R.CL_LANE_CNT_RETX x.val
  (laneUp s x.val = true → Runs (.heartbeatSend x) s (fun t => Counted s t tx 2 ∧ RegsBut [tx] s t ∧ Only [.regs, .pins] s t)) ∧
  (∀ f : ClaspFrame,
    let d := dirGet s f.toField
    let fewErrs := (recentErrs s (laneEnd x.val f.toField)).length < fld s R.CL_CTL F.CL_CTL_ERRLIM
    let run (P : State → Prop) : Prop := Runs (.claspFrameRx x f) s P
    (TakesFrame s x f → f.ckl = true → newFrame s f = true → d.nextTx ≤ f.seq → d.early = [] →
      run (fun t => let d' := dirGet t f.toField
        d'.nextRx = f.seq + 1 ∧ d'.nextTx = f.seq + 1 ∧
        d'.unacked = d.unacked ++ [{ seq := f.seq, lane := x.val, bytes := f.bytes, cls := f.cls, port := f.port, tag := f.tag }] ∧
        dirGet t (!f.toField) = dirGet s (!f.toField) ∧ Counted s t tx 1 ∧ Counted s t rx 1 ∧
        (frameAllowed s f = false → Counted s t R.CL_CNT_BLOCK 1 ∧ flag t R.CL_EVT F.CL_EVT_BLOCK = true) ∧
        (frameAllowed s f = true → RegsBut (unackRegs ++ [tx, rx]) s t) ∧
        RegsBut (unackRegs ++ [tx, rx, R.CL_CNT_BLOCK, R.CL_EVT]) s t ∧ Only [.regs, .cl, .pins] s t)) ∧
    (laneUp s x.val = true → f.cls ≠ .heart → f.ckl = true → d.nextRx < f.seq → newFrame s f = false → (∀ g ∈ d.early, g.seq ≠ f.seq) →
      run (fun t => dirGet t f.toField = { d with early := d.early ++ [f] } ∧ dirGet t (!f.toField) = dirGet s (!f.toField) ∧
        Counted s t tx 1 ∧ Counted s t rx 1 ∧ RegsBut [tx, rx] s t ∧ Only [.regs, .cl, .pins] s t)) ∧
    (TakesFrame s x f → f.ckl = false → f.bufDbe = false → newFrame s f = false → d.early = [] → tabGet (fun _ => 0) d.bad f.seq < 7 → fewErrs →
      run (fun t => (dirGet t f.toField).nextRx = d.nextRx ∧ tabGet (fun _ => 0) (dirGet t f.toField).bad f.seq = tabGet (fun _ => 0) d.bad f.seq + 1 ∧
        Counted s t tx 1 ∧ Counted s t ckl 1 ∧ Counted s t rtx 1 ∧ RegsBut [tx, ckl, rtx] s t ∧ Only [.regs, .cl, .pins] s t)) ∧
    (∀ c, (partGet s f.port.val).outst = [c] → c.tag = f.tag → TakesFrame s x f → f.ckl = false → f.cls = .cmd → newFrame s f = false →
      7 ≤ tabGet (fun _ => 0) d.bad f.seq → fewErrs → d.early = [] → (partGet s f.port.val).resp = [] → c.ctr = none →
      run (fun t => (dirGet t f.toField).nextRx = f.seq + 1 ∧ (partGet t f.port.val).resp = [respFor c stINTERNAL []] ∧
        Counted s t R.CL_CNT_UNREC 1 ∧ flag t R.CL_EVT F.CL_EVT_UNREC = true ∧ OtherPartners f.port.val s t ∧
        RegsBut [tx, ckl, R.CL_CNT_UNREC, R.CL_EVT] s t ∧ Only [.regs, .cl, .part, .stalled, .ports, .pins] s t)) ∧
    (laneUp s x.val = true → f.cls ≠ .heart → f.ckl = false → f.bufDbe = true → d.nextRx < f.seq → newFrame s f = false →
      (∀ g ∈ d.early, g.seq ≠ f.seq) → fewErrs →
      run (fun t => dirGet t f.toField = { d with early := d.early ++ [f], bad := tabErase d.bad f.seq } ∧ dirGet t (!f.toField) = dirGet s (!f.toField) ∧
        Counted s t R.CL_CNT_UNREC 1 ∧ flag t R.CL_EVT F.CL_EVT_UNREC = true ∧ Counted s t ckl 1 ∧
        RegsBut [tx, ckl, R.CL_CNT_UNREC, R.CL_EVT] s t ∧ Only [.regs, .cl, .pins] s t)) ∧
    (laneUp s x.val = true → f.cls = .heart → f.ckl = false → fld s R.CL_CTL F.CL_CTL_ERRLIM ≤ (recentErrs s (laneEnd x.val f.toField)).length →
      run (fun t => LaneLost s t x causeERR ∧ Counted s t ckl 1)) ∧
    (laneUp s x.val = true → f.cls = .heart → f.ckl = true → f.down = none → ∀ n, f.ack = some n →
      run (fun t => (dirGet t (!f.toField)).unacked = (dirGet s (!f.toField)).unacked.filter (fun o => decide (n ≤ o.seq)) ∧
        dirGet t f.toField = dirGet s f.toField ∧ Counted s t rx 1 ∧ RegsBut (rx :: unackRegs) s t ∧ Only [.regs, .cl, .pins] s t)) ∧
    (∀ y : Lane, f.down = some y → laneUp s x.val = true → laneUp s y.val = true → f.cls = .heart → f.ckl = true → f.ack = none →
      run (fun t => LaneLost s t y causePEER)))

/-- The lanes' states (R582, R583, R588, R598, R601 to R604, R622): a lane without a valid frame for four intervals, or whose channel loses lock, leaves
service, unless a frame comes in the same cycle; training ends in SERVICE or, at its limit, in FAILED; a failed lane trains again, a parked one
resumes. After LOSSLIM without a lane the host side discards what it sent and asserts CLASPLOSS; the field side at L3 keeps its report for the first
lane to return.
The model's readings it rests on: notes/assumptions/20.md, notes/assumptions/25.md. -/
def Obligations.Lanes : Prop := ∀ (x : Lane) (s : State),
  (s.waits = [] → laneUp s x.val = true →
    (heardAt s (silentEnd s x.val) + 2000 ≤ s.elapsed →
      Runs (.heart x false) s (fun t => LaneLost s t x causeHEART) ∧
      Runs (.heart x true) s (fun t => laneSt t x.val = lnSERVICE ∧ flag t R.CL_EVT F.CL_EVT_RACE = true ∧ Counted s t R.GLB_RACECNT 1 ∧
        heardAt t (silentEnd s x.val) = s.elapsed ∧ RegsBut [R.CL_EVT, R.GLB_RACECNT] s t ∧ Only [.regs, .cl, .pins] s t)) ∧
    Runs (.chan x) s (fun t => LaneLost s t x causeCHAN) ∧
    (laneUp s (1 - x.val) = false → laneSt s (1 - x.val) ≠ lnPARKED → s.cl.been = true → s.cl.epHost = false →
      s.pow.host.st = .run → s.pow.field.st = .run →
      Runs (.chan x) s (fun t => flag t R.CL_EVT F.CL_EVT_NOLANE = true ∧ Counted s t R.CL_CNT_NOLANE 1 ∧ t.cl.epHost = true ∧ t.cl.epField = true))) ∧
  (s.waits = [] →
    (laneSt s x.val = lnTRAIN → s.stalled = [] → s.cl.epHost = false → s.cl.epField = false → s.cl.fhReport = false → s.cl.waiting = [] →
      s.tm.fieldPend = 0 → ∀ delay : BitVec 16,
      Runs (.trainingComplete x delay) s (fun t => laneSt t x.val = lnSERVICE ∧ (reg t (R.CL_LANE_DELAY x.val)).toNat = delay.toNat ∧
        flag t R.CL_EVT (lnUpFld x.val) = true ∧
        t.cl = { s.cl with been := true, first := false, laneAt := tabSet (fun _ => 0) s.cl.laneAt x.val s.elapsed,
                           rxAt := tabSet (fun _ => 0) (tabSet (fun _ => 0) s.cl.rxAt (2 * x.val) s.elapsed) (2 * x.val + 1) s.elapsed } ∧
        t.pow = { s.pow with fieldSeen := some s.pow.field.st } ∧
        RegsBut [R.CL_STAT, R.CL_EVT, R.CL_LANE_DELAY x.val] s t ∧ Only [.regs, .cl, .pow, .pins] s t)) ∧
    (laneSt s x.val = lnPARKED → parks s.pow.host = false → parks s.pow.field = false → s.stalled = [] → s.cl.epHost = false → s.cl.epField = false →
      s.cl.fhReport = false → s.cl.waiting = [] → s.tm.fieldPend = 0 →
      Runs (.laneResume x) s (fun t => laneSt t x.val = lnSERVICE ∧ t.pow = { s.pow with fieldSeen := some s.pow.field.st } ∧
        RegsBut [R.CL_STAT] s t ∧ Only [.regs, .cl, .pow, .pins] s t)) ∧
    (laneSt s x.val = lnTRAIN → laneUp s (1 - x.val) = true → laneSince s x.val + 100000 ≤ s.elapsed →
      Runs (.trainingTimeout x) s (fun t => laneSt t x.val = lnFAILED ∧ fld t R.CL_STAT (lnCauseFld x.val) = causeTRAIN ∧
        Counted s t (R.CL_LANE_CNT_TRAINFAIL x.val) 1 ∧ RegsBut [R.CL_STAT, R.CL_LANE_CNT_TRAINFAIL x.val] s t ∧ Only [.regs, .cl, .pins] s t)) ∧
    (laneSt s x.val = lnTRAIN → laneSt s (1 - x.val) = lnFAILED → laneSince s x.val + 100000 ≤ s.elapsed → s.cl.been = true →
      s.cl.epHost = false → s.pow.host.st = .run → s.pow.field.st = .run →
      Runs (.trainingTimeout x) s (fun t => laneSt t x.val = lnFAILED ∧ t.cl.epHost = s.cl.first ∧
        flag t R.CL_EVT F.CL_EVT_NOLANE = (s.cl.first || flag s R.CL_EVT F.CL_EVT_NOLANE) ∧ (s.cl.first = false → t.cl.epField = s.cl.epField))) ∧
    (laneSt s x.val = lnFAILED → lnEn s x.val = true → laneSince s x.val + 1000000 * fld s R.CL_CTL F.CL_CTL_RETRY ≤ s.elapsed →
      Runs (.retrain x) s (fun t => laneSt t x.val = lnTRAIN ∧ laneSt t (1 - x.val) = laneSt s (1 - x.val) ∧ laneSince t x.val = s.elapsed ∧
        RegsBut [R.CL_STAT] s t ∧ Only [.regs, .cl, .pins] s t))) ∧
  (Calm s → s.cl.epHost = true → s.cl.epHostAt + 1000000 * fld s R.CL_LOSS F.CL_LOSS_LOSSLIM ≤ s.elapsed → someLane s = false → s.ports = [] →
    Runs (.losslimExpiry .host) s (fun t => t.cl.epHost = false ∧ t.cl.up.early = [] ∧ (srcLevel s 21 = 3 → t.cl.down.unacked = [] ∧ t.pow.fieldSeen = none) ∧
      Begins s t (mapSrc s 21 (some (.lanes .host)) .hb 0))) ∧
  (Calm s → s.cl.epField = true → s.cl.epFieldAt + 1000000 * s.cl.fhLim ≤ s.elapsed → s.pow.wkdrop = 0 → srcLevel s 21 = 3 →
    Runs (.losslimExpiry .field) s (fun t => t.cl.epField = false ∧ t.cl.fhReport = true ∧ t.cl.fhAt = fieldNs s ∧ t.cl.up.unacked = [] ∧
      t.boot = s.boot ∧ RegsBut [] s t ∧ Only [.cl, .pins] s t))

-- ---------------------------------------------------------------- resets

/-- Every source of the reset map, from a device in Run (R611, R615, R616, R618 to R620, R633, R636 to R638, R663): it asserts at its level and
reach; power and brownout start their side cold; a pin holds as long as it is low. A source without a unit is never narrower than L2 (R619). A source that reaches HB while an NV
write runs is held off until the write ends; a power source is not, and a write that it tears is rolled back (R634, R635).
The model's readings it rests on: notes/assumptions/9.md, notes/assumptions/10.md, notes/assumptions/11.md, notes/assumptions/21.md. -/
def Obligations.ResetSources : Prop := ∀ (s : State), Calm s →
  let fires (c : Instr) (src : SrcOn) : Prop := Runs c s (fun t => Begins s t src)
  (∀ i : Nat, srcLevel s i = if mapLevel s i = 3 ∧ i ∉ [8, 9, 12, 18, 19, 21] then 2 else mapLevel s i) ∧
  let mapped (c : Instr) (no : Nat) (unit : Option Reach) (d : Die) (detail : Nat) : Prop := fires c (mapSrc s no unit d detail)
  (∀ b torn : Bool, Runs (.powerOn .host b torn) s (fun t => Begins s { t with nv := s.nv } (powerSrc 0 .host) ∧ t.boot.bootsel = b ∧
    t.nv = { s.nv with busyUntil := 0 } ∧ t.qmem = s.qmem)) ∧
  (∀ b torn : Bool, Runs (.powerOn .field b torn) s (fun t => Begins s t (powerSrc 3 .field) ∧ t.qmem = [] ∧ t.ctxs = [])) ∧
  (∀ r : Rail, fires (.brownout .field r) (powerSrc (brownoutNo .field r) .field)) ∧
  (∀ r : Rail, Runs (.brownout .host r) s (fun t => Begins s { t with nv := s.nv } (powerSrc (brownoutNo .host r) .host) ∧
    t.nv = { s.nv with busyUntil := 0 })) ∧
  (∀ d : Nat, 0 < d → let b := { s with nv := { s.nv with busyUntil := s.elapsed + d } }
    (∀ bs : Bool, Runs (.powerOn .host bs true) b (fun t => t.nv = { s.nvOld with busyUntil := 0 } ∧ flag t R.RST_BOOT F.RST_BOOT_ROLLBACK = true)) ∧
    (∀ r : Rail, Runs (.brownout .host r) b (fun t => ∃ torn : Bool,
      t.nv = { (if torn then s.nvOld else s.nv) with busyUntil := 0 } ∧ flag t R.RST_BOOT F.RST_BOOT_ROLLBACK = torn))) ∧
  (s.boot.hrst = false → fires (.resetPin .host true) { mapSrc s 6 none .hb 0 with on := true }) ∧
  (s.boot.frst = false → fires (.resetPin .field true) { mapSrc s 7 none .fh 0 with on := true }) ∧
  (flag s R.RST_WDT F.RST_WDT_HBEN = true → mapped (.watchdog .hb) 8 (some .hbCore) .hb 0) ∧
  (flag s R.RST_WDT F.RST_WDT_FHEN = true → mapped (.watchdog .fh) 9 (some .fhCtl) .fh 0) ∧
  (∀ t : TileNo, tileOut s t = true →
    (flag s R.RST_WDT F.RST_WDT_FTEN = true → mapped (.watchdog (.tile t)) 10 none (.tile t) 0) ∧ mapped (.ftfault t) 11 none (.tile t) 0) ∧
  (∀ n : PortNo, portUp s n.val = true → mapped (.portfault n) 12 (some (.port n)) (.tile (portTile n)) n.val) ∧
  mapped .lsfh 19 (some .fhCtl) .fh 0 ∧ mapped .lshb 18 (some .hbCore) .hb 0 ∧
  (∀ k : CtxNo, mapped (.dbectx k) 13 none .fh k.val) ∧
  (∀ p : Partner, srcLevel s 15 ≠ 0 →
    let a := R.P_KEY p.val
    Runs (.dbecfg .host [wordOf a]) s (fun t => Begins s t (mapSrc s 15 none .hb 0) ∧ reg t a = regCold a)) ∧
  (∀ n : PortNo, srcLevel s 14 ≠ 0 →
    let a := R.FP_SS n.val
    Runs (.dbecfg .field [wordOf a]) s (fun t => Begins s t (mapSrc s 14 none .fh 0) ∧ reg t a = regCold a)) ∧
  mapped (.dbecfg .host []) 15 none .hb 0 ∧ mapped (.dbecfg .field []) 14 none .fh 0 ∧
  mapped (.timebaseParity .host) 16 none .hb 0 ∧
  Runs (.timebaseParity .field) s (fun t => Begins s t (mapSrc s 17 none .fh 0) ∧ fState t = 0) ∧
  (∀ w : Word, ∀ r, resetReach w = some r →
    (fuseBit s 3 = false → srcLevel s 25 ≤ rsLevel w → (∀ e : Fin 17, r = .engine e → engState s e.val ≠ 2) → fires (.jtagReset w) { resetSource 25 w r with detail := detailOf r }) ∧
    (∀ (p : Partner) (tag : BitVec 16) (left : Nat), s.boot.resets = [{ port := p.val, tag := tag, word := w, leftAt := some left }] → left + 20000 ≤ s.elapsed →
      fires .resetCommandAssert { resetSource 24 w r with detail := detailOf r })) ∧
  (∀ d : Nat, 0 < d → flag s R.RST_WDT F.RST_WDT_HBEN = true → srcLevel s 8 = 2 →
    let b := { s with nv := { s.nv with busyUntil := s.elapsed + d } }
    Runs (.watchdog .hb) b (fun t => t.boot.heldSrcs = [mapSrc s 8 (some .hbCore) .hb 0] ∧ t.boot.episodes = [] ∧ Counted s t R.RST_CNT_HOLDOFF 1 ∧
      RegsBut [R.RST_CNT_HOLDOFF] s t ∧ Only [.regs, .boot, .pins] b t)) ∧
  (srcLevel s 8 = 2 →
    let c := mapSrc s 8 (some .hbCore) .hb 0
    Runs .nvWriteEnd { s with boot := { s.boot with heldSrcs := [c] } } (fun t =>
      t.boot.episodes = [{ srcs := [c], heldOff := true, began := episodeTime s }] ∧ t.boot.inReset = [.hb] ∧ t.boot.heldSrcs = [] ∧ reg t R.RST_CAUSE = wordOf (2 ^ 8)))

/-- The last source releases, and the dies leave reset (R525, R612, R614, R620, R631, R660, R664): a pin that goes high releases its source; HB
leaves with its registers at their Warm values, its accepted counters at their bounds and its starts counted; a cold field side awaits the host. The fault log
takes an entry.
The model's readings it rests on: notes/assumptions/10.md. -/
def Obligations.Releases : Prop := ∀ (s : State) (e : Episode) (c : SrcOn), Quiet s → s.boot.episodes = [e] → e.srcs = [c] →
  (c.no = 6 → c.on = true → s.boot.hrst = true → s.boot.heldSrcs = [] →
    Runs (.resetPin .host false) s (fun t => t.boot = { s.boot with hrst := false, episodes := [{ e with srcs := [{ c with on := false }] }] } ∧
      RegsBut [] s t ∧ Only [.boot, .pins] s t)) ∧
  (c.on = false →
    let logged (t : State) : Prop := t.nv.flogCount = min (s.nv.flogCount + 1) 1024 ∧ t.nv.flogHead = (s.nv.flogHead + 1) % 1024 ∧
      (tabGet (fun _ => {}) t.nv.flog s.nv.flogHead).w2 = wordOf (2 ^ c.no)
    (c.level = 2 → c.cold = false → c.reach = .die .hb → c.no ≠ 13 → s.nv.trial = false → (s.regs.map (·.1)).Nodup →
      Runs .resetRelease s (fun t => t.boot.episodes = [] ∧ t.boot.inReset = [] ∧ t.nv.bootcnt = s.nv.bootcnt + 1 ∧ t.nv.minSeq = s.nv.minSeq ∧
        (∀ p : Partner, (partGet t p.val).lastCtr = nvBound s p.val) ∧
        (∀ a, a < 0x100000 → a ∈ s.regs.map (·.1) → a ≠ R.CL_STAT → reg t a = warmWord a (reg s a)) ∧
        (∀ a, 0x100000 ≤ a → (blockAt a).kind ≠ .tmr → reg t a = reg s a) ∧ t.ctxs = s.ctxs ∧ t.qmem = s.qmem ∧ t.tr = s.tr ∧ logged t)) ∧
    (c.level = 0 → c.cold = true → c.reach = .side .field → c.no ≠ 13 →
      Runs .resetRelease s (fun t => t.boot.episodes = [] ∧ t.boot.inReset = [] ∧ fld t R.GLB_BOOTSTAT F.GLB_BOOTSTAT_FSIDE = 1 ∧
        t.nv.bootcnt = s.nv.bootcnt ∧ t.part = s.part ∧ logged t)) ∧
    (c.level = 0 → c.cold = true → c.reach = .side .host → c.no ≠ 13 → s.nv.trial = false → s.pow.wkdrop = 0 →
      Runs .resetRelease s (fun t => t.boot.episodes = [] ∧ t.boot.inReset = [] ∧ fld t R.GLB_BOOTSTAT F.GLB_BOOTSTAT_STAGE = 0 ∧ t.boot.fused = false ∧
        t.nv.bootcnt = s.nv.bootcnt + 1 ∧ (∀ p : Partner, (partGet t p.val).lastCtr = nvBound s p.val) ∧
        (tabGet (fun _ => {}) t.nv.flog s.nv.flogHead).w0 = 0 ∧ logged t)))

/-- A start of the host side (R624, R625, R644, R647, R649, R651, R655, R660, R683): the fuses load, or hold the host side in reset until a retry finds
them good; pass 1 takes the ACTIVE slot, else the other, else LOADWAIT; pass 2 applies the image whose digest pass 1 had, or starts the
device cold; the field side's part runs once a lane is in service, and the image runs. FH counts its checkpoints.
The model's readings it rests on: notes/assumptions/12.md. -/
def Obligations.StartUp : Prop := ∀ (s : State), Quiet s →
  let stage (t : State) : Nat := fld t R.GLB_BOOTSTAT F.GLB_BOOTSTAT_STAGE
  let fside (t : State) : Nat := fld t R.GLB_BOOTSTAT F.GLB_BOOTSTAT_FSIDE
  Runs .coreCheckpoint s (Only [.pins] s) ∧
  (fhUp s = true → Runs .fhCheckpoint s (fun t =>
    fld t R.FH_LKSTAT F.FH_LKSTAT_CHKPTS = (fld s R.FH_LKSTAT F.FH_LKSTAT_CHKPTS + 1) % 65536 ∧ RegsBut [R.FH_LKSTAT] s t ∧ Only [.regs, .pins] s t)) ∧
  (s.boot.inReset.contains .hb = false → s.boot.hostHeld = false → s.boot.fused = false → stage s = 0 →
    let uid (t : State) : Prop := reg t R.GLB_UIDLO = fuseWord s 0 ∧ reg t R.GLB_UIDHI = fuseWord s 1
    (s.boot.bootsel = false → s.boot.imageFail = false →
      Runs (.fuseLoad []) s (fun t => uid t ∧ stage t = 1 ∧ t.boot = { s.boot with fused := true } ∧
        RegsBut [R.GLB_UIDLO, R.GLB_UIDHI, R.GLB_BOOTSTAT] s t ∧ Only [.regs, .boot, .pins] s t)) ∧
    (s.boot.bootsel = true ∨ s.boot.imageFail = true → fuseBit s 2 = false →
      Runs (.fuseLoad []) s (fun t => uid t ∧ inLoadWait t = true ∧ portEn t 2 = true ∧ reg t (R.P_SHP_CTL 2) = 0 ∧
        t.boot = { s.boot with fused := true, load := {}, imageFail := false } ∧ Only [.regs, .boot, .pins] s t)) ∧
    (s.boot.bootsel = true → fuseBit s 2 = true → Runs (.fuseLoad []) s (fun t => uid t ∧ stage t = 1 ∧ t.boot.hostHeld = true)) ∧
    (s.boot.episodes = [] → s.pow.host.st = .run → s.nv.busyUntil ≤ s.elapsed → ∀ (w : Nat) (ws : List Nat),
      Runs (.fuseLoad (w :: ws)) s (fun t => t.boot.inReset = [.hb] ∧ t.boot.fused = false ∧ reg t R.RST_CAUSE = wordOf (2 ^ 26) ∧
        t.boot.episodes.map (·.srcs) = [[{ no := 26, level := 0, reach := .side .host, on := true, detail := 0, cold := true }]]))) ∧
  (∀ e, s.boot.episodes = [e] → ∀ c, e.srcs = [c] → c.no = 26 → c.on = true → s.boot.heldSrcs = [] → s.boot.fuseAt + 100000000 ≤ s.elapsed →
    Runs (.fuseRetry []) s (fun t => t.boot = { s.boot with episodes := [{ e with srcs := [{ c with on := false }] }] } ∧ RegsBut [] s t ∧ Only [.boot, .pins] s t) ∧
    (∀ (w : Nat) (ws : List Nat), Runs (.fuseRetry (w :: ws)) s (fun t =>
      t.boot = { s.boot with fuseAt := s.elapsed } ∧ RegsBut [] s t ∧ Only [.boot, .pins] s t))) ∧
  (s.boot.fused = true → s.boot.hostHeld = false → s.boot.inReset.contains .hb = false → stage s ≤ 3 →
    let a := s.nv.active
    let takes (slot fb : Bool) : Prop := Runs .imagePass1 s (fun t =>
      let b := slotImage s slot
      stage t = 4 ∧ flag t R.GLB_BOOTSTAT F.GLB_BOOTSTAT_SLOT = slot ∧ flag t R.GLB_BOOTSTAT F.GLB_BOOTSTAT_FALLBACK = fb ∧
      fld t R.GLB_BOOTSTAT F.GLB_BOOTSTAT_ERR = 0 ∧ reg t R.GLB_IMGSEQ = wordOf (imgSeq b) ∧ reg t R.GLB_IMGVER = wordOf (imgVersion b) ∧
      t.boot.load.pass1 = some (sha256 b) ∧ RegsBut [R.GLB_BOOTSTAT, R.GLB_IMGSEQ, R.GLB_IMGVER] s t ∧ Only [.regs, .boot, .pins] s t)
    ((passSlot s a).1 = 0 → takes a false) ∧
    ((passSlot s a).1 ≠ 0 → slotExists s (!a) = true → (passSlot s (!a)).1 = 0 → takes (!a) true) ∧
    ((passSlot s a).1 ≠ 0 → slotExists s (!a) = false ∨ (passSlot s (!a)).1 ≠ 0 → fuseBit s 2 = false →
      Runs .imagePass1 s (fun t => inLoadWait t = true ∧ fld t R.GLB_BOOTSTAT F.GLB_BOOTSTAT_ERR = (passSlot s a).1 % 16 ∧ portEn t 2 = true ∧
        Only [.regs, .boot, .pins] s t))) ∧
  (stage s = 4 → s.boot.inReset.contains .hb = false →
    let b := slotImage s (flag s R.GLB_BOOTSTAT F.GLB_BOOTSTAT_SLOT)
    (s.boot.load.pass1 = some (sha256 b) → sectOf b kHOSTREG = [] → fside s = 3 →
      Runs .imagePass2 s (fun t => stage t = 6 ∧ flag t R.GLB_BOOTSTAT F.GLB_BOOTSTAT_FSEQDIFF = decide (s.boot.fieldSeq ≠ some (imgSeq b)) ∧
        t.boot = { s.boot with firmware := sectOf b kFIRMWARE, schedule := schedOf (sectOf b kSCHEDULE), load := {} } ∧
        RegsBut [R.GLB_BOOTSTAT] s t ∧ Only [.regs, .boot, .pins] s t)) ∧
    (s.boot.load.pass1 ≠ some (sha256 b) → Calm { setFld R.GLB_BOOTSTAT F.GLB_BOOTSTAT_FSIDE 3 (setFld R.GLB_BOOTSTAT F.GLB_BOOTSTAT_STAGE 6 s) with stalled := [] } →
      Runs .imagePass2 s (fun t => t.boot.inReset = allDies ∧ t.boot.imageFail = true ∧ reg t R.RST_CAUSE = wordOf (2 ^ 27) ∧ t.nv = s.nv))) ∧
  ((stage s = 5 ∨ stage s = 6) → anyLane s = true → fieldTakes s = true → s.boot.inReset.contains .hb = false →
    let slot := if stage s = 5 then flag s R.GLB_BOOTSTAT F.GLB_BOOTSTAT_SLOT else s.nv.active
    let b := if stage s = 5 ∧ flag s R.GLB_BOOTSTAT F.GLB_BOOTSTAT_SRC = true then s.boot.load.bytes else slotImage s slot
    (stage s = 5 ∧ flag s R.GLB_BOOTSTAT F.GLB_BOOTSTAT_SRC = true) ∨ (passSlot s slot).1 = 0 →
      sectOf b kFIELDREG = [] → sectOf b kCONTEXTS = [] → sectOf b kSUBS = [] →
      Runs .fieldLoad s (fun t => stage t = 6 ∧ fside t = 3 ∧ t.boot.fieldSeq = some (imgSeq b) ∧ t.boot.load = {} ∧
        (∀ k : CtxNo, cState s k.val = stStopped → flag s (R.CTX_CTL k.val) F.CTX_CTL_AUTOSTART = true → cState t k.val = stRunning) ∧
        (∀ k : CtxNo, cState s k.val ≠ stStopped ∨ flag s (R.CTX_CTL k.val) F.CTX_CTL_AUTOSTART = false → cState t k.val = cState s k.val)))

-- ---------------------------------------------------------------- sleep: entries and wakes

/-- An entry of a side (R360, R598, R679 to R683, R686, R697, R740): AP1 once the work in flight has completed, when bitstream ports stop, AP2 with the registers
saved for Deep sleep and Off, AP3 with the lanes parked or off and the field time latched or the links down, AP4 in the state asked for, with the banks held
and lost records counted; the limit of AP1 unwinds it; a wake in AP4's cycle follows it. A tile that may sleeps on its own and wakes (R674, R675).
The model's readings it rests on: notes/assumptions/37.md, notes/assumptions/38.md. -/
def Obligations.Entries : Prop := ∀ (x : Side) (s : State), Quiet s → sideOut s x = true →
  let d := sideGet s x
  let same (t : State) : Prop := sideGet t (if x = .host then .field else .host) = sideGet s (if x = .host then .field else .host)
  let deep := deepOrOff d.target
  (d.st = .entering →
    (d.ap = 0 → workDone s x = true →
      Runs (.ap1 x) s (fun t => sideGet t x = { d with ap := 1 } ∧ same t ∧
        (x = .host → deep = true → t.graft = none ∧ (∀ g, s.graft = some g → reg t R.GLB_GRF_LAST = wordOf (g.gid * 2 ^ 16 + stINTERNAL * 2 ^ 8 + 5 * 2 ^ 4))) ∧
        (x = .field → (∀ n : PortNo, portBit s n.val = true → flag s (R.FP_CTL n.val) F.FP_CTL_EN = true →
            flag t (R.FP_STAT n.val) F.FP_STAT_CLKOK = false ∧ (portGet t n.val).blk = false) ∧
          RegsBut ((List.range 48).map R.FP_STAT) s t ∧ Only [.regs, .ports, .pow, .pins] s t) ∧
        (x = .host → deep = false → RegsBut [] s t ∧ Only [.pow, .pins] s t))) ∧
    (d.ap = 0 → workDone s x = false → Runs (.ap1 x) s (Only [.pins] s)) ∧
    (d.ap = 1 → (x = .host ∨ deep = true) →
      Runs (.ap2 x) s (fun t => sideGet t x = { d with ap := 2, saved := if deep then s.regs.filter (fun e => sideAddr x e.1) else d.saved } ∧ same t ∧
        RegsBut [] s t ∧ Only [.pow, .pins] s t)) ∧
    (d.ap = 2 →
      Runs (.ap3 x) s (fun t => sideGet t x = { d with ap := 3 } ∧ same t ∧
        (deep = true → ∀ y : Lane, laneSt t y.val = lnOFF) ∧
        (deep = false → ∀ y : Lane, laneSt t y.val = if laneUp s y.val then lnPARKED else laneSt s y.val) ∧
        (x = .field → t.tm.v0 = t.tm.field ∧ t.tm.aoc0 = t.tm.aoc) ∧ (x = .host → ∀ e : EthNo, linkIsUp t e.val = false))) ∧
    (d.ap = 3 →
      Runs (.ap4 x false) s (fun t => (sideGet t x).st = d.target ∧ (sideGet t x).ap = 0 ∧ (sideGet t x).saved = d.saved ∧ same t ∧
        (deep = true → ∀ b, b ∈ allBanks → bankSide b = x → b ∈ t.pow.held) ∧ (deep = false → t.pow.held = s.pow.held) ∧
        (x = .field → (d.target = .off ∨ (d.target = .deep ∧ d.qret = false)) → 0 < lostRecords s →
          Counted s t R.PWR_CNT_QLOST (lostRecords s) ∧ flag t R.PWR_EVT F.PWR_EVT_QLOST = true) ∧
        (x = .host → RegsBut [] s t)) ∧
      (d.target = .sleep ∨ d.target = .deep →
        Runs (.ap4 x true) s (fun t => (sideGet t x).st = .waking ∧ (sideGet t x).from_ = d.target ∧ (sideGet t x).src = (if x = .host then 1 else 2) ∧ same t))) ∧
    (d.ap = 0 → d.apAt + 100000 * fld s R.PWR_CFG F.PWR_CFG_DRAIN ≤ s.elapsed →
      Runs (.drainLimit x) s (fun t => (sideGet t x).st = .run ∧ flag t R.PWR_EVT F.PWR_EVT_ABORT = true ∧
        fld t R.PWR_ABORT F.PWR_ABORT_AP0 = min (fld s R.PWR_ABORT F.PWR_ABORT_AP0 + 1) 255 ∧ same t ∧
        RegsBut [R.PWR_EVT, R.PWR_ABORT] s t ∧ Only [.regs, .pow, .pins] s t))) ∧
  (∀ n : TileNo, tileOut s n = true → tileIdle s n.val = true →
    Runs (.tileAutoSleep n) s (fun t => t.pow.autoSleep = s.pow.autoSleep ++ [n] ∧ tileAwake t n.val = false ∧ t.pow.cmdSleep = s.pow.cmdSleep ∧ t.ctxs = s.ctxs)) ∧
  (∀ n : TileNo, Runs (.tileAutoWake n) s (fun t => t.pow.autoSleep = s.pow.autoSleep.filter (fun y => y ≠ n) ∧ t.pow.cmdSleep = s.pow.cmdSleep ∧ t.ctxs = s.ctxs))

/-- Wakes (R360, R680, R687 to R696, R710), and what the power blocks do on their own (R690, R700, R702, R762): a wake pin, a host wake request or a schedule
entry starts a wake with its source; an entry unwinds; a request to a running host side raises HWAKE_OUT; a wake that completes shows its source
and time; a step's limit is tried once more, then is a wake failure of the regulator or a failed oscillator; readiness in its cycle wins.
The model's readings it rests on: notes/assumptions/13.md, notes/assumptions/38.md. -/
def Obligations.Wakes : Prop := ∀ (x : Side) (s : State), Quiet s → sideOut s x = true →
  let d := sideGet s x
  let pinSrc := if x = .host then 1 else 2
  let woken (src : Nat) (t : State) : Prop := sideGet t x = { d with
    st := .waking, from_ := d.st, src := src, regRetry := false, oscRetry := false, regAt := t.elapsed, oscAt := t.elapsed }
  let next (i : Fin 16) (e : SchedE) : Option Nat := nextOccurrence e (max (tabGet (fun _ => 0) s.boot.schedAt i.val) (ceilDiv (scheduleNs s) secNs))
  ((d.st = .sleep ∨ d.st = .deep) →
    Runs (.wakePin x) s (fun t => woken pinSrc t ∧ RegsBut [] s t ∧ Only [.pow, .pins] s t) ∧
    (x = .host → ∀ c : WakeClass, Runs (.hostWakeRequest c) s (fun t => woken (wakeClassOf c).2 t ∧ t.pow.hostReqs = s.pow.hostReqs ++ [(wakeClassOf c).1] ∧
      RegsBut [] s t ∧ Only [.pow, .pins] s t)) ∧
    (s.pow.field.st ≠ .off → s.pow.field.st ≠ .wakefail → ∀ i : Fin 16, ∀ e, s.boot.schedule[i.val]? = some e → s.pow.compare = none → (if x = .host then pwHreq e.req else pwFreq e.req) = 0 →
      ∀ n, next i e = some n →
      Runs (.scheduleOccurrence i) s (fun t => woken 6 t ∧ (masterRuns s = true → n * secNs ≤ masterNs t) ∧
        tabGet (fun _ => 0) t.boot.schedAt i.val = n + 1))) ∧
  (d.st = .run → Runs (.wakePin x) s (Only [.pins] s)) ∧
  (d.st = .entering → d.ap < 3 → s.pow.hostReqs = [] →
    Runs (.wakePin x) s (fun t => sideGet t x = { d with st := .run, ap := 0, saved := [] } ∧ flag t R.PWR_EVT F.PWR_EVT_ABORT = true ∧
      RegsBut [R.PWR_EVT, R.PWR_ABORT] s t ∧ Only [.regs, .pow, .pins] s t)) ∧
  (x = .host → ∀ c : WakeClass,
    (d.st = .off → Runs (.hostWakeRequest c) s (fun t => t.pow = { s.pow with wkdrop := s.pow.wkdrop + 1 } ∧ RegsBut [] s t ∧ Only [.pow, .pins] s t)) ∧
    (d.st = .run → s.pow.held.contains 8 = false →
      Runs (.hostWakeRequest c) s (fun t => 
        let on := bitOf (fld s R.PWR_HWCFG F.PWR_HWCFG_OUTMASK) (wakeClassOf c).1
        t.pow = { s.pow with hwakeOut := s.pow.hwakeOut || on, hwakeAt := if on && !s.pow.hwakeOut then s.elapsed else s.pow.hwakeAt } ∧
        RegsBut [] s t ∧ Only [.pow, .pins] s t))) ∧
  (d.st = .waking →
    (x = .field → d.from_ = .sleep → ∀ b : Bool, Runs (.wakeComplete x b) s (fun t => (sideGet t x).st = .run ∧ reg t R.PWR_LASTWAKE = wordOf (2 ^ 8 + d.src))) ∧
    (x = .host → d.from_ = .sleep → s.pow.field.st = .run → ∀ b : Bool,
      Runs (.wakeComplete x b) s (fun t => (sideGet t x).st = .run ∧ reg t R.PWR_LASTWAKE = wordOf (2 ^ 9 + d.src) ∧ t.pow.hostReqs = [] ∧ t.tm.firstSinceWake = true)) ∧
    (d.from_ = .deep → s.boot.episodes = [] → s.pow.field.st ≠ .wakefail → s.nv.busyUntil ≤ s.elapsed →
      Runs (.wakeComplete x true) s (fun t => t.boot.inReset.contains (if x = .host then .hb else .fh) = true)) ∧
    (d.regRetry = false → d.regAt + 2000000 ≤ s.elapsed →
      Runs (.wakeStepTimeout x .regulator false) s (fun t => sideGet t x = { d with regRetry := true, regAt := s.elapsed } ∧ RegsBut [] s t ∧ Only [.pow, .pins] s t)) ∧
    (d.regRetry = true → d.regAt + 2000000 ≤ s.elapsed → s.boot.episodes = [] → s.nv.busyUntil ≤ s.elapsed →
      Runs (.wakeStepTimeout x .regulator false) s (fun t => (sideGet t x).st = .wakefail ∧ reg t R.RST_CAUSE = wordOf (2 ^ wakefailNo x) ∧
        (x = .field → t.boot.wakeFailF = true ∧ flag t R.PWR_EVT F.PWR_EVT_WFREG = true) ∧ (x = .host → t.boot.hostHeld = true))) ∧
    Runs (.wakeStepTimeout x .regulator true) s (fun t => sideGet t x = d ∧ flag t R.PWR_EVT F.PWR_EVT_RACE = true)) ∧
  (d.onRc = true →
    (d.oscRetry = false → d.oscAt + 5000000 ≤ s.elapsed →
      Runs (.wakeStepTimeout x .oscillator false) s (fun t => sideGet t x = { d with oscRetry := true, oscAt := s.elapsed } ∧ RegsBut [] s t ∧ Only [.pow, .pins] s t)) ∧
    (d.oscRetry = true → Runs (.wakeStepTimeout x .oscillator false) s (fun t =>
      sideGet t x = { d with onRc := false, oscRetry := false } ∧ flag t R.PWR_EVT F.PWR_EVT_WFOSC = true ∧ flag t R.TB_STAT (oscFld x) = true))) ∧
  (∀ i : Fin 16, ∀ e, s.boot.schedule[i.val]? = some e → wakesBySchedule e = false → s.pow.host.st ≠ .run →
    ∀ n, next i e = some n →
    Runs (.scheduleOccurrence i) s (fun t => flag t R.PWR_EVT F.PWR_EVT_SCHSKIP = true ∧
      t.boot = { s.boot with schedAt := tabSet (fun _ => 0) s.boot.schedAt i.val (n + 1) } ∧
      RegsButTimers [R.PWR_EVT] s t ∧ Only (.boot :: clockParts) s t)) ∧
  (s.pow.hwakeAt + 1000000 * fld s R.PWR_HWCFG F.PWR_HWCFG_PWID ≤ s.elapsed →
   Runs .hwakeOutPulseEnd s (fun t => t.pow = { s.pow with hwakeOut := s.pow.hwakeOut && !flag s R.PWR_HWCFG F.PWR_HWCFG_MODE } ∧ RegsBut [] s t ∧
    Only [.pow, .pins] s t)) ∧
  (flag s R.PWR_AOC F.PWR_AOC_XTAL = true →
    (flag s R.PWR_AOC F.PWR_AOC_ONRC = false → Runs .aofail s (fun t => flag t R.PWR_AOC F.PWR_AOC_ONRC = true ∧ flag t R.PWR_EVT F.PWR_EVT_AOFAIL = true ∧
      RegsBut [R.PWR_AOC, R.PWR_EVT] s t ∧ Only [.regs, .pins] s t)) ∧
    (flag s R.PWR_AOC F.PWR_AOC_RETRY = true → Runs .aocCrystalReturn s (fun t => flag t R.PWR_AOC F.PWR_AOC_ONRC = false ∧ flag t R.PWR_AOC F.PWR_AOC_RETRY = false ∧
      RegsBut [R.PWR_AOC] s t ∧ Only [.regs, .pins] s t))) ∧
  (∀ b : Fin 3,
    Runs (.hostBankSupplyLoss b) s (fun t => (8 + b.val) ∈ t.pow.noSupply ∧ t.pow.held = s.pow.held ∧ RegsBut [] s t ∧ Only [.pow, .pins] s t) ∧
    Runs (.hostBankSupplyReturn b) s (fun t => (8 + b.val) ∉ t.pow.noSupply ∧ t.pow.held = s.pow.held ∧ RegsBut [] s t ∧ Only [.pow, .pins] s t))

-- ---------------------------------------------------------------- the machine

/-- A step with a command at the front of the queue is that command's effect on the state with the queue's rest. With none waiting, one 2 ns tick
passes, which no command row names (R299; the tick on an empty queue is the model's choice, notes/assumptions/5.md).
The model's readings it rests on: notes/assumptions/5.md. -/
def Obligations.StepRuns : Prop := ∀ (c : Instr) (s : State),
  step { s with pending := c :: s.pending } = exec c s ∧
  (s.pending = [] → s.waits = [] → ∃ t, step s = .next t ∧ t.elapsed = s.elapsed + 2 ∧ t.pending = [] ∧ TimePassed s t)

/-- A request's bytes say the request and nothing else does (R510): reading back what a request's frame spells gives that request, whatever its
opcode, flags, tag, address, reserved bits, counter, payload, Signet and CRC; and bytes that read as a request are that request's frame. -/
def Obligations.RequestBytes : Prop :=
  (∀ (op : Nat) (h : Hdr) (addr : Word) (payload : List Word), payload.length < 65536 →
    parseReq (reqBytes (reqOf op h addr payload)) = some (reqOf op h addr payload)) ∧
  (∀ (b : List Byte) (r : Req), parseReq b = some r → reqBytes r = b)

/-- No command and no tick ends the machine in a fault or a refusal, and after each the shared lines are as their sources say: HIRQ lines by the events
and their masks (R758), HFAULT_N (R617) and FFAULT_N (R658). -/
def Obligations.EveryStepSettles : Prop := ∀ (s : State), ∃ t, step s = .next t ∧ LinesFollow t

/-- The machine right after a cold reset: every register reads its Cold value (R12) but those that show the reset, whose first release has
not run; both timebases read zero (R298), nothing waits, no key is held and queue memory reads zero (the last two are the model's choice,
notes/assumptions/4.md), the shared lines are as their sources say.
The model's readings it rests on: notes/assumptions/4.md. -/
def Obligations.ResetState : Prop :=
  (∀ a, a ≠ R.RST_CAUSE → a ≠ R.RST_CAUSEACC → a ≠ R.RST_LAST → reg State.reset a = regCold a) ∧
  State.reset.pending = [] ∧ Quiet State.reset ∧ State.reset.tm.master = 0 ∧ State.reset.tm.field = 0 ∧ State.reset.graft = none ∧
  (∀ p, partGet State.reset p = {}) ∧ (∀ k : CtxNo, cState State.reset k.val = stFree) ∧ (∀ q, queueGet State.reset q = {}) ∧
  (∀ i, (keySlot State.reset i).key = none) ∧ (∀ off n, qmemRead State.reset off n = List.replicate n 0) ∧
  Memory.wf State.reset.qmem = true ∧ LinesFollow State.reset
end

