-- ==== Sys2Proof/Laws/Aes.lean ====
section
/-! SUPPORT. The tables of the S-box and of its inverse are what FIPS 197 defines, and each undoes the other. -/

namespace Sys2Proof.Machine

theorem aesSbox_table : ∀ a : Fin 256, aesSbox a.val = aesSboxOf a.val := by decide +kernel

theorem aesInvSbox_table : ∀ a : Fin 256, aesInvSbox a.val = aesInvSboxOf a.val := by decide +kernel

theorem aesInvSbox_aesSbox : ∀ a : Fin 256, aesInvSbox (aesSbox a.val) = a.val := by decide +kernel

end Sys2Proof.Machine
end

