-- ==== Sys2Proof/Laws/State.lean ====
section
/-! SUPPORT. One lemma per field of State per update of Machine/Ops.lean: what each update leaves alone. All are true by
unfolding and serve simp, so that no proof unfolds a record update. -/

namespace Sys2Proof.Machine

@[simp] theorem setReg_pending (a : Nat) (v : Word) (s : State) : (setReg a v s).pending = s.pending := rfl
@[simp] theorem setReg_fresh (a : Nat) (v : Word) (s : State) : (setReg a v s).fresh = s.fresh := rfl
@[simp] theorem setReg_elapsed (a : Nat) (v : Word) (s : State) : (setReg a v s).elapsed = s.elapsed := rfl
@[simp] theorem setReg_qmem (a : Nat) (v : Word) (s : State) : (setReg a v s).qmem = s.qmem := rfl
@[simp] theorem setReg_tm (a : Nat) (v : Word) (s : State) : (setReg a v s).tm = s.tm := rfl
@[simp] theorem setReg_tr (a : Nat) (v : Word) (s : State) : (setReg a v s).tr = s.tr := rfl
@[simp] theorem setReg_ctxs (a : Nat) (v : Word) (s : State) : (setReg a v s).ctxs = s.ctxs := rfl
@[simp] theorem setReg_ports (a : Nat) (v : Word) (s : State) : (setReg a v s).ports = s.ports := rfl
@[simp] theorem setReg_tiles (a : Nat) (v : Word) (s : State) : (setReg a v s).tiles = s.tiles := rfl
@[simp] theorem setReg_filt (a : Nat) (v : Word) (s : State) : (setReg a v s).filt = s.filt := rfl
@[simp] theorem setReg_sv (a : Nat) (v : Word) (s : State) : (setReg a v s).sv = s.sv := rfl
@[simp] theorem setReg_tmrs (a : Nat) (v : Word) (s : State) : (setReg a v s).tmrs = s.tmrs := rfl
@[simp] theorem setReg_tmrAt (a : Nat) (v : Word) (s : State) : (setReg a v s).tmrAt = s.tmrAt := rfl
@[simp] theorem setReg_frozen (a : Nat) (v : Word) (s : State) : (setReg a v s).frozen = s.frozen := rfl
@[simp] theorem setReg_snapSec (a : Nat) (v : Word) (s : State) : (setReg a v s).snapSec = s.snapSec := rfl
@[simp] theorem setReg_graft (a : Nat) (v : Word) (s : State) : (setReg a v s).graft = s.graft := rfl
@[simp] theorem setReg_waits (a : Nat) (v : Word) (s : State) : (setReg a v s).waits = s.waits := rfl
@[simp] theorem setReg_part (a : Nat) (v : Word) (s : State) : (setReg a v s).part = s.part := rfl
@[simp] theorem setReg_stalled (a : Nat) (v : Word) (s : State) : (setReg a v s).stalled = s.stalled := rfl
@[simp] theorem setReg_nv (a : Nat) (v : Word) (s : State) : (setReg a v s).nv = s.nv := rfl
@[simp] theorem setReg_nvOld (a : Nat) (v : Word) (s : State) : (setReg a v s).nvOld = s.nvOld := rfl
@[simp] theorem setReg_cl (a : Nat) (v : Word) (s : State) : (setReg a v s).cl = s.cl := rfl
@[simp] theorem setReg_boot (a : Nat) (v : Word) (s : State) : (setReg a v s).boot = s.boot := rfl
@[simp] theorem setReg_pow (a : Nat) (v : Word) (s : State) : (setReg a v s).pow = s.pow := rfl
@[simp] theorem setReg_pins (a : Nat) (v : Word) (s : State) : (setReg a v s).pins = s.pins := rfl
@[simp] theorem setReg_sent (a : Nat) (v : Word) (s : State) : (setReg a v s).sent = s.sent := rfl

@[simp] theorem setFld_pending (a : Nat) (f : Fld) (x : Nat) (s : State) : (setFld a f x s).pending = s.pending := rfl
@[simp] theorem setFld_fresh (a : Nat) (f : Fld) (x : Nat) (s : State) : (setFld a f x s).fresh = s.fresh := rfl
@[simp] theorem setFld_elapsed (a : Nat) (f : Fld) (x : Nat) (s : State) : (setFld a f x s).elapsed = s.elapsed := rfl
@[simp] theorem setFld_qmem (a : Nat) (f : Fld) (x : Nat) (s : State) : (setFld a f x s).qmem = s.qmem := rfl
@[simp] theorem setFld_tm (a : Nat) (f : Fld) (x : Nat) (s : State) : (setFld a f x s).tm = s.tm := rfl
@[simp] theorem setFld_tr (a : Nat) (f : Fld) (x : Nat) (s : State) : (setFld a f x s).tr = s.tr := rfl
@[simp] theorem setFld_ctxs (a : Nat) (f : Fld) (x : Nat) (s : State) : (setFld a f x s).ctxs = s.ctxs := rfl
@[simp] theorem setFld_ports (a : Nat) (f : Fld) (x : Nat) (s : State) : (setFld a f x s).ports = s.ports := rfl
@[simp] theorem setFld_tiles (a : Nat) (f : Fld) (x : Nat) (s : State) : (setFld a f x s).tiles = s.tiles := rfl
@[simp] theorem setFld_filt (a : Nat) (f : Fld) (x : Nat) (s : State) : (setFld a f x s).filt = s.filt := rfl
@[simp] theorem setFld_sv (a : Nat) (f : Fld) (x : Nat) (s : State) : (setFld a f x s).sv = s.sv := rfl
@[simp] theorem setFld_tmrs (a : Nat) (f : Fld) (x : Nat) (s : State) : (setFld a f x s).tmrs = s.tmrs := rfl
@[simp] theorem setFld_tmrAt (a : Nat) (f : Fld) (x : Nat) (s : State) : (setFld a f x s).tmrAt = s.tmrAt := rfl
@[simp] theorem setFld_frozen (a : Nat) (f : Fld) (x : Nat) (s : State) : (setFld a f x s).frozen = s.frozen := rfl
@[simp] theorem setFld_snapSec (a : Nat) (f : Fld) (x : Nat) (s : State) : (setFld a f x s).snapSec = s.snapSec := rfl
@[simp] theorem setFld_graft (a : Nat) (f : Fld) (x : Nat) (s : State) : (setFld a f x s).graft = s.graft := rfl
@[simp] theorem setFld_waits (a : Nat) (f : Fld) (x : Nat) (s : State) : (setFld a f x s).waits = s.waits := rfl
@[simp] theorem setFld_part (a : Nat) (f : Fld) (x : Nat) (s : State) : (setFld a f x s).part = s.part := rfl
@[simp] theorem setFld_stalled (a : Nat) (f : Fld) (x : Nat) (s : State) : (setFld a f x s).stalled = s.stalled := rfl
@[simp] theorem setFld_nv (a : Nat) (f : Fld) (x : Nat) (s : State) : (setFld a f x s).nv = s.nv := rfl
@[simp] theorem setFld_nvOld (a : Nat) (f : Fld) (x : Nat) (s : State) : (setFld a f x s).nvOld = s.nvOld := rfl
@[simp] theorem setFld_cl (a : Nat) (f : Fld) (x : Nat) (s : State) : (setFld a f x s).cl = s.cl := rfl
@[simp] theorem setFld_boot (a : Nat) (f : Fld) (x : Nat) (s : State) : (setFld a f x s).boot = s.boot := rfl
@[simp] theorem setFld_pow (a : Nat) (f : Fld) (x : Nat) (s : State) : (setFld a f x s).pow = s.pow := rfl
@[simp] theorem setFld_pins (a : Nat) (f : Fld) (x : Nat) (s : State) : (setFld a f x s).pins = s.pins := rfl
@[simp] theorem setFld_sent (a : Nat) (f : Fld) (x : Nat) (s : State) : (setFld a f x s).sent = s.sent := rfl

@[simp] theorem setFlag_pending (a : Nat) (f : Fld) (b : Bool) (s : State) : (setFlag a f b s).pending = s.pending := rfl
@[simp] theorem setFlag_fresh (a : Nat) (f : Fld) (b : Bool) (s : State) : (setFlag a f b s).fresh = s.fresh := rfl
@[simp] theorem setFlag_elapsed (a : Nat) (f : Fld) (b : Bool) (s : State) : (setFlag a f b s).elapsed = s.elapsed := rfl
@[simp] theorem setFlag_qmem (a : Nat) (f : Fld) (b : Bool) (s : State) : (setFlag a f b s).qmem = s.qmem := rfl
@[simp] theorem setFlag_tm (a : Nat) (f : Fld) (b : Bool) (s : State) : (setFlag a f b s).tm = s.tm := rfl
@[simp] theorem setFlag_tr (a : Nat) (f : Fld) (b : Bool) (s : State) : (setFlag a f b s).tr = s.tr := rfl
@[simp] theorem setFlag_ctxs (a : Nat) (f : Fld) (b : Bool) (s : State) : (setFlag a f b s).ctxs = s.ctxs := rfl
@[simp] theorem setFlag_ports (a : Nat) (f : Fld) (b : Bool) (s : State) : (setFlag a f b s).ports = s.ports := rfl
@[simp] theorem setFlag_tiles (a : Nat) (f : Fld) (b : Bool) (s : State) : (setFlag a f b s).tiles = s.tiles := rfl
@[simp] theorem setFlag_filt (a : Nat) (f : Fld) (b : Bool) (s : State) : (setFlag a f b s).filt = s.filt := rfl
@[simp] theorem setFlag_sv (a : Nat) (f : Fld) (b : Bool) (s : State) : (setFlag a f b s).sv = s.sv := rfl
@[simp] theorem setFlag_tmrs (a : Nat) (f : Fld) (b : Bool) (s : State) : (setFlag a f b s).tmrs = s.tmrs := rfl
@[simp] theorem setFlag_tmrAt (a : Nat) (f : Fld) (b : Bool) (s : State) : (setFlag a f b s).tmrAt = s.tmrAt := rfl
@[simp] theorem setFlag_frozen (a : Nat) (f : Fld) (b : Bool) (s : State) : (setFlag a f b s).frozen = s.frozen := rfl
@[simp] theorem setFlag_snapSec (a : Nat) (f : Fld) (b : Bool) (s : State) : (setFlag a f b s).snapSec = s.snapSec := rfl
@[simp] theorem setFlag_graft (a : Nat) (f : Fld) (b : Bool) (s : State) : (setFlag a f b s).graft = s.graft := rfl
@[simp] theorem setFlag_waits (a : Nat) (f : Fld) (b : Bool) (s : State) : (setFlag a f b s).waits = s.waits := rfl
@[simp] theorem setFlag_part (a : Nat) (f : Fld) (b : Bool) (s : State) : (setFlag a f b s).part = s.part := rfl
@[simp] theorem setFlag_stalled (a : Nat) (f : Fld) (b : Bool) (s : State) : (setFlag a f b s).stalled = s.stalled := rfl
@[simp] theorem setFlag_nv (a : Nat) (f : Fld) (b : Bool) (s : State) : (setFlag a f b s).nv = s.nv := rfl
@[simp] theorem setFlag_nvOld (a : Nat) (f : Fld) (b : Bool) (s : State) : (setFlag a f b s).nvOld = s.nvOld := rfl
@[simp] theorem setFlag_cl (a : Nat) (f : Fld) (b : Bool) (s : State) : (setFlag a f b s).cl = s.cl := rfl
@[simp] theorem setFlag_boot (a : Nat) (f : Fld) (b : Bool) (s : State) : (setFlag a f b s).boot = s.boot := rfl
@[simp] theorem setFlag_pow (a : Nat) (f : Fld) (b : Bool) (s : State) : (setFlag a f b s).pow = s.pow := rfl
@[simp] theorem setFlag_pins (a : Nat) (f : Fld) (b : Bool) (s : State) : (setFlag a f b s).pins = s.pins := rfl
@[simp] theorem setFlag_sent (a : Nat) (f : Fld) (b : Bool) (s : State) : (setFlag a f b s).sent = s.sent := rfl

@[simp] theorem evt_pending (a : Nat) (f : Fld) (s : State) : (evt a f s).pending = s.pending := rfl
@[simp] theorem evt_fresh (a : Nat) (f : Fld) (s : State) : (evt a f s).fresh = s.fresh := rfl
@[simp] theorem evt_elapsed (a : Nat) (f : Fld) (s : State) : (evt a f s).elapsed = s.elapsed := rfl
@[simp] theorem evt_qmem (a : Nat) (f : Fld) (s : State) : (evt a f s).qmem = s.qmem := rfl
@[simp] theorem evt_tm (a : Nat) (f : Fld) (s : State) : (evt a f s).tm = s.tm := rfl
@[simp] theorem evt_tr (a : Nat) (f : Fld) (s : State) : (evt a f s).tr = s.tr := rfl
@[simp] theorem evt_ctxs (a : Nat) (f : Fld) (s : State) : (evt a f s).ctxs = s.ctxs := rfl
@[simp] theorem evt_ports (a : Nat) (f : Fld) (s : State) : (evt a f s).ports = s.ports := rfl
@[simp] theorem evt_tiles (a : Nat) (f : Fld) (s : State) : (evt a f s).tiles = s.tiles := rfl
@[simp] theorem evt_filt (a : Nat) (f : Fld) (s : State) : (evt a f s).filt = s.filt := rfl
@[simp] theorem evt_sv (a : Nat) (f : Fld) (s : State) : (evt a f s).sv = s.sv := rfl
@[simp] theorem evt_tmrs (a : Nat) (f : Fld) (s : State) : (evt a f s).tmrs = s.tmrs := rfl
@[simp] theorem evt_tmrAt (a : Nat) (f : Fld) (s : State) : (evt a f s).tmrAt = s.tmrAt := rfl
@[simp] theorem evt_frozen (a : Nat) (f : Fld) (s : State) : (evt a f s).frozen = s.frozen := rfl
@[simp] theorem evt_snapSec (a : Nat) (f : Fld) (s : State) : (evt a f s).snapSec = s.snapSec := rfl
@[simp] theorem evt_graft (a : Nat) (f : Fld) (s : State) : (evt a f s).graft = s.graft := rfl
@[simp] theorem evt_waits (a : Nat) (f : Fld) (s : State) : (evt a f s).waits = s.waits := rfl
@[simp] theorem evt_part (a : Nat) (f : Fld) (s : State) : (evt a f s).part = s.part := rfl
@[simp] theorem evt_stalled (a : Nat) (f : Fld) (s : State) : (evt a f s).stalled = s.stalled := rfl
@[simp] theorem evt_nv (a : Nat) (f : Fld) (s : State) : (evt a f s).nv = s.nv := rfl
@[simp] theorem evt_nvOld (a : Nat) (f : Fld) (s : State) : (evt a f s).nvOld = s.nvOld := rfl
@[simp] theorem evt_cl (a : Nat) (f : Fld) (s : State) : (evt a f s).cl = s.cl := rfl
@[simp] theorem evt_boot (a : Nat) (f : Fld) (s : State) : (evt a f s).boot = s.boot := rfl
@[simp] theorem evt_pow (a : Nat) (f : Fld) (s : State) : (evt a f s).pow = s.pow := rfl
@[simp] theorem evt_pins (a : Nat) (f : Fld) (s : State) : (evt a f s).pins = s.pins := rfl
@[simp] theorem evt_sent (a : Nat) (f : Fld) (s : State) : (evt a f s).sent = s.sent := rfl

@[simp] theorem cntAdd_pending (a n : Nat) (s : State) : (cntAdd a n s).pending = s.pending := rfl
@[simp] theorem cntAdd_fresh (a n : Nat) (s : State) : (cntAdd a n s).fresh = s.fresh := rfl
@[simp] theorem cntAdd_elapsed (a n : Nat) (s : State) : (cntAdd a n s).elapsed = s.elapsed := rfl
@[simp] theorem cntAdd_qmem (a n : Nat) (s : State) : (cntAdd a n s).qmem = s.qmem := rfl
@[simp] theorem cntAdd_tm (a n : Nat) (s : State) : (cntAdd a n s).tm = s.tm := rfl
@[simp] theorem cntAdd_tr (a n : Nat) (s : State) : (cntAdd a n s).tr = s.tr := rfl
@[simp] theorem cntAdd_ctxs (a n : Nat) (s : State) : (cntAdd a n s).ctxs = s.ctxs := rfl
@[simp] theorem cntAdd_ports (a n : Nat) (s : State) : (cntAdd a n s).ports = s.ports := rfl
@[simp] theorem cntAdd_tiles (a n : Nat) (s : State) : (cntAdd a n s).tiles = s.tiles := rfl
@[simp] theorem cntAdd_filt (a n : Nat) (s : State) : (cntAdd a n s).filt = s.filt := rfl
@[simp] theorem cntAdd_sv (a n : Nat) (s : State) : (cntAdd a n s).sv = s.sv := rfl
@[simp] theorem cntAdd_tmrs (a n : Nat) (s : State) : (cntAdd a n s).tmrs = s.tmrs := rfl
@[simp] theorem cntAdd_tmrAt (a n : Nat) (s : State) : (cntAdd a n s).tmrAt = s.tmrAt := rfl
@[simp] theorem cntAdd_frozen (a n : Nat) (s : State) : (cntAdd a n s).frozen = s.frozen := rfl
@[simp] theorem cntAdd_snapSec (a n : Nat) (s : State) : (cntAdd a n s).snapSec = s.snapSec := rfl
@[simp] theorem cntAdd_graft (a n : Nat) (s : State) : (cntAdd a n s).graft = s.graft := rfl
@[simp] theorem cntAdd_waits (a n : Nat) (s : State) : (cntAdd a n s).waits = s.waits := rfl
@[simp] theorem cntAdd_part (a n : Nat) (s : State) : (cntAdd a n s).part = s.part := rfl
@[simp] theorem cntAdd_stalled (a n : Nat) (s : State) : (cntAdd a n s).stalled = s.stalled := rfl
@[simp] theorem cntAdd_nv (a n : Nat) (s : State) : (cntAdd a n s).nv = s.nv := rfl
@[simp] theorem cntAdd_nvOld (a n : Nat) (s : State) : (cntAdd a n s).nvOld = s.nvOld := rfl
@[simp] theorem cntAdd_cl (a n : Nat) (s : State) : (cntAdd a n s).cl = s.cl := rfl
@[simp] theorem cntAdd_boot (a n : Nat) (s : State) : (cntAdd a n s).boot = s.boot := rfl
@[simp] theorem cntAdd_pow (a n : Nat) (s : State) : (cntAdd a n s).pow = s.pow := rfl
@[simp] theorem cntAdd_pins (a n : Nat) (s : State) : (cntAdd a n s).pins = s.pins := rfl
@[simp] theorem cntAdd_sent (a n : Nat) (s : State) : (cntAdd a n s).sent = s.sent := rfl

@[simp] theorem cnt_pending (a : Nat) (s : State) : (cnt a s).pending = s.pending := rfl
@[simp] theorem cnt_fresh (a : Nat) (s : State) : (cnt a s).fresh = s.fresh := rfl
@[simp] theorem cnt_elapsed (a : Nat) (s : State) : (cnt a s).elapsed = s.elapsed := rfl
@[simp] theorem cnt_qmem (a : Nat) (s : State) : (cnt a s).qmem = s.qmem := rfl
@[simp] theorem cnt_tm (a : Nat) (s : State) : (cnt a s).tm = s.tm := rfl
@[simp] theorem cnt_tr (a : Nat) (s : State) : (cnt a s).tr = s.tr := rfl
@[simp] theorem cnt_ctxs (a : Nat) (s : State) : (cnt a s).ctxs = s.ctxs := rfl
@[simp] theorem cnt_ports (a : Nat) (s : State) : (cnt a s).ports = s.ports := rfl
@[simp] theorem cnt_tiles (a : Nat) (s : State) : (cnt a s).tiles = s.tiles := rfl
@[simp] theorem cnt_filt (a : Nat) (s : State) : (cnt a s).filt = s.filt := rfl
@[simp] theorem cnt_sv (a : Nat) (s : State) : (cnt a s).sv = s.sv := rfl
@[simp] theorem cnt_tmrs (a : Nat) (s : State) : (cnt a s).tmrs = s.tmrs := rfl
@[simp] theorem cnt_tmrAt (a : Nat) (s : State) : (cnt a s).tmrAt = s.tmrAt := rfl
@[simp] theorem cnt_frozen (a : Nat) (s : State) : (cnt a s).frozen = s.frozen := rfl
@[simp] theorem cnt_snapSec (a : Nat) (s : State) : (cnt a s).snapSec = s.snapSec := rfl
@[simp] theorem cnt_graft (a : Nat) (s : State) : (cnt a s).graft = s.graft := rfl
@[simp] theorem cnt_waits (a : Nat) (s : State) : (cnt a s).waits = s.waits := rfl
@[simp] theorem cnt_part (a : Nat) (s : State) : (cnt a s).part = s.part := rfl
@[simp] theorem cnt_stalled (a : Nat) (s : State) : (cnt a s).stalled = s.stalled := rfl
@[simp] theorem cnt_nv (a : Nat) (s : State) : (cnt a s).nv = s.nv := rfl
@[simp] theorem cnt_nvOld (a : Nat) (s : State) : (cnt a s).nvOld = s.nvOld := rfl
@[simp] theorem cnt_cl (a : Nat) (s : State) : (cnt a s).cl = s.cl := rfl
@[simp] theorem cnt_boot (a : Nat) (s : State) : (cnt a s).boot = s.boot := rfl
@[simp] theorem cnt_pow (a : Nat) (s : State) : (cnt a s).pow = s.pow := rfl
@[simp] theorem cnt_pins (a : Nat) (s : State) : (cnt a s).pins = s.pins := rfl
@[simp] theorem cnt_sent (a : Nat) (s : State) : (cnt a s).sent = s.sent := rfl

@[simp] theorem cntFld_pending (a : Nat) (f : Fld) (n : Nat) (s : State) : (cntFld a f n s).pending = s.pending := rfl
@[simp] theorem cntFld_fresh (a : Nat) (f : Fld) (n : Nat) (s : State) : (cntFld a f n s).fresh = s.fresh := rfl
@[simp] theorem cntFld_elapsed (a : Nat) (f : Fld) (n : Nat) (s : State) : (cntFld a f n s).elapsed = s.elapsed := rfl
@[simp] theorem cntFld_qmem (a : Nat) (f : Fld) (n : Nat) (s : State) : (cntFld a f n s).qmem = s.qmem := rfl
@[simp] theorem cntFld_tm (a : Nat) (f : Fld) (n : Nat) (s : State) : (cntFld a f n s).tm = s.tm := rfl
@[simp] theorem cntFld_tr (a : Nat) (f : Fld) (n : Nat) (s : State) : (cntFld a f n s).tr = s.tr := rfl
@[simp] theorem cntFld_ctxs (a : Nat) (f : Fld) (n : Nat) (s : State) : (cntFld a f n s).ctxs = s.ctxs := rfl
@[simp] theorem cntFld_ports (a : Nat) (f : Fld) (n : Nat) (s : State) : (cntFld a f n s).ports = s.ports := rfl
@[simp] theorem cntFld_tiles (a : Nat) (f : Fld) (n : Nat) (s : State) : (cntFld a f n s).tiles = s.tiles := rfl
@[simp] theorem cntFld_filt (a : Nat) (f : Fld) (n : Nat) (s : State) : (cntFld a f n s).filt = s.filt := rfl
@[simp] theorem cntFld_sv (a : Nat) (f : Fld) (n : Nat) (s : State) : (cntFld a f n s).sv = s.sv := rfl
@[simp] theorem cntFld_tmrs (a : Nat) (f : Fld) (n : Nat) (s : State) : (cntFld a f n s).tmrs = s.tmrs := rfl
@[simp] theorem cntFld_tmrAt (a : Nat) (f : Fld) (n : Nat) (s : State) : (cntFld a f n s).tmrAt = s.tmrAt := rfl
@[simp] theorem cntFld_frozen (a : Nat) (f : Fld) (n : Nat) (s : State) : (cntFld a f n s).frozen = s.frozen := rfl
@[simp] theorem cntFld_snapSec (a : Nat) (f : Fld) (n : Nat) (s : State) : (cntFld a f n s).snapSec = s.snapSec := rfl
@[simp] theorem cntFld_graft (a : Nat) (f : Fld) (n : Nat) (s : State) : (cntFld a f n s).graft = s.graft := rfl
@[simp] theorem cntFld_waits (a : Nat) (f : Fld) (n : Nat) (s : State) : (cntFld a f n s).waits = s.waits := rfl
@[simp] theorem cntFld_part (a : Nat) (f : Fld) (n : Nat) (s : State) : (cntFld a f n s).part = s.part := rfl
@[simp] theorem cntFld_stalled (a : Nat) (f : Fld) (n : Nat) (s : State) : (cntFld a f n s).stalled = s.stalled := rfl
@[simp] theorem cntFld_nv (a : Nat) (f : Fld) (n : Nat) (s : State) : (cntFld a f n s).nv = s.nv := rfl
@[simp] theorem cntFld_nvOld (a : Nat) (f : Fld) (n : Nat) (s : State) : (cntFld a f n s).nvOld = s.nvOld := rfl
@[simp] theorem cntFld_cl (a : Nat) (f : Fld) (n : Nat) (s : State) : (cntFld a f n s).cl = s.cl := rfl
@[simp] theorem cntFld_boot (a : Nat) (f : Fld) (n : Nat) (s : State) : (cntFld a f n s).boot = s.boot := rfl
@[simp] theorem cntFld_pow (a : Nat) (f : Fld) (n : Nat) (s : State) : (cntFld a f n s).pow = s.pow := rfl
@[simp] theorem cntFld_pins (a : Nat) (f : Fld) (n : Nat) (s : State) : (cntFld a f n s).pins = s.pins := rfl
@[simp] theorem cntFld_sent (a : Nat) (f : Fld) (n : Nat) (s : State) : (cntFld a f n s).sent = s.sent := rfl

@[simp] theorem partMod_pending (p : Nat) (f : PartnerS → PartnerS) (s : State) : (partMod p f s).pending = s.pending := rfl
@[simp] theorem partMod_fresh (p : Nat) (f : PartnerS → PartnerS) (s : State) : (partMod p f s).fresh = s.fresh := rfl
@[simp] theorem partMod_elapsed (p : Nat) (f : PartnerS → PartnerS) (s : State) : (partMod p f s).elapsed = s.elapsed := rfl
@[simp] theorem partMod_regs (p : Nat) (f : PartnerS → PartnerS) (s : State) : (partMod p f s).regs = s.regs := rfl
@[simp] theorem partMod_qmem (p : Nat) (f : PartnerS → PartnerS) (s : State) : (partMod p f s).qmem = s.qmem := rfl
@[simp] theorem partMod_tm (p : Nat) (f : PartnerS → PartnerS) (s : State) : (partMod p f s).tm = s.tm := rfl
@[simp] theorem partMod_tr (p : Nat) (f : PartnerS → PartnerS) (s : State) : (partMod p f s).tr = s.tr := rfl
@[simp] theorem partMod_ctxs (p : Nat) (f : PartnerS → PartnerS) (s : State) : (partMod p f s).ctxs = s.ctxs := rfl
@[simp] theorem partMod_ports (p : Nat) (f : PartnerS → PartnerS) (s : State) : (partMod p f s).ports = s.ports := rfl
@[simp] theorem partMod_tiles (p : Nat) (f : PartnerS → PartnerS) (s : State) : (partMod p f s).tiles = s.tiles := rfl
@[simp] theorem partMod_filt (p : Nat) (f : PartnerS → PartnerS) (s : State) : (partMod p f s).filt = s.filt := rfl
@[simp] theorem partMod_sv (p : Nat) (f : PartnerS → PartnerS) (s : State) : (partMod p f s).sv = s.sv := rfl
@[simp] theorem partMod_tmrs (p : Nat) (f : PartnerS → PartnerS) (s : State) : (partMod p f s).tmrs = s.tmrs := rfl
@[simp] theorem partMod_tmrAt (p : Nat) (f : PartnerS → PartnerS) (s : State) : (partMod p f s).tmrAt = s.tmrAt := rfl
@[simp] theorem partMod_frozen (p : Nat) (f : PartnerS → PartnerS) (s : State) : (partMod p f s).frozen = s.frozen := rfl
@[simp] theorem partMod_snapSec (p : Nat) (f : PartnerS → PartnerS) (s : State) : (partMod p f s).snapSec = s.snapSec := rfl
@[simp] theorem partMod_graft (p : Nat) (f : PartnerS → PartnerS) (s : State) : (partMod p f s).graft = s.graft := rfl
@[simp] theorem partMod_waits (p : Nat) (f : PartnerS → PartnerS) (s : State) : (partMod p f s).waits = s.waits := rfl
@[simp] theorem partMod_stalled (p : Nat) (f : PartnerS → PartnerS) (s : State) : (partMod p f s).stalled = s.stalled := rfl
@[simp] theorem partMod_nv (p : Nat) (f : PartnerS → PartnerS) (s : State) : (partMod p f s).nv = s.nv := rfl
@[simp] theorem partMod_nvOld (p : Nat) (f : PartnerS → PartnerS) (s : State) : (partMod p f s).nvOld = s.nvOld := rfl
@[simp] theorem partMod_cl (p : Nat) (f : PartnerS → PartnerS) (s : State) : (partMod p f s).cl = s.cl := rfl
@[simp] theorem partMod_boot (p : Nat) (f : PartnerS → PartnerS) (s : State) : (partMod p f s).boot = s.boot := rfl
@[simp] theorem partMod_pow (p : Nat) (f : PartnerS → PartnerS) (s : State) : (partMod p f s).pow = s.pow := rfl
@[simp] theorem partMod_pins (p : Nat) (f : PartnerS → PartnerS) (s : State) : (partMod p f s).pins = s.pins := rfl
@[simp] theorem partMod_sent (p : Nat) (f : PartnerS → PartnerS) (s : State) : (partMod p f s).sent = s.sent := rfl
@[simp] theorem partMod_reg (p : Nat) (f : PartnerS → PartnerS) (s : State) (b : Nat) : reg (partMod p f s) b = reg s b := rfl

@[simp] theorem queueMod_pending (q : Nat) (f : QueueS → QueueS) (s : State) : (queueMod q f s).pending = s.pending := rfl
@[simp] theorem queueMod_fresh (q : Nat) (f : QueueS → QueueS) (s : State) : (queueMod q f s).fresh = s.fresh := rfl
@[simp] theorem queueMod_elapsed (q : Nat) (f : QueueS → QueueS) (s : State) : (queueMod q f s).elapsed = s.elapsed := rfl
@[simp] theorem queueMod_regs (q : Nat) (f : QueueS → QueueS) (s : State) : (queueMod q f s).regs = s.regs := rfl
@[simp] theorem queueMod_qmem (q : Nat) (f : QueueS → QueueS) (s : State) : (queueMod q f s).qmem = s.qmem := rfl
@[simp] theorem queueMod_tm (q : Nat) (f : QueueS → QueueS) (s : State) : (queueMod q f s).tm = s.tm := rfl
@[simp] theorem queueMod_ctxs (q : Nat) (f : QueueS → QueueS) (s : State) : (queueMod q f s).ctxs = s.ctxs := rfl
@[simp] theorem queueMod_ports (q : Nat) (f : QueueS → QueueS) (s : State) : (queueMod q f s).ports = s.ports := rfl
@[simp] theorem queueMod_tiles (q : Nat) (f : QueueS → QueueS) (s : State) : (queueMod q f s).tiles = s.tiles := rfl
@[simp] theorem queueMod_filt (q : Nat) (f : QueueS → QueueS) (s : State) : (queueMod q f s).filt = s.filt := rfl
@[simp] theorem queueMod_sv (q : Nat) (f : QueueS → QueueS) (s : State) : (queueMod q f s).sv = s.sv := rfl
@[simp] theorem queueMod_tmrs (q : Nat) (f : QueueS → QueueS) (s : State) : (queueMod q f s).tmrs = s.tmrs := rfl
@[simp] theorem queueMod_tmrAt (q : Nat) (f : QueueS → QueueS) (s : State) : (queueMod q f s).tmrAt = s.tmrAt := rfl
@[simp] theorem queueMod_frozen (q : Nat) (f : QueueS → QueueS) (s : State) : (queueMod q f s).frozen = s.frozen := rfl
@[simp] theorem queueMod_snapSec (q : Nat) (f : QueueS → QueueS) (s : State) : (queueMod q f s).snapSec = s.snapSec := rfl
@[simp] theorem queueMod_graft (q : Nat) (f : QueueS → QueueS) (s : State) : (queueMod q f s).graft = s.graft := rfl
@[simp] theorem queueMod_waits (q : Nat) (f : QueueS → QueueS) (s : State) : (queueMod q f s).waits = s.waits := rfl
@[simp] theorem queueMod_part (q : Nat) (f : QueueS → QueueS) (s : State) : (queueMod q f s).part = s.part := rfl
@[simp] theorem queueMod_stalled (q : Nat) (f : QueueS → QueueS) (s : State) : (queueMod q f s).stalled = s.stalled := rfl
@[simp] theorem queueMod_nv (q : Nat) (f : QueueS → QueueS) (s : State) : (queueMod q f s).nv = s.nv := rfl
@[simp] theorem queueMod_nvOld (q : Nat) (f : QueueS → QueueS) (s : State) : (queueMod q f s).nvOld = s.nvOld := rfl
@[simp] theorem queueMod_cl (q : Nat) (f : QueueS → QueueS) (s : State) : (queueMod q f s).cl = s.cl := rfl
@[simp] theorem queueMod_boot (q : Nat) (f : QueueS → QueueS) (s : State) : (queueMod q f s).boot = s.boot := rfl
@[simp] theorem queueMod_pow (q : Nat) (f : QueueS → QueueS) (s : State) : (queueMod q f s).pow = s.pow := rfl
@[simp] theorem queueMod_pins (q : Nat) (f : QueueS → QueueS) (s : State) : (queueMod q f s).pins = s.pins := rfl
@[simp] theorem queueMod_sent (q : Nat) (f : QueueS → QueueS) (s : State) : (queueMod q f s).sent = s.sent := rfl
@[simp] theorem queueMod_reg (q : Nat) (f : QueueS → QueueS) (s : State) (b : Nat) : reg (queueMod q f s) b = reg s b := rfl

@[simp] theorem ctxMod_pending (k : Nat) (f : CtxS → CtxS) (s : State) : (ctxMod k f s).pending = s.pending := rfl
@[simp] theorem ctxMod_fresh (k : Nat) (f : CtxS → CtxS) (s : State) : (ctxMod k f s).fresh = s.fresh := rfl
@[simp] theorem ctxMod_elapsed (k : Nat) (f : CtxS → CtxS) (s : State) : (ctxMod k f s).elapsed = s.elapsed := rfl
@[simp] theorem ctxMod_regs (k : Nat) (f : CtxS → CtxS) (s : State) : (ctxMod k f s).regs = s.regs := rfl
@[simp] theorem ctxMod_qmem (k : Nat) (f : CtxS → CtxS) (s : State) : (ctxMod k f s).qmem = s.qmem := rfl
@[simp] theorem ctxMod_tm (k : Nat) (f : CtxS → CtxS) (s : State) : (ctxMod k f s).tm = s.tm := rfl
@[simp] theorem ctxMod_tr (k : Nat) (f : CtxS → CtxS) (s : State) : (ctxMod k f s).tr = s.tr := rfl
@[simp] theorem ctxMod_ports (k : Nat) (f : CtxS → CtxS) (s : State) : (ctxMod k f s).ports = s.ports := rfl
@[simp] theorem ctxMod_tiles (k : Nat) (f : CtxS → CtxS) (s : State) : (ctxMod k f s).tiles = s.tiles := rfl
@[simp] theorem ctxMod_filt (k : Nat) (f : CtxS → CtxS) (s : State) : (ctxMod k f s).filt = s.filt := rfl
@[simp] theorem ctxMod_sv (k : Nat) (f : CtxS → CtxS) (s : State) : (ctxMod k f s).sv = s.sv := rfl
@[simp] theorem ctxMod_tmrs (k : Nat) (f : CtxS → CtxS) (s : State) : (ctxMod k f s).tmrs = s.tmrs := rfl
@[simp] theorem ctxMod_tmrAt (k : Nat) (f : CtxS → CtxS) (s : State) : (ctxMod k f s).tmrAt = s.tmrAt := rfl
@[simp] theorem ctxMod_frozen (k : Nat) (f : CtxS → CtxS) (s : State) : (ctxMod k f s).frozen = s.frozen := rfl
@[simp] theorem ctxMod_snapSec (k : Nat) (f : CtxS → CtxS) (s : State) : (ctxMod k f s).snapSec = s.snapSec := rfl
@[simp] theorem ctxMod_graft (k : Nat) (f : CtxS → CtxS) (s : State) : (ctxMod k f s).graft = s.graft := rfl
@[simp] theorem ctxMod_waits (k : Nat) (f : CtxS → CtxS) (s : State) : (ctxMod k f s).waits = s.waits := rfl
@[simp] theorem ctxMod_part (k : Nat) (f : CtxS → CtxS) (s : State) : (ctxMod k f s).part = s.part := rfl
@[simp] theorem ctxMod_stalled (k : Nat) (f : CtxS → CtxS) (s : State) : (ctxMod k f s).stalled = s.stalled := rfl
@[simp] theorem ctxMod_nv (k : Nat) (f : CtxS → CtxS) (s : State) : (ctxMod k f s).nv = s.nv := rfl
@[simp] theorem ctxMod_nvOld (k : Nat) (f : CtxS → CtxS) (s : State) : (ctxMod k f s).nvOld = s.nvOld := rfl
@[simp] theorem ctxMod_cl (k : Nat) (f : CtxS → CtxS) (s : State) : (ctxMod k f s).cl = s.cl := rfl
@[simp] theorem ctxMod_boot (k : Nat) (f : CtxS → CtxS) (s : State) : (ctxMod k f s).boot = s.boot := rfl
@[simp] theorem ctxMod_pow (k : Nat) (f : CtxS → CtxS) (s : State) : (ctxMod k f s).pow = s.pow := rfl
@[simp] theorem ctxMod_pins (k : Nat) (f : CtxS → CtxS) (s : State) : (ctxMod k f s).pins = s.pins := rfl
@[simp] theorem ctxMod_sent (k : Nat) (f : CtxS → CtxS) (s : State) : (ctxMod k f s).sent = s.sent := rfl
@[simp] theorem ctxMod_reg (k : Nat) (f : CtxS → CtxS) (s : State) (b : Nat) : reg (ctxMod k f s) b = reg s b := rfl

@[simp] theorem portMod_pending (n : Nat) (f : PortS → PortS) (s : State) : (portMod n f s).pending = s.pending := rfl
@[simp] theorem portMod_fresh (n : Nat) (f : PortS → PortS) (s : State) : (portMod n f s).fresh = s.fresh := rfl
@[simp] theorem portMod_elapsed (n : Nat) (f : PortS → PortS) (s : State) : (portMod n f s).elapsed = s.elapsed := rfl
@[simp] theorem portMod_regs (n : Nat) (f : PortS → PortS) (s : State) : (portMod n f s).regs = s.regs := rfl
@[simp] theorem portMod_qmem (n : Nat) (f : PortS → PortS) (s : State) : (portMod n f s).qmem = s.qmem := rfl
@[simp] theorem portMod_tm (n : Nat) (f : PortS → PortS) (s : State) : (portMod n f s).tm = s.tm := rfl
@[simp] theorem portMod_tr (n : Nat) (f : PortS → PortS) (s : State) : (portMod n f s).tr = s.tr := rfl
@[simp] theorem portMod_ctxs (n : Nat) (f : PortS → PortS) (s : State) : (portMod n f s).ctxs = s.ctxs := rfl
@[simp] theorem portMod_tiles (n : Nat) (f : PortS → PortS) (s : State) : (portMod n f s).tiles = s.tiles := rfl
@[simp] theorem portMod_filt (n : Nat) (f : PortS → PortS) (s : State) : (portMod n f s).filt = s.filt := rfl
@[simp] theorem portMod_sv (n : Nat) (f : PortS → PortS) (s : State) : (portMod n f s).sv = s.sv := rfl
@[simp] theorem portMod_tmrs (n : Nat) (f : PortS → PortS) (s : State) : (portMod n f s).tmrs = s.tmrs := rfl
@[simp] theorem portMod_tmrAt (n : Nat) (f : PortS → PortS) (s : State) : (portMod n f s).tmrAt = s.tmrAt := rfl
@[simp] theorem portMod_frozen (n : Nat) (f : PortS → PortS) (s : State) : (portMod n f s).frozen = s.frozen := rfl
@[simp] theorem portMod_snapSec (n : Nat) (f : PortS → PortS) (s : State) : (portMod n f s).snapSec = s.snapSec := rfl
@[simp] theorem portMod_graft (n : Nat) (f : PortS → PortS) (s : State) : (portMod n f s).graft = s.graft := rfl
@[simp] theorem portMod_waits (n : Nat) (f : PortS → PortS) (s : State) : (portMod n f s).waits = s.waits := rfl
@[simp] theorem portMod_part (n : Nat) (f : PortS → PortS) (s : State) : (portMod n f s).part = s.part := rfl
@[simp] theorem portMod_stalled (n : Nat) (f : PortS → PortS) (s : State) : (portMod n f s).stalled = s.stalled := rfl
@[simp] theorem portMod_nv (n : Nat) (f : PortS → PortS) (s : State) : (portMod n f s).nv = s.nv := rfl
@[simp] theorem portMod_nvOld (n : Nat) (f : PortS → PortS) (s : State) : (portMod n f s).nvOld = s.nvOld := rfl
@[simp] theorem portMod_cl (n : Nat) (f : PortS → PortS) (s : State) : (portMod n f s).cl = s.cl := rfl
@[simp] theorem portMod_boot (n : Nat) (f : PortS → PortS) (s : State) : (portMod n f s).boot = s.boot := rfl
@[simp] theorem portMod_pow (n : Nat) (f : PortS → PortS) (s : State) : (portMod n f s).pow = s.pow := rfl
@[simp] theorem portMod_pins (n : Nat) (f : PortS → PortS) (s : State) : (portMod n f s).pins = s.pins := rfl
@[simp] theorem portMod_sent (n : Nat) (f : PortS → PortS) (s : State) : (portMod n f s).sent = s.sent := rfl
@[simp] theorem portMod_reg (n : Nat) (f : PortS → PortS) (s : State) (b : Nat) : reg (portMod n f s) b = reg s b := rfl

@[simp] theorem tileMod_pending (t : Nat) (f : TileS → TileS) (s : State) : (tileMod t f s).pending = s.pending := rfl
@[simp] theorem tileMod_fresh (t : Nat) (f : TileS → TileS) (s : State) : (tileMod t f s).fresh = s.fresh := rfl
@[simp] theorem tileMod_elapsed (t : Nat) (f : TileS → TileS) (s : State) : (tileMod t f s).elapsed = s.elapsed := rfl
@[simp] theorem tileMod_regs (t : Nat) (f : TileS → TileS) (s : State) : (tileMod t f s).regs = s.regs := rfl
@[simp] theorem tileMod_qmem (t : Nat) (f : TileS → TileS) (s : State) : (tileMod t f s).qmem = s.qmem := rfl
@[simp] theorem tileMod_tm (t : Nat) (f : TileS → TileS) (s : State) : (tileMod t f s).tm = s.tm := rfl
@[simp] theorem tileMod_tr (t : Nat) (f : TileS → TileS) (s : State) : (tileMod t f s).tr = s.tr := rfl
@[simp] theorem tileMod_ctxs (t : Nat) (f : TileS → TileS) (s : State) : (tileMod t f s).ctxs = s.ctxs := rfl
@[simp] theorem tileMod_ports (t : Nat) (f : TileS → TileS) (s : State) : (tileMod t f s).ports = s.ports := rfl
@[simp] theorem tileMod_filt (t : Nat) (f : TileS → TileS) (s : State) : (tileMod t f s).filt = s.filt := rfl
@[simp] theorem tileMod_sv (t : Nat) (f : TileS → TileS) (s : State) : (tileMod t f s).sv = s.sv := rfl
@[simp] theorem tileMod_tmrs (t : Nat) (f : TileS → TileS) (s : State) : (tileMod t f s).tmrs = s.tmrs := rfl
@[simp] theorem tileMod_tmrAt (t : Nat) (f : TileS → TileS) (s : State) : (tileMod t f s).tmrAt = s.tmrAt := rfl
@[simp] theorem tileMod_frozen (t : Nat) (f : TileS → TileS) (s : State) : (tileMod t f s).frozen = s.frozen := rfl
@[simp] theorem tileMod_snapSec (t : Nat) (f : TileS → TileS) (s : State) : (tileMod t f s).snapSec = s.snapSec := rfl
@[simp] theorem tileMod_graft (t : Nat) (f : TileS → TileS) (s : State) : (tileMod t f s).graft = s.graft := rfl
@[simp] theorem tileMod_waits (t : Nat) (f : TileS → TileS) (s : State) : (tileMod t f s).waits = s.waits := rfl
@[simp] theorem tileMod_part (t : Nat) (f : TileS → TileS) (s : State) : (tileMod t f s).part = s.part := rfl
@[simp] theorem tileMod_stalled (t : Nat) (f : TileS → TileS) (s : State) : (tileMod t f s).stalled = s.stalled := rfl
@[simp] theorem tileMod_nv (t : Nat) (f : TileS → TileS) (s : State) : (tileMod t f s).nv = s.nv := rfl
@[simp] theorem tileMod_nvOld (t : Nat) (f : TileS → TileS) (s : State) : (tileMod t f s).nvOld = s.nvOld := rfl
@[simp] theorem tileMod_cl (t : Nat) (f : TileS → TileS) (s : State) : (tileMod t f s).cl = s.cl := rfl
@[simp] theorem tileMod_boot (t : Nat) (f : TileS → TileS) (s : State) : (tileMod t f s).boot = s.boot := rfl
@[simp] theorem tileMod_pow (t : Nat) (f : TileS → TileS) (s : State) : (tileMod t f s).pow = s.pow := rfl
@[simp] theorem tileMod_pins (t : Nat) (f : TileS → TileS) (s : State) : (tileMod t f s).pins = s.pins := rfl
@[simp] theorem tileMod_sent (t : Nat) (f : TileS → TileS) (s : State) : (tileMod t f s).sent = s.sent := rfl
@[simp] theorem tileMod_reg (t : Nat) (f : TileS → TileS) (s : State) (b : Nat) : reg (tileMod t f s) b = reg s b := rfl

@[simp] theorem filtMod_pending (j : Nat) (f : FiltS → FiltS) (s : State) : (filtMod j f s).pending = s.pending := rfl
@[simp] theorem filtMod_fresh (j : Nat) (f : FiltS → FiltS) (s : State) : (filtMod j f s).fresh = s.fresh := rfl
@[simp] theorem filtMod_elapsed (j : Nat) (f : FiltS → FiltS) (s : State) : (filtMod j f s).elapsed = s.elapsed := rfl
@[simp] theorem filtMod_regs (j : Nat) (f : FiltS → FiltS) (s : State) : (filtMod j f s).regs = s.regs := rfl
@[simp] theorem filtMod_qmem (j : Nat) (f : FiltS → FiltS) (s : State) : (filtMod j f s).qmem = s.qmem := rfl
@[simp] theorem filtMod_tm (j : Nat) (f : FiltS → FiltS) (s : State) : (filtMod j f s).tm = s.tm := rfl
@[simp] theorem filtMod_tr (j : Nat) (f : FiltS → FiltS) (s : State) : (filtMod j f s).tr = s.tr := rfl
@[simp] theorem filtMod_ctxs (j : Nat) (f : FiltS → FiltS) (s : State) : (filtMod j f s).ctxs = s.ctxs := rfl
@[simp] theorem filtMod_ports (j : Nat) (f : FiltS → FiltS) (s : State) : (filtMod j f s).ports = s.ports := rfl
@[simp] theorem filtMod_tiles (j : Nat) (f : FiltS → FiltS) (s : State) : (filtMod j f s).tiles = s.tiles := rfl
@[simp] theorem filtMod_sv (j : Nat) (f : FiltS → FiltS) (s : State) : (filtMod j f s).sv = s.sv := rfl
@[simp] theorem filtMod_tmrs (j : Nat) (f : FiltS → FiltS) (s : State) : (filtMod j f s).tmrs = s.tmrs := rfl
@[simp] theorem filtMod_tmrAt (j : Nat) (f : FiltS → FiltS) (s : State) : (filtMod j f s).tmrAt = s.tmrAt := rfl
@[simp] theorem filtMod_frozen (j : Nat) (f : FiltS → FiltS) (s : State) : (filtMod j f s).frozen = s.frozen := rfl
@[simp] theorem filtMod_snapSec (j : Nat) (f : FiltS → FiltS) (s : State) : (filtMod j f s).snapSec = s.snapSec := rfl
@[simp] theorem filtMod_graft (j : Nat) (f : FiltS → FiltS) (s : State) : (filtMod j f s).graft = s.graft := rfl
@[simp] theorem filtMod_waits (j : Nat) (f : FiltS → FiltS) (s : State) : (filtMod j f s).waits = s.waits := rfl
@[simp] theorem filtMod_part (j : Nat) (f : FiltS → FiltS) (s : State) : (filtMod j f s).part = s.part := rfl
@[simp] theorem filtMod_stalled (j : Nat) (f : FiltS → FiltS) (s : State) : (filtMod j f s).stalled = s.stalled := rfl
@[simp] theorem filtMod_nv (j : Nat) (f : FiltS → FiltS) (s : State) : (filtMod j f s).nv = s.nv := rfl
@[simp] theorem filtMod_nvOld (j : Nat) (f : FiltS → FiltS) (s : State) : (filtMod j f s).nvOld = s.nvOld := rfl
@[simp] theorem filtMod_cl (j : Nat) (f : FiltS → FiltS) (s : State) : (filtMod j f s).cl = s.cl := rfl
@[simp] theorem filtMod_boot (j : Nat) (f : FiltS → FiltS) (s : State) : (filtMod j f s).boot = s.boot := rfl
@[simp] theorem filtMod_pow (j : Nat) (f : FiltS → FiltS) (s : State) : (filtMod j f s).pow = s.pow := rfl
@[simp] theorem filtMod_pins (j : Nat) (f : FiltS → FiltS) (s : State) : (filtMod j f s).pins = s.pins := rfl
@[simp] theorem filtMod_sent (j : Nat) (f : FiltS → FiltS) (s : State) : (filtMod j f s).sent = s.sent := rfl
@[simp] theorem filtMod_reg (j : Nat) (f : FiltS → FiltS) (s : State) (b : Nat) : reg (filtMod j f s) b = reg s b := rfl

@[simp] theorem tmrMod_pending (j : Nat) (f : TmrS → TmrS) (s : State) : (tmrMod j f s).pending = s.pending := rfl
@[simp] theorem tmrMod_fresh (j : Nat) (f : TmrS → TmrS) (s : State) : (tmrMod j f s).fresh = s.fresh := rfl
@[simp] theorem tmrMod_elapsed (j : Nat) (f : TmrS → TmrS) (s : State) : (tmrMod j f s).elapsed = s.elapsed := rfl
@[simp] theorem tmrMod_regs (j : Nat) (f : TmrS → TmrS) (s : State) : (tmrMod j f s).regs = s.regs := rfl
@[simp] theorem tmrMod_qmem (j : Nat) (f : TmrS → TmrS) (s : State) : (tmrMod j f s).qmem = s.qmem := rfl
@[simp] theorem tmrMod_tm (j : Nat) (f : TmrS → TmrS) (s : State) : (tmrMod j f s).tm = s.tm := rfl
@[simp] theorem tmrMod_tr (j : Nat) (f : TmrS → TmrS) (s : State) : (tmrMod j f s).tr = s.tr := rfl
@[simp] theorem tmrMod_ctxs (j : Nat) (f : TmrS → TmrS) (s : State) : (tmrMod j f s).ctxs = s.ctxs := rfl
@[simp] theorem tmrMod_ports (j : Nat) (f : TmrS → TmrS) (s : State) : (tmrMod j f s).ports = s.ports := rfl
@[simp] theorem tmrMod_tiles (j : Nat) (f : TmrS → TmrS) (s : State) : (tmrMod j f s).tiles = s.tiles := rfl
@[simp] theorem tmrMod_filt (j : Nat) (f : TmrS → TmrS) (s : State) : (tmrMod j f s).filt = s.filt := rfl
@[simp] theorem tmrMod_sv (j : Nat) (f : TmrS → TmrS) (s : State) : (tmrMod j f s).sv = s.sv := rfl
@[simp] theorem tmrMod_tmrAt (j : Nat) (f : TmrS → TmrS) (s : State) : (tmrMod j f s).tmrAt = s.tmrAt := rfl
@[simp] theorem tmrMod_frozen (j : Nat) (f : TmrS → TmrS) (s : State) : (tmrMod j f s).frozen = s.frozen := rfl
@[simp] theorem tmrMod_snapSec (j : Nat) (f : TmrS → TmrS) (s : State) : (tmrMod j f s).snapSec = s.snapSec := rfl
@[simp] theorem tmrMod_graft (j : Nat) (f : TmrS → TmrS) (s : State) : (tmrMod j f s).graft = s.graft := rfl
@[simp] theorem tmrMod_waits (j : Nat) (f : TmrS → TmrS) (s : State) : (tmrMod j f s).waits = s.waits := rfl
@[simp] theorem tmrMod_part (j : Nat) (f : TmrS → TmrS) (s : State) : (tmrMod j f s).part = s.part := rfl
@[simp] theorem tmrMod_stalled (j : Nat) (f : TmrS → TmrS) (s : State) : (tmrMod j f s).stalled = s.stalled := rfl
@[simp] theorem tmrMod_nv (j : Nat) (f : TmrS → TmrS) (s : State) : (tmrMod j f s).nv = s.nv := rfl
@[simp] theorem tmrMod_nvOld (j : Nat) (f : TmrS → TmrS) (s : State) : (tmrMod j f s).nvOld = s.nvOld := rfl
@[simp] theorem tmrMod_cl (j : Nat) (f : TmrS → TmrS) (s : State) : (tmrMod j f s).cl = s.cl := rfl
@[simp] theorem tmrMod_boot (j : Nat) (f : TmrS → TmrS) (s : State) : (tmrMod j f s).boot = s.boot := rfl
@[simp] theorem tmrMod_pow (j : Nat) (f : TmrS → TmrS) (s : State) : (tmrMod j f s).pow = s.pow := rfl
@[simp] theorem tmrMod_pins (j : Nat) (f : TmrS → TmrS) (s : State) : (tmrMod j f s).pins = s.pins := rfl
@[simp] theorem tmrMod_sent (j : Nat) (f : TmrS → TmrS) (s : State) : (tmrMod j f s).sent = s.sent := rfl
@[simp] theorem tmrMod_reg (j : Nat) (f : TmrS → TmrS) (s : State) (b : Nat) : reg (tmrMod j f s) b = reg s b := rfl

@[simp] theorem svMod_pending (k : Nat) (f : SvCtx → SvCtx) (s : State) : (svMod k f s).pending = s.pending := rfl
@[simp] theorem svMod_fresh (k : Nat) (f : SvCtx → SvCtx) (s : State) : (svMod k f s).fresh = s.fresh := rfl
@[simp] theorem svMod_elapsed (k : Nat) (f : SvCtx → SvCtx) (s : State) : (svMod k f s).elapsed = s.elapsed := rfl
@[simp] theorem svMod_regs (k : Nat) (f : SvCtx → SvCtx) (s : State) : (svMod k f s).regs = s.regs := rfl
@[simp] theorem svMod_qmem (k : Nat) (f : SvCtx → SvCtx) (s : State) : (svMod k f s).qmem = s.qmem := rfl
@[simp] theorem svMod_tm (k : Nat) (f : SvCtx → SvCtx) (s : State) : (svMod k f s).tm = s.tm := rfl
@[simp] theorem svMod_tr (k : Nat) (f : SvCtx → SvCtx) (s : State) : (svMod k f s).tr = s.tr := rfl
@[simp] theorem svMod_ctxs (k : Nat) (f : SvCtx → SvCtx) (s : State) : (svMod k f s).ctxs = s.ctxs := rfl
@[simp] theorem svMod_ports (k : Nat) (f : SvCtx → SvCtx) (s : State) : (svMod k f s).ports = s.ports := rfl
@[simp] theorem svMod_tiles (k : Nat) (f : SvCtx → SvCtx) (s : State) : (svMod k f s).tiles = s.tiles := rfl
@[simp] theorem svMod_filt (k : Nat) (f : SvCtx → SvCtx) (s : State) : (svMod k f s).filt = s.filt := rfl
@[simp] theorem svMod_tmrs (k : Nat) (f : SvCtx → SvCtx) (s : State) : (svMod k f s).tmrs = s.tmrs := rfl
@[simp] theorem svMod_tmrAt (k : Nat) (f : SvCtx → SvCtx) (s : State) : (svMod k f s).tmrAt = s.tmrAt := rfl
@[simp] theorem svMod_frozen (k : Nat) (f : SvCtx → SvCtx) (s : State) : (svMod k f s).frozen = s.frozen := rfl
@[simp] theorem svMod_snapSec (k : Nat) (f : SvCtx → SvCtx) (s : State) : (svMod k f s).snapSec = s.snapSec := rfl
@[simp] theorem svMod_graft (k : Nat) (f : SvCtx → SvCtx) (s : State) : (svMod k f s).graft = s.graft := rfl
@[simp] theorem svMod_waits (k : Nat) (f : SvCtx → SvCtx) (s : State) : (svMod k f s).waits = s.waits := rfl
@[simp] theorem svMod_part (k : Nat) (f : SvCtx → SvCtx) (s : State) : (svMod k f s).part = s.part := rfl
@[simp] theorem svMod_stalled (k : Nat) (f : SvCtx → SvCtx) (s : State) : (svMod k f s).stalled = s.stalled := rfl
@[simp] theorem svMod_nv (k : Nat) (f : SvCtx → SvCtx) (s : State) : (svMod k f s).nv = s.nv := rfl
@[simp] theorem svMod_nvOld (k : Nat) (f : SvCtx → SvCtx) (s : State) : (svMod k f s).nvOld = s.nvOld := rfl
@[simp] theorem svMod_cl (k : Nat) (f : SvCtx → SvCtx) (s : State) : (svMod k f s).cl = s.cl := rfl
@[simp] theorem svMod_boot (k : Nat) (f : SvCtx → SvCtx) (s : State) : (svMod k f s).boot = s.boot := rfl
@[simp] theorem svMod_pow (k : Nat) (f : SvCtx → SvCtx) (s : State) : (svMod k f s).pow = s.pow := rfl
@[simp] theorem svMod_pins (k : Nat) (f : SvCtx → SvCtx) (s : State) : (svMod k f s).pins = s.pins := rfl
@[simp] theorem svMod_sent (k : Nat) (f : SvCtx → SvCtx) (s : State) : (svMod k f s).sent = s.sent := rfl
@[simp] theorem svMod_reg (k : Nat) (f : SvCtx → SvCtx) (s : State) (b : Nat) : reg (svMod k f s) b = reg s b := rfl

@[simp] theorem sentMod_pending (i : Nat) (f : SentS → SentS) (s : State) : (sentMod i f s).pending = s.pending := rfl
@[simp] theorem sentMod_fresh (i : Nat) (f : SentS → SentS) (s : State) : (sentMod i f s).fresh = s.fresh := rfl
@[simp] theorem sentMod_elapsed (i : Nat) (f : SentS → SentS) (s : State) : (sentMod i f s).elapsed = s.elapsed := rfl
@[simp] theorem sentMod_regs (i : Nat) (f : SentS → SentS) (s : State) : (sentMod i f s).regs = s.regs := rfl
@[simp] theorem sentMod_qmem (i : Nat) (f : SentS → SentS) (s : State) : (sentMod i f s).qmem = s.qmem := rfl
@[simp] theorem sentMod_tm (i : Nat) (f : SentS → SentS) (s : State) : (sentMod i f s).tm = s.tm := rfl
@[simp] theorem sentMod_tr (i : Nat) (f : SentS → SentS) (s : State) : (sentMod i f s).tr = s.tr := rfl
@[simp] theorem sentMod_ctxs (i : Nat) (f : SentS → SentS) (s : State) : (sentMod i f s).ctxs = s.ctxs := rfl
@[simp] theorem sentMod_ports (i : Nat) (f : SentS → SentS) (s : State) : (sentMod i f s).ports = s.ports := rfl
@[simp] theorem sentMod_tiles (i : Nat) (f : SentS → SentS) (s : State) : (sentMod i f s).tiles = s.tiles := rfl
@[simp] theorem sentMod_filt (i : Nat) (f : SentS → SentS) (s : State) : (sentMod i f s).filt = s.filt := rfl
@[simp] theorem sentMod_tmrs (i : Nat) (f : SentS → SentS) (s : State) : (sentMod i f s).tmrs = s.tmrs := rfl
@[simp] theorem sentMod_tmrAt (i : Nat) (f : SentS → SentS) (s : State) : (sentMod i f s).tmrAt = s.tmrAt := rfl
@[simp] theorem sentMod_frozen (i : Nat) (f : SentS → SentS) (s : State) : (sentMod i f s).frozen = s.frozen := rfl
@[simp] theorem sentMod_snapSec (i : Nat) (f : SentS → SentS) (s : State) : (sentMod i f s).snapSec = s.snapSec := rfl
@[simp] theorem sentMod_graft (i : Nat) (f : SentS → SentS) (s : State) : (sentMod i f s).graft = s.graft := rfl
@[simp] theorem sentMod_waits (i : Nat) (f : SentS → SentS) (s : State) : (sentMod i f s).waits = s.waits := rfl
@[simp] theorem sentMod_part (i : Nat) (f : SentS → SentS) (s : State) : (sentMod i f s).part = s.part := rfl
@[simp] theorem sentMod_stalled (i : Nat) (f : SentS → SentS) (s : State) : (sentMod i f s).stalled = s.stalled := rfl
@[simp] theorem sentMod_nv (i : Nat) (f : SentS → SentS) (s : State) : (sentMod i f s).nv = s.nv := rfl
@[simp] theorem sentMod_nvOld (i : Nat) (f : SentS → SentS) (s : State) : (sentMod i f s).nvOld = s.nvOld := rfl
@[simp] theorem sentMod_cl (i : Nat) (f : SentS → SentS) (s : State) : (sentMod i f s).cl = s.cl := rfl
@[simp] theorem sentMod_boot (i : Nat) (f : SentS → SentS) (s : State) : (sentMod i f s).boot = s.boot := rfl
@[simp] theorem sentMod_pow (i : Nat) (f : SentS → SentS) (s : State) : (sentMod i f s).pow = s.pow := rfl
@[simp] theorem sentMod_pins (i : Nat) (f : SentS → SentS) (s : State) : (sentMod i f s).pins = s.pins := rfl
@[simp] theorem sentMod_sent (i : Nat) (f : SentS → SentS) (s : State) : (sentMod i f s).sent = s.sent := rfl
@[simp] theorem sentMod_reg (i : Nat) (f : SentS → SentS) (s : State) (b : Nat) : reg (sentMod i f s) b = reg s b := rfl

@[simp] theorem pulseMod_pending (i : Nat) (f : PulseS → PulseS) (s : State) : (pulseMod i f s).pending = s.pending := rfl
@[simp] theorem pulseMod_fresh (i : Nat) (f : PulseS → PulseS) (s : State) : (pulseMod i f s).fresh = s.fresh := rfl
@[simp] theorem pulseMod_elapsed (i : Nat) (f : PulseS → PulseS) (s : State) : (pulseMod i f s).elapsed = s.elapsed := rfl
@[simp] theorem pulseMod_regs (i : Nat) (f : PulseS → PulseS) (s : State) : (pulseMod i f s).regs = s.regs := rfl
@[simp] theorem pulseMod_qmem (i : Nat) (f : PulseS → PulseS) (s : State) : (pulseMod i f s).qmem = s.qmem := rfl
@[simp] theorem pulseMod_tr (i : Nat) (f : PulseS → PulseS) (s : State) : (pulseMod i f s).tr = s.tr := rfl
@[simp] theorem pulseMod_ctxs (i : Nat) (f : PulseS → PulseS) (s : State) : (pulseMod i f s).ctxs = s.ctxs := rfl
@[simp] theorem pulseMod_ports (i : Nat) (f : PulseS → PulseS) (s : State) : (pulseMod i f s).ports = s.ports := rfl
@[simp] theorem pulseMod_tiles (i : Nat) (f : PulseS → PulseS) (s : State) : (pulseMod i f s).tiles = s.tiles := rfl
@[simp] theorem pulseMod_filt (i : Nat) (f : PulseS → PulseS) (s : State) : (pulseMod i f s).filt = s.filt := rfl
@[simp] theorem pulseMod_sv (i : Nat) (f : PulseS → PulseS) (s : State) : (pulseMod i f s).sv = s.sv := rfl
@[simp] theorem pulseMod_tmrs (i : Nat) (f : PulseS → PulseS) (s : State) : (pulseMod i f s).tmrs = s.tmrs := rfl
@[simp] theorem pulseMod_tmrAt (i : Nat) (f : PulseS → PulseS) (s : State) : (pulseMod i f s).tmrAt = s.tmrAt := rfl
@[simp] theorem pulseMod_frozen (i : Nat) (f : PulseS → PulseS) (s : State) : (pulseMod i f s).frozen = s.frozen := rfl
@[simp] theorem pulseMod_snapSec (i : Nat) (f : PulseS → PulseS) (s : State) : (pulseMod i f s).snapSec = s.snapSec := rfl
@[simp] theorem pulseMod_graft (i : Nat) (f : PulseS → PulseS) (s : State) : (pulseMod i f s).graft = s.graft := rfl
@[simp] theorem pulseMod_waits (i : Nat) (f : PulseS → PulseS) (s : State) : (pulseMod i f s).waits = s.waits := rfl
@[simp] theorem pulseMod_part (i : Nat) (f : PulseS → PulseS) (s : State) : (pulseMod i f s).part = s.part := rfl
@[simp] theorem pulseMod_stalled (i : Nat) (f : PulseS → PulseS) (s : State) : (pulseMod i f s).stalled = s.stalled := rfl
@[simp] theorem pulseMod_nv (i : Nat) (f : PulseS → PulseS) (s : State) : (pulseMod i f s).nv = s.nv := rfl
@[simp] theorem pulseMod_nvOld (i : Nat) (f : PulseS → PulseS) (s : State) : (pulseMod i f s).nvOld = s.nvOld := rfl
@[simp] theorem pulseMod_cl (i : Nat) (f : PulseS → PulseS) (s : State) : (pulseMod i f s).cl = s.cl := rfl
@[simp] theorem pulseMod_boot (i : Nat) (f : PulseS → PulseS) (s : State) : (pulseMod i f s).boot = s.boot := rfl
@[simp] theorem pulseMod_pow (i : Nat) (f : PulseS → PulseS) (s : State) : (pulseMod i f s).pow = s.pow := rfl
@[simp] theorem pulseMod_pins (i : Nat) (f : PulseS → PulseS) (s : State) : (pulseMod i f s).pins = s.pins := rfl
@[simp] theorem pulseMod_sent (i : Nat) (f : PulseS → PulseS) (s : State) : (pulseMod i f s).sent = s.sent := rfl
@[simp] theorem pulseMod_reg (i : Nat) (f : PulseS → PulseS) (s : State) (b : Nat) : reg (pulseMod i f s) b = reg s b := rfl

@[simp] theorem addSent_pending (x : Sent) (s : State) : (addSent x s).pending = s.pending := rfl
@[simp] theorem addSent_fresh (x : Sent) (s : State) : (addSent x s).fresh = s.fresh := rfl
@[simp] theorem addSent_elapsed (x : Sent) (s : State) : (addSent x s).elapsed = s.elapsed := rfl
@[simp] theorem addSent_regs (x : Sent) (s : State) : (addSent x s).regs = s.regs := rfl
@[simp] theorem addSent_qmem (x : Sent) (s : State) : (addSent x s).qmem = s.qmem := rfl
@[simp] theorem addSent_tm (x : Sent) (s : State) : (addSent x s).tm = s.tm := rfl
@[simp] theorem addSent_tr (x : Sent) (s : State) : (addSent x s).tr = s.tr := rfl
@[simp] theorem addSent_ctxs (x : Sent) (s : State) : (addSent x s).ctxs = s.ctxs := rfl
@[simp] theorem addSent_ports (x : Sent) (s : State) : (addSent x s).ports = s.ports := rfl
@[simp] theorem addSent_tiles (x : Sent) (s : State) : (addSent x s).tiles = s.tiles := rfl
@[simp] theorem addSent_filt (x : Sent) (s : State) : (addSent x s).filt = s.filt := rfl
@[simp] theorem addSent_sv (x : Sent) (s : State) : (addSent x s).sv = s.sv := rfl
@[simp] theorem addSent_tmrs (x : Sent) (s : State) : (addSent x s).tmrs = s.tmrs := rfl
@[simp] theorem addSent_tmrAt (x : Sent) (s : State) : (addSent x s).tmrAt = s.tmrAt := rfl
@[simp] theorem addSent_frozen (x : Sent) (s : State) : (addSent x s).frozen = s.frozen := rfl
@[simp] theorem addSent_snapSec (x : Sent) (s : State) : (addSent x s).snapSec = s.snapSec := rfl
@[simp] theorem addSent_graft (x : Sent) (s : State) : (addSent x s).graft = s.graft := rfl
@[simp] theorem addSent_waits (x : Sent) (s : State) : (addSent x s).waits = s.waits := rfl
@[simp] theorem addSent_part (x : Sent) (s : State) : (addSent x s).part = s.part := rfl
@[simp] theorem addSent_stalled (x : Sent) (s : State) : (addSent x s).stalled = s.stalled := rfl
@[simp] theorem addSent_nv (x : Sent) (s : State) : (addSent x s).nv = s.nv := rfl
@[simp] theorem addSent_nvOld (x : Sent) (s : State) : (addSent x s).nvOld = s.nvOld := rfl
@[simp] theorem addSent_cl (x : Sent) (s : State) : (addSent x s).cl = s.cl := rfl
@[simp] theorem addSent_boot (x : Sent) (s : State) : (addSent x s).boot = s.boot := rfl
@[simp] theorem addSent_pow (x : Sent) (s : State) : (addSent x s).pow = s.pow := rfl
@[simp] theorem addSent_pins (x : Sent) (s : State) : (addSent x s).pins = s.pins := rfl
@[simp] theorem addSent_reg (x : Sent) (s : State) (b : Nat) : reg (addSent x s) b = reg s b := rfl

@[simp] theorem settle_pending (s : State) : (settle s).pending = s.pending := rfl
@[simp] theorem settle_fresh (s : State) : (settle s).fresh = s.fresh := rfl
@[simp] theorem settle_elapsed (s : State) : (settle s).elapsed = s.elapsed := rfl
@[simp] theorem settle_regs (s : State) : (settle s).regs = s.regs := rfl
@[simp] theorem settle_qmem (s : State) : (settle s).qmem = s.qmem := rfl
@[simp] theorem settle_tm (s : State) : (settle s).tm = s.tm := rfl
@[simp] theorem settle_tr (s : State) : (settle s).tr = s.tr := rfl
@[simp] theorem settle_ctxs (s : State) : (settle s).ctxs = s.ctxs := rfl
@[simp] theorem settle_ports (s : State) : (settle s).ports = s.ports := rfl
@[simp] theorem settle_tiles (s : State) : (settle s).tiles = s.tiles := rfl
@[simp] theorem settle_filt (s : State) : (settle s).filt = s.filt := rfl
@[simp] theorem settle_sv (s : State) : (settle s).sv = s.sv := rfl
@[simp] theorem settle_tmrs (s : State) : (settle s).tmrs = s.tmrs := rfl
@[simp] theorem settle_tmrAt (s : State) : (settle s).tmrAt = s.tmrAt := rfl
@[simp] theorem settle_frozen (s : State) : (settle s).frozen = s.frozen := rfl
@[simp] theorem settle_snapSec (s : State) : (settle s).snapSec = s.snapSec := rfl
@[simp] theorem settle_graft (s : State) : (settle s).graft = s.graft := rfl
@[simp] theorem settle_waits (s : State) : (settle s).waits = s.waits := rfl
@[simp] theorem settle_part (s : State) : (settle s).part = s.part := rfl
@[simp] theorem settle_stalled (s : State) : (settle s).stalled = s.stalled := rfl
@[simp] theorem settle_nv (s : State) : (settle s).nv = s.nv := rfl
@[simp] theorem settle_nvOld (s : State) : (settle s).nvOld = s.nvOld := rfl
@[simp] theorem settle_cl (s : State) : (settle s).cl = s.cl := rfl
@[simp] theorem settle_boot (s : State) : (settle s).boot = s.boot := rfl
@[simp] theorem settle_pow (s : State) : (settle s).pow = s.pow := rfl
@[simp] theorem settle_sent (s : State) : (settle s).sent = s.sent := rfl
@[simp] theorem settle_reg (s : State) (b : Nat) : reg (settle s) b = reg s b := rfl

end Sys2Proof.Machine
end

