-- ==== Sys2Proof/Laws/Tab.lean ====
section
/-! SUPPORT. The laws of sparse tables: a read after a write, that a write leaves every other key alone, and that every
operation keeps the canonical form. -/

namespace Sys2Proof.Machine

variable {α : Type}

theorem tabGet_tabErase (d : Nat → α) (t : Tab α) (k j : Nat) :
    tabGet d (tabErase t k) j = if j = k then d k else tabGet d t j := by
  induction t with
  | nil => by_cases h : j = k <;> simp [tabErase, tabGet, h]
  | cons e rest ih =>
    obtain ⟨k', v⟩ := e
    by_cases hk : k = k'
    · subst hk
      by_cases hj : j = k
      · subst hj
        simpa [tabErase] using ih
      · simp [tabErase, tabGet, ih, hj]
    · by_cases hj : j = k'
      · subst hj
        simp [tabErase, tabGet, hk, Ne.symm hk]
      · simp [tabErase, tabGet, hk, hj, ih]

theorem tabGet_tabInsert (d : Nat → α) (t : Tab α) (k : Nat) (v : α) (j : Nat) :
    tabGet d (tabInsert t k v) j = if j = k then v else tabGet d t j := by
  induction t with
  | nil => simp [tabInsert, tabGet]
  | cons e rest ih =>
    obtain ⟨k', w⟩ := e
    by_cases hk : k = k'
    · subst hk
      by_cases hj : j = k <;> simp [tabInsert, tabGet, hj]
    · by_cases hlt : k < k'
      · by_cases hj : j = k <;> simp [tabInsert, tabGet, hk, hlt, hj]
      · by_cases hj : j = k'
        · subst hj
          simp [tabInsert, tabGet, hk, hlt, Ne.symm hk]
        · simp [tabInsert, tabGet, hk, hlt, hj, ih]

/-- A read after a write: the key written reads the value, every other key as before. -/
@[simp] theorem tabGet_tabSet [DecidableEq α] (d : Nat → α) (t : Tab α) (k : Nat) (v : α) (j : Nat) :
    tabGet d (tabSet d t k v) j = if j = k then v else tabGet d t j := by
  unfold tabSet
  split
  · next h => rw [tabGet_tabErase, h]
  · exact tabGet_tabInsert d t k v j

variable [DecidableEq α]

theorem tabWfFrom_mono (d : Nat → α) {lo lo' : Nat} (h : lo' ≤ lo) :
    ∀ t : Tab α, tabWfFrom d lo t = true → tabWfFrom d lo' t = true
  | [], _ => rfl
  | (k, v) :: rest, hw => by
    simp only [tabWfFrom, Bool.and_eq_true, decide_eq_true_eq] at hw ⊢
    exact ⟨⟨Nat.le_trans h hw.1.1, hw.1.2⟩, hw.2⟩

theorem tabWfFrom_erase (d : Nat → α) (k : Nat) :
    ∀ (lo : Nat) (t : Tab α), tabWfFrom d lo t = true → tabWfFrom d lo (tabErase t k) = true
  | _, [], _ => rfl
  | lo, (k', v) :: rest, hw => by
    simp only [tabWfFrom, Bool.and_eq_true, decide_eq_true_eq] at hw
    have ih := tabWfFrom_erase d k (k' + 1) rest hw.2
    by_cases hk : k = k'
    · simp only [tabErase, hk, if_true]
      have h1 : lo ≤ k' + 1 := Nat.le_succ_of_le hw.1.1
      exact tabWfFrom_mono d h1 _ (by rw [← hk] at ih ⊢; exact ih)
    · simp only [tabErase, hk, if_false, tabWfFrom, Bool.and_eq_true, decide_eq_true_eq]
      exact ⟨hw.1, ih⟩

theorem tabWfFrom_insert (d : Nat → α) (k : Nat) (v : α) (hv : v ≠ d k) :
    ∀ (lo : Nat) (t : Tab α), lo ≤ k → tabWfFrom d lo t = true → tabWfFrom d lo (tabInsert t k v) = true
  | lo, [], hlo, _ => by simp [tabInsert, tabWfFrom, hlo, hv]
  | lo, (k', w) :: rest, hlo, hw => by
    simp only [tabWfFrom, Bool.and_eq_true, decide_eq_true_eq] at hw
    by_cases hk : k = k'
    · subst hk
      simp [tabInsert, tabWfFrom, hlo, hv, hw.2]
    · by_cases hlt : k < k'
      · have : k + 1 ≤ k' := hlt
        simp [tabInsert, tabWfFrom, hk, hlt, hlo, hv, this, hw.1.2, hw.2]
      · have ih := tabWfFrom_insert d k v hv (k' + 1) rest (by omega) hw.2
        simp [tabInsert, tabWfFrom, hk, hlt, hw.1.1, hw.1.2, ih]

/-- A write keeps the canonical form. -/
theorem tabWf_tabSet (d : Nat → α) (t : Tab α) (k : Nat) (v : α) (h : tabWf d t = true) : tabWf d (tabSet d t k v) = true := by
  unfold tabWf tabSet at *
  split
  · exact tabWfFrom_erase d k 0 t h
  · next hv => exact tabWfFrom_insert d k v hv 0 t (Nat.zero_le _) h

theorem tabWfFrom_drop (d : Nat → α) (p : Nat → Bool) :
    ∀ (lo : Nat) (t : Tab α), tabWfFrom d lo t = true → tabWfFrom d lo (tabDrop p t) = true
  | _, [], _ => rfl
  | lo, (k, v) :: rest, hw => by
    simp only [tabWfFrom, Bool.and_eq_true, decide_eq_true_eq] at hw
    have ih := tabWfFrom_drop d p (k + 1) rest hw.2
    by_cases hp : p k = true
    · have h1 : tabDrop p ((k, v) :: rest) = tabDrop p rest := by simp [tabDrop, hp]
      rw [h1]
      exact tabWfFrom_mono d (by omega) _ ih
    · have h1 : tabDrop p ((k, v) :: rest) = (k, v) :: tabDrop p rest := by simp [tabDrop, hp]
      rw [h1]
      simp only [tabWfFrom, Bool.and_eq_true, decide_eq_true_eq]
      exact ⟨hw.1, ih⟩

/-- Dropping keys keeps the canonical form. -/
theorem tabWf_tabDrop (d : Nat → α) (p : Nat → Bool) (t : Tab α) (h : tabWf d t = true) : tabWf d (tabDrop p t) = true :=
  tabWfFrom_drop d p 0 t h

end Sys2Proof.Machine
end

