-- ==== Sys2Proof/Laws/Regs.lean ====
section
/-! SUPPORT. The laws of registers, fields and per-unit tables: a read after a write, and that a write leaves every other
register and unit alone. -/

namespace Sys2Proof.Machine

-- ---------------------------------------------------------------- registers

@[simp] theorem reg_setReg (a : Nat) (v : Word) (s : State) (b : Nat) :
    reg (setReg a v s) b = if b = a then v else reg s b := by
  simp [reg, setReg]

@[simp] theorem reg_setFld (a : Nat) (f : Fld) (x : Nat) (s : State) (b : Nat) :
    reg (setFld a f x s) b = if b = a then putFld (reg s a) f x else reg s b := by
  simp [setFld]

@[simp] theorem reg_setFlag (a : Nat) (f : Fld) (v : Bool) (s : State) (b : Nat) :
    reg (setFlag a f v s) b = if b = a then putFld (reg s a) f (b2n v) else reg s b := by
  simp [setFlag]

@[simp] theorem reg_evt (a : Nat) (f : Fld) (s : State) (b : Nat) :
    reg (evt a f s) b = if b = a then putFld (reg s a) f 1 else reg s b := by
  simp [evt]

@[simp] theorem reg_cntAdd (a n : Nat) (s : State) (b : Nat) :
    reg (cntAdd a n s) b = if b = a then BitVec.ofNat 32 (satAdd 32 (reg s a).toNat n) else reg s b := by
  simp [cntAdd]

@[simp] theorem reg_cnt (a : Nat) (s : State) (b : Nat) :
    reg (cnt a s) b = if b = a then BitVec.ofNat 32 (satAdd 32 (reg s a).toNat 1) else reg s b := by
  simp [cnt]

@[simp] theorem reg_cntFld (a : Nat) (f : Fld) (n : Nat) (s : State) (b : Nat) :
    reg (cntFld a f n s) b = if b = a then putFld (reg s a) f (satAdd f.w (fld s a f) n) else reg s b := by
  simp [cntFld]

/-- A register write keeps the canonical form of the register table. -/
theorem regs_wf_setReg (a : Nat) (v : Word) (s : State) (h : tabWf regCold s.regs = true) :
    tabWf regCold (setReg a v s).regs = true := tabWf_tabSet _ _ _ _ h

-- ---------------------------------------------------------------- fields

theorem getFld_lt (v : Word) (f : Fld) : getFld v f < 2 ^ f.w := Nat.mod_lt _ (Nat.two_pow_pos _)

/-- Bit i of a word with one field replaced. -/
theorem testBit_putFld (v : Word) (f : Fld) (x i : Nat) (hi : i < 32) :
    (putFld v f x).toNat.testBit i =
      if f.lo ≤ i ∧ i < f.lo + f.w then x.testBit (i - f.lo) else v.toNat.testBit i := by
  have hm : ((2 ^ f.w - 1) * 2 ^ f.lo).testBit i = (decide (f.lo ≤ i) && decide (i - f.lo < f.w)) := by
    rw [Nat.testBit_mul_two_pow, Nat.testBit_two_pow_sub_one]
  have hx : (x % 2 ^ f.w * 2 ^ f.lo).testBit i = (decide (f.lo ≤ i) && (decide (i - f.lo < f.w) && x.testBit (i - f.lo))) := by
    rw [Nat.testBit_mul_two_pow, Nat.testBit_mod_two_pow]
  rw [BitVec.testBit_toNat]
  simp only [putFld, Fld.mask, BitVec.getLsbD_or, BitVec.getLsbD_and, BitVec.getLsbD_not, BitVec.getLsbD_ofNat, hi,
    decide_true, Bool.true_and, hm, hx]
  rw [← BitVec.testBit_toNat]
  by_cases h1 : f.lo ≤ i
  · by_cases h2 : i - f.lo < f.w
    · have h3 : i < f.lo + f.w := by omega
      simp [h1, h2, h3]
    · have h3 : ¬ i < f.lo + f.w := by omega
      simp [h1, h2, h3]
  · simp [h1]

theorem testBit_getFld (v : Word) (f : Fld) (i : Nat) :
    (getFld v f).testBit i = (decide (i < f.w) && v.toNat.testBit (f.lo + i)) := by
  unfold getFld
  rw [Nat.testBit_mod_two_pow, Nat.testBit_div_two_pow, Nat.add_comm]

/-- The field just written reads the value, as many bits as it has. -/
@[simp] theorem getFld_putFld (v : Word) (f : Fld) (x : Nat) (h : f.lo + f.w ≤ 32) :
    getFld (putFld v f x) f = x % 2 ^ f.w := by
  apply Nat.eq_of_testBit_eq
  intro i
  rw [testBit_getFld, Nat.testBit_mod_two_pow]
  by_cases hi : i < f.w
  · rw [testBit_putFld _ _ _ _ (by omega)]
    simp [hi]
  · simp [hi]

/-- A field disjoint from the one written reads as before. -/
theorem getFld_putFld_ne (v : Word) (f g : Fld) (x : Nat) (hg : g.lo + g.w ≤ 32)
    (h : g.lo + g.w ≤ f.lo ∨ f.lo + f.w ≤ g.lo) : getFld (putFld v f x) g = getFld v g := by
  apply Nat.eq_of_testBit_eq
  intro i
  rw [testBit_getFld, testBit_getFld]
  by_cases hi : i < g.w
  · rw [testBit_putFld _ _ _ _ (by omega)]
    have : ¬ (f.lo ≤ g.lo + i ∧ g.lo + i < f.lo + f.w) := by omega
    simp [this]
  · simp [hi]

-- ---------------------------------------------------------------- lists of updates

@[simp] theorem onlyIf_true (f : State → State) (s : State) : onlyIf true f s = f s := rfl
@[simp] theorem onlyIf_false (f : State → State) (s : State) : onlyIf false f s = s := rfl
@[simp] theorem eachOf_nil {α : Type} (f : α → State → State) (s : State) : eachOf [] f s = s := rfl
@[simp] theorem eachOf_cons {α : Type} (x : α) (l : List α) (f : α → State → State) (s : State) :
    eachOf (x :: l) f s = eachOf l f (f x s) := rfl

/-- What every update of a list keeps, the list keeps. -/
theorem eachOf_keeps {α β : Type} (g : State → β) (f : α → State → State) (h : ∀ x s, g (f x s) = g s) (l : List α) (s : State) :
    g (eachOf l f s) = g s := by
  induction l generalizing s with
  | nil => rfl
  | cons x rest ih => rw [eachOf_cons, ih, h]

theorem clrFold_reg (l : List (Nat × Nat)) (v : Word) (s : State) (b : Nat) :
    reg (l.foldl (fun st (p : Nat × Nat) => if bitOf v.toNat p.2 then setReg p.1 0 st else st) s) b =
      if l.any (fun p => p.1 == b && bitOf v.toNat p.2) then 0 else reg s b := by
  induction l generalizing s with
  | nil => simp
  | cons p rest ih =>
    rw [List.foldl_cons, ih, List.any_cons]
    by_cases hr : rest.any (fun p => p.1 == b && bitOf v.toNat p.2) = true
    · simp [hr]
    · by_cases hp : bitOf v.toNat p.2 = true
      · by_cases hb : b = p.1
        · subst hb; simp [hr, hp]
        · have : (p.1 == b) = false := by simp [Ne.symm hb]
          simp [hr, hp, hb, this]
      · simp [hr, hp]

/-- A register is zeroed by a CLR word whose bit selects it; every other register reads as before (R40, R41). -/
theorem clrBits_reg (addrs : List Nat) (v : Word) (s : State) (b : Nat) :
    reg (clrBits addrs v s) b =
      if addrs.zipIdx.any (fun p => p.1 == b && bitOf v.toNat p.2) then 0 else reg s b := clrFold_reg _ _ _ _

theorem clrFold_keeps {β : Type} (g : State → β) (h : ∀ a s, g (setReg a 0 s) = g s) (l : List (Nat × Nat)) (v : Word) (s : State) :
    g (l.foldl (fun st (p : Nat × Nat) => if bitOf v.toNat p.2 then setReg p.1 0 st else st) s) = g s := by
  induction l generalizing s with
  | nil => rfl
  | cons p rest ih =>
    rw [List.foldl_cons, ih]
    split
    · exact h _ _
    · rfl

/-- A CLR word changes nothing but registers. -/
theorem clrBits_keeps (addrs : List Nat) (v : Word) (s : State) (r : Tab Word) :
    { clrBits addrs v s with regs := r } = { s with regs := r } :=
  clrFold_keeps (fun s => { s with regs := r }) (fun _ _ => rfl) _ _ _

-- ---------------------------------------------------------------- units

@[simp] theorem partGet_partMod (p : Nat) (f : PartnerS → PartnerS) (s : State) (j : Nat) :
    partGet (partMod p f s) j = if j = p then f (partGet s p) else partGet s j := by
  simp [partGet, partMod]

@[simp] theorem queueGet_queueMod (q : Nat) (f : QueueS → QueueS) (s : State) (j : Nat) :
    queueGet (queueMod q f s) j = if j = q then f (queueGet s q) else queueGet s j := by
  simp [queueGet, queueMod]

@[simp] theorem ctxGet_ctxMod (k : Nat) (f : CtxS → CtxS) (s : State) (j : Nat) :
    ctxGet (ctxMod k f s) j = if j = k then f (ctxGet s k) else ctxGet s j := by
  simp [ctxGet, ctxMod]

@[simp] theorem portGet_portMod (n : Nat) (f : PortS → PortS) (s : State) (j : Nat) :
    portGet (portMod n f s) j = if j = n then f (portGet s n) else portGet s j := by
  simp [portGet, portMod]

@[simp] theorem tileGet_tileMod (t : Nat) (f : TileS → TileS) (s : State) (j : Nat) :
    tileGet (tileMod t f s) j = if j = t then f (tileGet s t) else tileGet s j := by
  simp [tileGet, tileMod]

@[simp] theorem filtGet_filtMod (i : Nat) (f : FiltS → FiltS) (s : State) (j : Nat) :
    filtGet (filtMod i f s) j = if j = i then f (filtGet s i) else filtGet s j := by
  simp [filtGet, filtMod]

@[simp] theorem tmrGet_tmrMod (i : Nat) (f : TmrS → TmrS) (s : State) (j : Nat) :
    tmrGet (tmrMod i f s) j = if j = i then f (tmrGet s i) else tmrGet s j := by
  simp [tmrGet, tmrMod]

@[simp] theorem svGet_svMod (k : Nat) (f : SvCtx → SvCtx) (s : State) (j : Nat) :
    svGet (svMod k f s) j = if j = k then f (svGet s k) else svGet s j := by
  simp [svGet, svMod]

@[simp] theorem sentGet_sentMod (i : Nat) (f : SentS → SentS) (s : State) (j : Nat) :
    sentGet (sentMod i f s) j = if j = i then f (sentGet s i) else sentGet s j := by
  simp [sentGet, sentMod]

@[simp] theorem pulseGet_pulseMod (i : Nat) (f : PulseS → PulseS) (s : State) (j : Nat) :
    pulseGet (pulseMod i f s) j = if j = i then f (pulseGet s i) else pulseGet s j := by
  simp [pulseGet, pulseMod]

/-- A register write leaves every unit as it was. -/
@[simp] theorem partGet_setReg (a : Nat) (v : Word) (s : State) (p : Nat) : partGet (setReg a v s) p = partGet s p := rfl
@[simp] theorem queueGet_setReg (a : Nat) (v : Word) (s : State) (q : Nat) : queueGet (setReg a v s) q = queueGet s q := rfl
@[simp] theorem ctxGet_setReg (a : Nat) (v : Word) (s : State) (k : Nat) : ctxGet (setReg a v s) k = ctxGet s k := rfl
@[simp] theorem portGet_setReg (a : Nat) (v : Word) (s : State) (n : Nat) : portGet (setReg a v s) n = portGet s n := rfl
@[simp] theorem tileGet_setReg (a : Nat) (v : Word) (s : State) (t : Nat) : tileGet (setReg a v s) t = tileGet s t := rfl
@[simp] theorem filtGet_setReg (a : Nat) (v : Word) (s : State) (j : Nat) : filtGet (setReg a v s) j = filtGet s j := rfl
@[simp] theorem tmrGet_setReg (a : Nat) (v : Word) (s : State) (j : Nat) : tmrGet (setReg a v s) j = tmrGet s j := rfl
@[simp] theorem svGet_setReg (a : Nat) (v : Word) (s : State) (k : Nat) : svGet (setReg a v s) k = svGet s k := rfl

end Sys2Proof.Machine
end

