-- ==== Sys2Proof/Laws/Clock.lean ====
section
/-! SUPPORT. What the passage of time can change: elapsed time, both timebases and the always-on counter, and the timer channels of the
tiles with their registers. -/

namespace Sys2Proof.Machine

/-- `t` differs from `s` in timer channels and the registers of the tile timers alone. -/
def TimersOnly (s t : State) : Prop :=
  t = { s with regs := t.regs, tmrs := t.tmrs } ∧ ∀ a, (blockAt a).kind ≠ .tmr → reg t a = reg s a

/-- `t` differs from `s` in elapsed time, the timebases and what `TimersOnly` names. -/
def ClocksOnly (s t : State) : Prop :=
  t = { s with regs := t.regs, tmrs := t.tmrs, tmrAt := t.tmrAt, elapsed := t.elapsed
               tm := { s.tm with master := t.tm.master, field := t.tm.field, aoc := t.tm.aoc, aocFrac := t.tm.aocFrac } } ∧
  (∀ a, (blockAt a).kind ≠ .tmr → reg t a = reg s a) ∧ s.elapsed ≤ t.elapsed

theorem TimersOnly.refl (s : State) : TimersOnly s s := ⟨rfl, fun _ _ => rfl⟩

theorem TimersOnly.trans {s t u : State} (h : TimersOnly s t) (k : TimersOnly t u) : TimersOnly s u := by
  refine ⟨?_, fun a ha => (k.2 a ha).trans (h.2 a ha)⟩
  have e := k.1
  rw [h.1] at e
  exact e

theorem ClocksOnly.refl (s : State) : ClocksOnly s s := ⟨rfl, fun _ _ => rfl, Nat.le_refl _⟩

theorem timersOnly_reg (a : Nat) (v : Word) (s : State) (h : (blockAt a).kind = .tmr) : TimersOnly s (setReg a v s) := by
  refine ⟨rfl, fun b hb => ?_⟩
  rw [reg_setReg]
  split
  · next e => subst e; exact absurd h hb
  · rfl

theorem timersOnly_tmr (j : Nat) (f : TmrS → TmrS) (s : State) : TimersOnly s (tmrMod j f s) := ⟨rfl, fun _ _ => rfl⟩

theorem timersOnly_onlyIf (b : Bool) (f : State → State) (s : State) (h : TimersOnly s (f s)) : TimersOnly s (onlyIf b f s) := by
  cases b
  · exact .refl s
  · exact h

theorem timersOnly_ite {p : Prop} [Decidable p] {s x y : State} (hx : TimersOnly s x) (hy : TimersOnly s y) :
    TimersOnly s (if p then x else y) := by
  split
  · exact hx
  · exact hy

theorem timersOnly_eachOf {α : Type} (f : α → State → State) (l : List α) (s : State)
    (h : ∀ x ∈ l, ∀ s, TimersOnly s (f x s)) : TimersOnly s (eachOf l f s) := by
  induction l generalizing s with
  | nil => exact .refl s
  | cons x rest ih =>
    exact (h x (List.mem_cons_self ..) s).trans (ih _ (fun y hy => h y (List.mem_cons_of_mem _ hy)))

-- ---------------------------------------------------------------- the registers of a channel

theorem tmr_block : ∀ t : Fin 6, ∀ c : Fin 8,
    (blockAt (R.FT_TMC_CNT t.val c.val)).kind = .tmr ∧ (blockAt (R.FT_TMC_CMP t.val c.val)).kind = .tmr ∧
    (blockAt (R.FT_TMC_STAT t.val c.val)).kind = .tmr ∧ (blockAt (R.FT_TMC_EVT t.val c.val)).kind = .tmr ∧
    (blockAt (R.FT_TMC_MATCHES t.val c.val)).kind = .tmr := by decide

variable {t c : Nat}

theorem timersOnly_tmWr (a : Nat → Nat → Nat) (v : Nat) (s : State) (ha : (blockAt (a t c)).kind = .tmr)
    (hb : c % 2 = 0 → (blockAt (a t (c + 1))).kind = .tmr) : TimersOnly s (tmWr a t c v s) := by
  simp only [tmWr]
  split
  · next h =>
    have hc : c % 2 = 0 := by
      unfold tmLinked at h
      simp only [Bool.and_eq_true, beq_iff_eq] at h
      exact h.1
    exact (timersOnly_reg _ _ s ha).trans (timersOnly_reg _ _ _ (hb hc))
  · exact timersOnly_reg _ _ s ha

theorem timersOnly_cnt (v : Nat) (s : State) (ht : t < 6) (hc : c < 8) : TimersOnly s (tmWr R.FT_TMC_CNT t c v s) :=
  timersOnly_tmWr _ _ _ (tmr_block ⟨t, ht⟩ ⟨c, hc⟩).1 (fun h => (tmr_block ⟨t, ht⟩ ⟨c + 1, by omega⟩).1)

theorem timersOnly_cmp (v : Nat) (s : State) (ht : t < 6) (hc : c < 8) : TimersOnly s (tmWr R.FT_TMC_CMP t c v s) :=
  timersOnly_tmWr _ _ _ (tmr_block ⟨t, ht⟩ ⟨c, hc⟩).2.1 (fun h => (tmr_block ⟨t, ht⟩ ⟨c + 1, by omega⟩).2.1)

theorem timersOnly_update (m ov : Bool) (s : State) (ht : t < 6) (hc : c < 8) : TimersOnly s (tmUpdate t c m ov s) := by
  simp only [tmUpdate]
  split
  · exact (timersOnly_cmp _ s ht hc).trans (timersOnly_reg _ _ _ (tmr_block ⟨t, ht⟩ ⟨c, hc⟩).2.2.1)
  · split
    · exact timersOnly_cmp _ s ht hc
    · exact .refl s

theorem timersOnly_output (s : State) : TimersOnly s (tmOutput t c s) := by
  unfold tmOutput
  simp only
  split <;> first | exact timersOnly_tmr _ _ _ | exact .refl s

theorem timersOnly_step (d : Nat) (s : State) (ht : t < 6) (hc : c < 8) : TimersOnly s (tmStep t c d s) := by
  obtain ⟨_, _, _, he, hm⟩ := tmr_block ⟨t, ht⟩ ⟨c, hc⟩
  simp only [tmStep]
  exact (((timersOnly_cnt ((tmRd s R.FT_TMC_CNT t c + d) % tmMod s t c) s ht hc).trans
    (timersOnly_onlyIf _ _ _ (timersOnly_update _ _ _ ht hc))).trans (timersOnly_onlyIf _ _ _ (timersOnly_reg _ _ _ he))).trans
    (timersOnly_onlyIf _ _ _ (((timersOnly_reg _ _ _ he).trans (timersOnly_reg _ _ _ hm)).trans (timersOnly_output _)))

theorem timersOnly_pulse (n : Nat) (s : State) : TimersOnly s (tmPulse t c n s) := by
  unfold tmPulse
  split
  · exact .refl s
  · split <;> exact timersOnly_tmr _ _ _

theorem timersOnly_acc (v : Nat) (s : State) : TimersOnly s (tmSetAcc t c v s) := by
  unfold tmSetAcc
  split <;> exact timersOnly_tmr _ _ _

theorem timersOnly_glide (n : Nat) (s : State) (ht : t < 6) (hc : c < 8) : TimersOnly s (tmGlide t c n s) := by
  simp only [tmGlide]
  refine TimersOnly.trans ?_ ((timersOnly_acc _ _).trans (timersOnly_pulse _ _))
  split
  · exact .refl s
  · exact timersOnly_cnt _ s ht hc

theorem timersOnly_cycle (s : State) (ht : t < 6) (hc : c < 8) : TimersOnly s (tmCycle t c s) := by
  simp only [tmCycle]
  have h := (timersOnly_acc (t := t) (c := c) ((tmAcc s t c + (tmRate s t c).1) % (tmRate s t c).2) s).trans
    (timersOnly_pulse (t := t) (c := c) 1 _)
  split
  · exact h
  · exact h.trans (timersOnly_step _ _ ht hc)

theorem timersOnly_cycles (fuel n : Nat) (s : State) (ht : t < 6) (hc : c < 8) : TimersOnly s (tmCycles t c fuel n s) := by
  induction fuel generalizing n s with
  | zero => exact .refl s
  | succ fuel ih =>
    unfold tmCycles
    exact timersOnly_ite (timersOnly_glide _ _ ht hc)
      (((timersOnly_glide _ s ht hc).trans (timersOnly_cycle _ ht hc)).trans (ih _ _))

theorem timersOnly_advance (n : Nat) (s : State) (ht : t < 6) (hc : c < 8) : TimersOnly s (tmAdvance t c n s) := by
  unfold tmAdvance
  split
  · exact .refl s
  · split
    · exact timersOnly_cycles _ _ _ ht hc
    · exact timersOnly_pulse _ _

-- ---------------------------------------------------------------- time

theorem runTimers_eq (s : State) :
    runTimers s = { s with regs := (runTimers s).regs, tmrs := (runTimers s).tmrs, tmrAt := (runTimers s).tmrAt } ∧
    ∀ a, (blockAt a).kind ≠ .tmr → reg (runTimers s) a = reg s a := by
  simp only [runTimers]
  split
  · exact ⟨rfl, fun _ _ => rfl⟩
  · have h := timersOnly_eachOf (fun j u => tmAdvance (j / 8) (j % 8) ((s.elapsed - s.tmrAt) / 5) u)
      ((s.tmrs.filter (fun e => decide (e.1 < 48) && (e.2.on || e.2.pulse.isSome))).map (·.1))
      { s with tmrAt := s.tmrAt + 5 * ((s.elapsed - s.tmrAt) / 5) }
      (by intro x hx u
          obtain ⟨e, he, rfl⟩ := List.mem_map.1 hx
          have := (List.mem_filter.1 he).2
          simp only [Bool.and_eq_true, decide_eq_true_eq] at this
          exact timersOnly_advance _ u (by omega) (by omega))
    obtain ⟨g1, g2⟩ := h
    refine ⟨?_, fun a ha => g2 a ha⟩
    conv => lhs; rw [g1]
    conv => rhs; rw [g1]

theorem runTimers_clocks (s : State) : ClocksOnly s (runTimers s) := by
  obtain ⟨h1, h2⟩ := runTimers_eq s
  refine ⟨?_, h2, ?_⟩
  · conv => lhs; rw [h1]
    conv => rhs; rw [h1]
  · have e := congrArg State.elapsed h1
    exact Nat.le_of_eq e.symm

/-- The clocks after n ticks of 2 ns. -/
theorem passTicks_tm (n : Nat) (s : State) : (passTicks n s).tm = (clockTicks n s).tm := by
  have e := congrArg State.tm (runTimers_eq (clockTicks n s)).1
  exact e

theorem passTicks_elapsed (n : Nat) (s : State) : (passTicks n s).elapsed = s.elapsed + 2 * n := by
  have e := congrArg State.elapsed (runTimers_eq (clockTicks n s)).1
  exact e

/-- Time has passed to the instant. -/
theorem toElapsed_ge (e : Nat) (s : State) : e ≤ (toElapsed e s).elapsed := by
  unfold toElapsed
  split
  · assumption
  · rw [passTicks_elapsed, ceilDiv]
    omega

theorem passTicks_clocks (n : Nat) (s : State) : ClocksOnly s (passTicks n s) := by
  obtain ⟨h1, h2, h3⟩ := runTimers_clocks (clockTicks n s)
  refine ⟨?_, h2, Nat.le_trans (Nat.le_add_right _ _) h3⟩
  show runTimers (clockTicks n s) = _
  conv => lhs; rw [h1]
  rfl

theorem toElapsed_clocks (e : Nat) (s : State) : ClocksOnly s (toElapsed e s) := by
  unfold toElapsed
  split
  · exact .refl s
  · exact passTicks_clocks _ s

theorem toField_clocks (e : Nat) (s : State) : ClocksOnly s (toField e s) := by
  unfold toField
  split
  · exact passTicks_clocks _ s
  · exact .refl s

theorem toMaster_clocks (e : Nat) (s : State) : ClocksOnly s (toMaster e s) := by
  unfold toMaster
  split
  · exact passTicks_clocks _ s
  · exact .refl s

/-- What the passage of time leaves alone, field by field. -/
theorem ClocksOnly.keeps {s t : State} (h : ClocksOnly s t) :
    t.ports = s.ports ∧ t.ctxs = s.ctxs ∧ t.part = s.part ∧ t.stalled = s.stalled ∧ t.waits = s.waits ∧ t.pow = s.pow ∧
    t.boot = s.boot ∧ t.nv = s.nv ∧ t.tr = s.tr ∧ t.sv = s.sv ∧ t.filt = s.filt ∧ t.cl = s.cl ∧ t.graft = s.graft ∧
    t.qmem = s.qmem ∧ t.tiles = s.tiles ∧ t.sent = s.sent ∧ t.pins = s.pins ∧ t.tm.pulses = s.tm.pulses ∧ t.tm.step = s.tm.step := by
  have e := h.1
  refine ⟨?_, ?_, ?_, ?_, ?_, ?_, ?_, ?_, ?_, ?_, ?_, ?_, ?_, ?_, ?_, ?_, ?_, ?_, ?_⟩ <;> rw [e]

end Sys2Proof.Machine
end

