-- ==== Sys2Proof/Laws/Memory.lean ====
section
/-! SUPPORT. The laws of queue memory and of the configuration flash: a read after a write gives the bytes written, a write leaves every
other byte alone, and every operation keeps the canonical form. -/

namespace Sys2Proof.Machine

/-- A run of bytes put into a memory, one after another. -/
theorem tabGet_putBytes (d : Nat → Byte) (bs : List Byte) (off j : Nat) (m : Tab Byte) (a : Nat) :
    tabGet d ((bs.zipIdx j).foldl (fun m (p : Byte × Nat) => tabSet d m (off + p.2) p.1) m) a =
      if off + j ≤ a ∧ a < off + j + bs.length then bs.getD (a - (off + j)) 0 else tabGet d m a := by
  induction bs generalizing j m with
  | nil =>
    have : ¬ (off + j ≤ a ∧ a < off + j + ([] : List Byte).length) := by simp only [List.length_nil]; omega
    rw [if_neg this]
    rfl
  | cons b rest ih =>
    rw [List.zipIdx_cons, List.foldl_cons, ih, tabGet_tabSet]
    by_cases h1 : a = off + j
    · subst h1
      rw [if_neg (by omega), if_pos rfl, if_pos ⟨Nat.le_refl _, by simp only [List.length_cons]; omega⟩, Nat.sub_self]
      rfl
    · by_cases h2 : off + (j + 1) ≤ a ∧ a < off + (j + 1) + rest.length
      · have h3 : off + j ≤ a ∧ a < off + j + (b :: rest).length := by simp only [List.length_cons]; omega
        have h4 : a - (off + j) = (a - (off + (j + 1))) + 1 := by omega
        rw [if_pos h2, if_pos h3, h4]
        simp
      · have h3 : ¬ (off + j ≤ a ∧ a < off + j + (b :: rest).length) := by simp only [List.length_cons]; omega
        rw [if_neg h2, if_neg h3, if_neg h1]

theorem tabWf_putBytes (d : Nat → Byte) (bs : List Byte) (off j : Nat) (m : Tab Byte) (h : tabWf d m = true) :
    tabWf d ((bs.zipIdx j).foldl (fun m (p : Byte × Nat) => tabSet d m (off + p.2) p.1) m) = true := by
  induction bs generalizing j m with
  | nil => exact h
  | cons b rest ih =>
    rw [List.zipIdx_cons, List.foldl_cons]
    exact ih _ _ (tabWf_tabSet _ _ _ _ h)

/-- One byte of queue memory after a write. -/
theorem tabGet_qmemWrite (off : Nat) (bs : List Byte) (s : State) (a : Nat) :
    tabGet (fun _ => (0 : Byte)) (qmemWrite off bs s).qmem a =
      if off ≤ a ∧ a < off + bs.length then bs.getD (a - off) 0 else tabGet (fun _ => (0 : Byte)) s.qmem a :=
  tabGet_putBytes _ bs off 0 s.qmem a

/-- A read of the bytes written gives them. -/
theorem qmemRead_qmemWrite (off : Nat) (bs : List Byte) (s : State) : qmemRead (qmemWrite off bs s) off bs.length = bs := by
  apply List.ext_getElem
  · simp [qmemRead]
  · intro i h1 h2
    simp only [qmemRead, List.getElem_map, List.getElem_range, tabGet_qmemWrite]
    rw [if_pos ⟨by omega, by omega⟩]
    simp [List.getElem?_eq_getElem h2]

/-- A read outside the bytes written is as before. -/
theorem qmemRead_qmemWrite_far (off : Nat) (bs : List Byte) (s : State) (a n : Nat) (h : a + n ≤ off ∨ off + bs.length ≤ a) :
    qmemRead (qmemWrite off bs s) a n = qmemRead s a n := by
  apply List.ext_getElem
  · simp [qmemRead]
  · intro i h1 h2
    simp only [qmemRead, List.length_map, List.length_range] at h1
    simp only [qmemRead, List.getElem_map, List.getElem_range, tabGet_qmemWrite]
    rw [if_neg (by omega)]

/-- A write keeps the canonical form of queue memory. -/
theorem qmemWrite_wf (off : Nat) (bs : List Byte) (s : State) (h : Memory.wf s.qmem = true) : Memory.wf (qmemWrite off bs s).qmem = true :=
  tabWf_putBytes _ bs off 0 s.qmem h

/-- Cleared queue memory has the canonical form. -/
theorem clearQmem_wf (s : State) : Memory.wf (clearQmem s).qmem = true := rfl

/-- Queue memory right after reset has the canonical form. -/
theorem reset_qmem_wf : Memory.wf State.reset.qmem = true := rfl

/-- The flash has the canonical form, in which an unlisted byte reads as erased. -/
def flashWf (s : State) : Bool := tabWf (fun _ => (0xFF : Byte)) s.boot.flash

/-- An erase keeps the canonical form of the flash. -/
theorem eraseSector_wf (i : Nat) (s : State) (h : flashWf s = true) : flashWf (eraseSector i s) = true := by
  unfold eraseSector
  split
  · exact h
  · exact tabWf_tabDrop (fun _ => (0xFF : Byte)) (fun a => a / s.boot.flashSector == i) s.boot.flash h

end Sys2Proof.Machine
end

