-- ==== Sys2Proof/Laws/Outcome.lean ====
section
/-! SUPPORT. What every outcome adds to a command's effect: commands that waited are tried again, waiting items are counted, and
the shared lines settle. With nothing waiting only the lines move. -/

namespace Sys2Proof.Machine

theorem runStalled_none (s : State) (h : s.stalled = []) : runStalled s = s := by
  simp [runStalled, h]

theorem pendFollow_none (s : State) (h : s.waits = []) : pendFollow s = s := by
  simp [pendFollow, h]

/-- With no item waiting, an outcome only settles the lines. -/
theorem done_none (s : State) (h : s.waits = []) : done s = .next (settle s) := by
  simp [done, pendFollow_none s h]

/-- With nothing waiting, an outcome only settles the lines. -/
theorem settled_none (s : State) (h : s.stalled = []) (h' : s.waits = []) : settled s = .next (settle s) := by
  rw [settled, runStalled_none s h, done_none s h']

/-- Every outcome is a next state, and its lines are as their sources say. -/
theorem settled_next (s : State) : ∃ t, settled s = .next (settle t) := ⟨_, rfl⟩

/-- A table made from a function of its keys reads as that function at each of them. -/
theorem tabGet_mapped {α β : Type} [DecidableEq β] (d : β) (f : Nat → β) (l : List (Nat × α)) (n : Nat) (h : n ∈ l.map (·.1)) :
    tabGet (fun _ => d) ((l.map (fun e => (e.1, f e.1))).filter (fun e => e.2 != d)) n = f n := by
  induction l with
  | nil => simp at h
  | cons e rest ih =>
    by_cases hn : n = e.1
    · subst hn
      by_cases hf : f e.1 = d
      · by_cases hr : e.1 ∈ rest.map (·.1)
        · simpa [hf] using ih hr
        · have : ∀ l : List (Nat × α), e.1 ∉ l.map (·.1) →
              tabGet (fun _ => d) ((l.map (fun e => (e.1, f e.1))).filter (fun e => e.2 != d)) e.1 = d := by
            intro l
            induction l with
            | nil => intro _; rfl
            | cons x xs ihx =>
              intro hx
              simp only [List.map_cons, List.mem_cons, not_or] at hx
              by_cases hfx : f x.1 = d
              · simpa [hfx] using ihx hx.2
              · simpa [hfx, tabGet, hx.1] using ihx hx.2
          simpa [hf] using this rest hr
      · simp [hf, tabGet]
    · have hr : n ∈ rest.map (·.1) := by simpa [hn] using h
      by_cases hf : f e.1 = d
      · simpa [hf] using ih hr
      · simpa [hf, tabGet, hn] using ih hr

/-- A line that is off, kept or driven, kept as it was. -/
theorem kept_again {α : Type} (c h : Bool) (a k n : α) :
    (if c then a else if h then (if c then a else if h then k else n) else n) = if c then a else if h then k else n := by
  cases c <;> cases h <;> rfl

/-- What a host ball keeps is what its sources gave it. -/
theorem hostBall_again {α : Type} (s : State) (b : Nat) (c k n : α) : hostBall s b c (hostBall s b c k n) n = hostBall s b c k n :=
  kept_again ..

theorem portBalls_settle (s : State) (n : Nat) (h : n ∈ s.ports.map (·.1)) : portBalls (settle s) n = portBalls s n := by
  have hp : tabGet (fun _ => {}) (settle s).pins.ports n = portBalls s n := tabGet_mapped {} (portBalls s) s.ports n h
  have e : portBalls (settle s) n =
      if coldReset s .field || !(portGet s n).bankOk then {}
      else if bankHeld s n || portInReset s n then tabGet (fun _ => {}) (settle s).pins.ports n
      else if (portGet s n).driven || decide (s.elapsed < (portGet s n).offAt) then ballsOn s n
      else {} := rfl
  rw [e, hp]
  exact kept_again ..

theorem trigBall_settle (s : State) (j : Nat) (h : j ∈ trigPins s) : trigBall (settle s) (j / 4) (j % 4) = trigBall s (j / 4) (j % 4) := by
  have hj : 4 * (j / 4) + j % 4 = j := Nat.div_add_mod j 4
  have hp : tabGet (fun _ => Ball.hiz) (settle s).pins.trig (4 * (j / 4) + j % 4) = trigBall s (j / 4) (j % 4) := by
    have := tabGet_mapped Ball.hiz (fun j => trigBall s (j / 4) (j % 4)) ((trigPins s).map (fun j => (j, ()))) j (by simpa using h)
    rw [hj]
    simpa [settle, pinsOf, List.map_map, Function.comp_def] using this
  have e : trigBall (settle s) (j / 4) (j % 4) =
      if coldReset s .field || !(portGet s (8 * (j / 4))).bankOk then .hiz
      else if bankHeld s (8 * (j / 4)) || s.boot.inReset.any (fun d => match d with | .tile u => u.val == j / 4 | _ => false) then
        tabGet (fun _ => .hiz) (settle s).pins.trig (4 * (j / 4) + j % 4)
      else match tabGet (fun _ => none) (tileGet s (j / 4)).trigIdle (j % 4) with
        | some lvl => ballOf (if (tileGet s (j / 4)).trigPulse.contains (j % 4) then !lvl else lvl)
        | none => match timerPin s (j / 4) (j % 4) with
          | some lvl => ballOf lvl
          | none => .hiz := rfl
  rw [e, hp]
  exact kept_again ..

/-- The lines as their sources say, read again, are the same. -/
theorem pinsOf_settle (s : State) : pinsOf (settle s) = pinsOf s := by
  have hports : (s.ports.map (fun e => (e.1, portBalls (settle s) e.1))) = s.ports.map (fun e => (e.1, portBalls s e.1)) :=
    List.map_congr_left (fun e he => by rw [portBalls_settle s e.1 (List.mem_map_of_mem he)])
  have htrig : ((trigPins s).map (fun j => (j, trigBall (settle s) (j / 4) (j % 4)))) = (trigPins s).map (fun j => (j, trigBall s (j / 4) (j % 4))) :=
    List.map_congr_left (fun j hj => by rw [trigBall_settle s j hj])
  have hu : hostBall s 8 .hiz (settle s).pins.uart (if pastStep3 s && !noUart s then .high else .hiz) = (pinsOf s).uart := hostBall_again ..
  have hc : hostBall s 10 false (settle s).pins.cfg (pastStep3 s) = (pinsOf s).cfg := hostBall_again ..
  have hq : hostBall s 8 0 (settle s).pins.hirq (hirqLines s) = (pinsOf s).hirq := hostBall_again ..
  have hpu : hostBall s 8 [] (settle s).pins.pulses (pulseBalls s) = (pinsOf s).pulses := hostBall_again ..
  have hw : hostBall s 8 false (settle s).pins.hwake s.pow.hwakeOut = (pinsOf s).hwake := hostBall_again ..
  have hm : hostBall s 8 false (settle s).pins.mdio (flag s R.P0_MDIO_CFG F.P0_MDIO_CFG_EN) = (pinsOf s).mdio := hostBall_again ..
  show ({ ports := ((s.ports.map (fun e => (e.1, portBalls (settle s) e.1))).filter (fun e => e.2 != {}))
          trig := (((trigPins s).map (fun j => (j, trigBall (settle s) (j / 4) (j % 4)))).filter (fun e => e.2 != .hiz))
          uart := hostBall s 8 .hiz (settle s).pins.uart (if pastStep3 s && !noUart s then .high else .hiz)
          cfg := hostBall s 10 false (settle s).pins.cfg (pastStep3 s)
          lanes := ([0, 1].map (fun e => (e, laneActive s e))).filter (fun e => e.2)
          pulses := hostBall s 8 [] (settle s).pins.pulses (pulseBalls s)
          hwake := hostBall s 8 false (settle s).pins.hwake s.pow.hwakeOut
          mdio := hostBall s 8 false (settle s).pins.mdio (flag s R.P0_MDIO_CFG F.P0_MDIO_CFG_EN)
          hirq := hostBall s 8 0 (settle s).pins.hirq (hirqLines s), hfault := hfaultLow s, ffault := ffaultLow s } : PinsS) = pinsOf s
  rw [hports, htrig, hu, hc, hpu, hw, hm, hq]
  rfl

@[simp] theorem settle_settle (s : State) : settle (settle s) = settle s := by
  show { settle s with pins := pinsOf (settle s) } = settle s
  rw [pinsOf_settle]
  rfl

end Sys2Proof.Machine
end

