-- ==== Sys2Proof/Laws/Request.lean ====
section
/-! SUPPORT. What a request that passes the checks of R516 comes to: it runs in the state in which its port has counted and stored it,
and its answer joins the responses that wait. -/

namespace Sys2Proof.Machine

variable {op : Nat} {h : Hdr} {addr : Word} {payload : List Word} {s : State}

theorem selectFalls_run (p : Nat) (s : State) (hr : s.pow.host.st = .run) : selectFalls p s = s := by
  simp [selectFalls, startWake, sideGet, hr]

@[simp] theorem taken_stalled : (taken op h addr payload s).stalled = s.stalled := rfl
@[simp] theorem taken_waits : (taken op h addr payload s).waits = s.waits := rfl
@[simp] theorem taken_boot : (taken op h addr payload s).boot = s.boot := rfl
@[simp] theorem taken_pow : (taken op h addr payload s).pow = s.pow := rfl
@[simp] theorem taken_ports : (taken op h addr payload s).ports = s.ports := rfl
@[simp] theorem taken_ctxs : (taken op h addr payload s).ctxs = s.ctxs := rfl
@[simp] theorem taken_nv : (taken op h addr payload s).nv = s.nv := rfl

/-- The register file of the taken state: the port's count of requests is one higher. -/
theorem taken_reg (a : Nat) :
    reg (taken op h addr payload s) a =
      if a = R.P_CNT h.port.val 0 then BitVec.ofNat 32 (satAdd 32 (reg s a).toNat 1) else reg s a := by
  unfold taken bookIn
  rw [partMod_reg, reg_cnt]
  split
  · next he => rw [he]
  · rfl

/-- With nothing waiting, no command waits behind another. -/
theorem waitsBehind_none {s : State} (c : Cmd) (h : s.stalled = []) : waitsBehind s c = false := by
  simp +contextual [waitsBehind, commitWaits, commitTaken, h]

/-- A passing request runs its opcode in the taken state (R516, R518). -/
theorem ask_passes (hp : Passes op h addr payload s) :
    ask op h addr payload s =
      settled (match runCmd h.port (rowCmd op h addr payload) (wordOf 0xFFFFFFFF) (taken op h addr payload s) with
        | (some (st, pay), s') => answerCmd h.port.val (rowCmd op h addr payload) st false pay s'
        | (none, s') => s') := by
  have hc : coreAway (taken op h addr payload s) = coreAway s := rfl
  unfold ask request
  simp only [selectFalls_run _ _ hp.awake, hp.hears, if_true]
  unfold judgeReq
  have e := hp.early
  unfold rowCmd at e
  simp only [hp.crc, Bool.not_true, Bool.false_eq_true, if_false, e]
  have hn : (h.nvFails && needsBound (taken op h addr payload s) h.port.val (rowCmd op h addr payload)) = false := by
    rw [hp.bound]; rfl
  show settled (if (h.nvFails && needsBound (taken op h addr payload s) h.port.val (rowCmd op h addr payload)) = true then _
    else execute h.port (rowCmd op h addr payload) (wordOf 0xFFFFFFFF) (taken op h addr payload s)) = _
  rw [hn]
  simp only [Bool.false_eq_true, if_false]
  unfold execute
  rw [hc, hp.core]
  simp only [waitsBehind_none _ (show (taken op h addr payload s).stalled = [] from hp.quiet.1), Bool.false_eq_true, if_false] <;> rfl

-- ---------------------------------------------------------------- answers

/-- The port's books and the NV memory given: what an answer may change. -/
def answerMask (s u : State) : State := { s with regs := u.regs, part := u.part, nv := u.nv, nvOld := u.nvOld, pins := u.pins }

theorem raiseBound_mask (p c : Nat) (s u : State) : answerMask (raiseBound p c s) u = answerMask s u := by
  unfold raiseBound; split <;> rfl

theorem acceptCtr_mask (p : Nat) (c : Option Nat) (s u : State) : answerMask (acceptCtr p c s) u = answerMask s u := by
  cases c with
  | none => rfl
  | some x => exact raiseBound_mask p x s u

theorem raiseBound_reg (p c : Nat) (s : State) (a : Nat) : reg (raiseBound p c s) a = reg s a := by
  unfold raiseBound; split <;> rfl

theorem acceptCtr_reg (p : Nat) (c : Option Nat) (s : State) (a : Nat) : reg (acceptCtr p c s) a = reg s a := by
  cases c with
  | none => rfl
  | some x => exact raiseBound_reg p x s a

theorem raiseBound_part (p c : Nat) (s : State) (q : Nat) : partGet (raiseBound p c s) q = partGet s q := by
  unfold raiseBound; split <;> rfl

theorem acceptCtr_resp (p : Nat) (c : Option Nat) (s : State) (q : Nat) :
    (partGet (acceptCtr p c s) q).resp = (partGet s q).resp := by
  cases c with
  | none => rfl
  | some x =>
    show (partGet (partMod p _ (raiseBound p x s)) q).resp = _
    rw [partGet_partMod]
    split
    · next h => subst h; show (partGet (raiseBound q x s) q).resp = _; rw [raiseBound_part]
    · rw [raiseBound_part]

/-- An answer that is no refusal of R521, R522 or R534 changes no register. -/
theorem answerCmd_reg (p : Nat) (c : Cmd) (st : Nat) (race : Bool) (pay : List Word) (s : State) (a : Nat)
    (h1 : st ≠ stAUTH_FAIL) (h2 : st ≠ stREPLAY) (h3 : st ≠ stDENIED) :
    reg (answerCmd p c st race pay s) a = reg s a := by
  unfold answerCmd noteRefusal
  simp only [h1, h2, h3, if_false]
  split
  · rw [partMod_reg]
    unfold onlyIf
    split
    · exact acceptCtr_reg _ _ _ _
    · rfl
  · rfl

/-- An answer that is no refusal of R521, R522 or R534 changes nothing but the port's books and the counter's bound. -/
theorem answerCmd_mask (p : Nat) (c : Cmd) (st : Nat) (race : Bool) (pay : List Word) (s u : State)
    (h1 : st ≠ stAUTH_FAIL) (h2 : st ≠ stREPLAY) (h3 : st ≠ stDENIED) :
    answerMask (answerCmd p c st race pay s) u = answerMask s u := by
  unfold answerCmd noteRefusal
  simp only [h1, h2, h3, if_false]
  split
  · show answerMask (onlyIf _ _ _) u = _
    unfold onlyIf
    split
    · exact acceptCtr_mask _ _ _ _
    · rfl
  · rfl

theorem noteRefusal_part (p st : Nat) (s : State) (q : Nat) : partGet (noteRefusal p st s) q = partGet s q := by
  unfold noteRefusal
  split
  · rfl
  · split
    · rfl
    · split <;> rfl

/-- The answer of a command in the store joins the responses that wait. -/
theorem answerCmd_resp (p : Nat) (c : Cmd) (st : Nat) (race : Bool) (pay : List Word) (s : State)
    (hc : (partGet s p).outst.contains c = true) :
    (partGet (answerCmd p c st race pay s) p).resp = (partGet s p).resp ++ [{ cmd := c, status := st, race := race, payload := pay }] := by
  unfold answerCmd
  rw [if_pos hc, partGet_partMod, if_pos rfl]
  show (partGet _ p).resp ++ _ = _
  congr 1
  unfold onlyIf
  split
  · rw [acceptCtr_resp, noteRefusal_part]
  · rw [noteRefusal_part]

theorem taken_outst : (partGet (taken op h addr payload s) h.port.val).outst =
    (partGet s h.port.val).outst ++ [rowCmd op h addr payload] := by
  unfold taken bookIn
  rw [partGet_partMod, if_pos rfl]
  rfl

theorem taken_contains : (partGet (taken op h addr payload s) h.port.val).outst.contains (rowCmd op h addr payload) = true := by
  rw [taken_outst]; simp

theorem taken_resp : (partGet (taken op h addr payload s) h.port.val).resp = (partGet s h.port.val).resp := by
  unfold taken bookIn
  rw [partGet_partMod, if_pos rfl]
  rfl

theorem settle_mask (s u : State) : answerMask (settle s) u = answerMask s u := rfl
theorem taken_mask (u : State) : answerMask (taken op h addr payload s) u = answerMask s u := rfl

/-- A passing command whose opcode answers in a state that keeps the port's store and adds nothing that waits: the outcome is that
state with the answer. -/
theorem ask_answers (hp : Passes op h addr payload s) (st : Nat) (pay : List Word) (s' : State)
    (hr : runCmd h.port (rowCmd op h addr payload) (wordOf 0xFFFFFFFF) (taken op h addr payload s) = (some (st, pay), s'))
    (h1 : st ≠ stAUTH_FAIL) (h2 : st ≠ stREPLAY) (h3 : st ≠ stDENIED)
    (hs : s'.stalled = []) (hw : s'.waits = []) :
    ask op h addr payload s = .next (settle (answerCmd h.port.val (rowCmd op h addr payload) st false pay s')) := by
  rw [ask_passes hp, hr]
  have hm := answerCmd_mask h.port.val (rowCmd op h addr payload) st false pay s' s' h1 h2 h3
  apply settled_none
  · have := congrArg State.stalled hm
    exact this.trans hs
  · have := congrArg State.waits hm
    exact this.trans hw

end Sys2Proof.Machine
end

