-- ==== Sys2Proof/Laws/Write.lean ====
section
/-! SUPPORT. What a WRITE or a READ of one register that passes comes to: the word takes its effect, or the register's value is read, in
the taken state, and the answer waits. -/

namespace Sys2Proof.Machine

variable {h : Hdr} {a : Nat} {v : Word} {s : State}

theorem wordOf_toNat (n : Nat) (hn : n < 2 ^ 32) : (wordOf n).toNat = n := by
  rw [wordOf, BitVec.toNat_ofNat, Nat.mod_eq_of_lt hn]

/-- One word that lies in its block. -/
theorem wordsIn_one (hb : a < (blockAt a).hi) : wordsIn a 1 = [a] := by
  simp [wordsIn, List.range_succ, hb]

theorem overruns_one (hb : a + 4 ≤ (blockAt a).hi) : overruns a 1 = false := by
  simp [overruns]; omega

theorem withOwner_reaches {p : Nat} {c : Cmd} {k : State → Ran} (hr : Reaches s a) (hb : a < (blockAt a).hi) :
    withOwner p c a 1 k s = k s := by
  have hh : (wordsIn a 1).any (unitHeld s) = false := by simp [wordsIn_one hb, hr.held]
  unfold withOwner
  by_cases hf : fieldBlk (blockAt a).kind = true
  · obtain ⟨h1, h2⟩ := hr.path hf
    simp [hf, h1, h2, hh, hr.awake hf]
  · simp [hf, hh]

theorem writeBlock_one (src : Option Nat) (crit : Bool) (took : Word) (hb : a + 4 ≤ (blockAt a).hi)
    (hq : (blockAt a).kind ≠ .qmem) (hfl : (blockAt a).kind ≠ .flash)
    (hr : firstRefusal src crit (fun _ => false) [(a, v)] s = none) :
    writeBlock src crit (fun _ => false) took a [v] s =
      (joinStatus (applyWord src crit took a v s).1 stOK,
        if joinStatus (applyWord src crit took a v s).1 stOK == stINTERNAL then fusesOnly s (applyWord src crit took a v s).2
        else (applyWord src crit took a v s).2) := by
  have hw : wordsOf a [v] = [(a, v)] := by
    unfold wordsOf
    rw [show [v].length = 1 from rfl, wordsIn_one (by omega)]
    rfl
  have ho : overruns a [v].length = false := overruns_one hb
  unfold writeBlock
  split
  · next h => exact absurd h hq
  · next h => exact absurd h hfl
  · rw [hw]
    show (match firstRefusal src crit (fun _ => false) [(a, v)] s with
      | some st => (st, s)
      | none => (if (applyWords src crit took [(a, v)] s).1 < 0x10 && overruns a [v].length then stOVERRUN
          else (applyWords src crit took [(a, v)] s).1,
        if (applyWords src crit took [(a, v)] s).1 == stINTERNAL then fusesOnly s (applyWords src crit took [(a, v)] s).2
        else (applyWords src crit took [(a, v)] s).2)) = _
    rw [hr, ho]
    simp only [Bool.and_false, Bool.false_eq_true, if_false]
    rfl

/-- A WRITE of one register that runs: its word takes effect in the taken state, and the answer waits. -/
theorem writeReg_runs (hw : WriteRuns h a v s) (ha : a < 2 ^ 32) (h4 : a % 4 = 0) (hb : a + 4 ≤ (blockAt a).hi)
    (hk : (blockAt a).kind ≠ .win) (hq : (blockAt a).kind ≠ .qmem) (hfl : (blockAt a).kind ≠ .flash) :
    writeReg h a v s =
      let T := taken opWRITE h (wordOf a) [v] s
      let x := applyWord (some h.port.val) (h.flags.getLsbD 0) (wordOf 0xFFFFFFFF) a v T
      settled (answerCmd h.port.val (rowCmd opWRITE h (wordOf a) [v]) (joinStatus x.1 stOK) false []
        (if joinStatus x.1 stOK == stINTERNAL then fusesOnly T x.2 else x.2)) := by
  unfold writeReg
  rw [ask_passes hw.passes]
  have hrun : runCmd h.port (rowCmd opWRITE h (wordOf a) [v]) (wordOf 0xFFFFFFFF) (taken opWRITE h (wordOf a) [v] s) =
      runWrite h.port (rowCmd opWRITE h (wordOf a) [v]) (wordOf 0xFFFFFFFF) (taken opWRITE h (wordOf a) [v] s) := rfl
  rw [hrun]
  have e1 : (rowCmd opWRITE h (wordOf a) [v]).addr.toNat = a := wordOf_toNat a ha
  have e2 : (rowCmd opWRITE h (wordOf a) [v]).payload = [v] := rfl
  have e3 : (rowCmd opWRITE h (wordOf a) [v]).ctr.isSome = h.flags.getLsbD 0 := by
    show (if (h.flags.getLsbD 0) = true then some _ else none).isSome = _
    cases h.flags.getLsbD 0 <;> rfl
  unfold runWrite
  simp only [e1, e2, e3, h4, hw.running, hw.free, hk, withOwner_reaches hw.reaches (by omega : a < (blockAt a).hi), Bool.false_eq_true, if_false,
    List.length_singleton, writeBlock_one _ _ _ hb hq hfl hw.allowed]
  rfl

/-- An answer of a passing WRITE: what it leaves of the state that the word's effect left. -/
theorem writeReg_next (hw : WriteRuns h a v s) (ha : a < 2 ^ 32) (h4 : a % 4 = 0) (hb : a + 4 ≤ (blockAt a).hi)
    (hk : (blockAt a).kind ≠ .win) (hq : (blockAt a).kind ≠ .qmem) (hfl : (blockAt a).kind ≠ .flash) (st : Nat) (s' : State)
    (hx : applyWord (some h.port.val) (h.flags.getLsbD 0) (wordOf 0xFFFFFFFF) a v (taken opWRITE h (wordOf a) [v] s) = (st, s'))
    (hs : s'.stalled = []) (hwt : s'.waits = []) (h1 : st < 0x10) :
    writeReg h a v s = .next (settle (answerCmd h.port.val (rowCmd opWRITE h (wordOf a) [v]) st false [] s')) := by
  have hj : joinStatus st stOK = st := by
    have n1 : ¬ (st ≥ 0x10) := by omega
    have n2 : ¬ (stOK ≥ 0x10) := by decide
    simp only [joinStatus, if_neg n1, if_neg n2]
    exact Nat.max_eq_left (Nat.zero_le _)
  have ne : ∀ k, 0x10 ≤ k → st ≠ k := fun k hk e => by omega
  rw [writeReg_runs hw ha h4 hb hk hq hfl]
  have hi : (st == stINTERNAL) = false := by simpa using ne _ (by decide)
  simp only [hx, hj, hi, Bool.false_eq_true, if_false]
  have hm := answerCmd_mask h.port.val (rowCmd opWRITE h (wordOf a) [v]) st false [] s' s'
    (ne _ (by decide)) (ne _ (by decide)) (ne _ (by decide))
  exact settled_none _ ((congrArg State.stalled hm).trans hs) ((congrArg State.waits hm).trans hwt)

theorem selected_iff (regs : List Nat) (b : Nat) :
    regs.zipIdx.any (fun p => p.1 == b && bitOf v.toNat p.2) = true ↔ Selected regs v b := by
  simp only [List.any_eq_true, Selected, Prod.exists, Bool.and_eq_true, beq_iff_eq]
  constructor
  · rintro ⟨x, i, hm, rfl, hb⟩
    exact ⟨i, List.mem_zipIdx_iff_getElem?.1 hm, hb⟩
  · rintro ⟨i, hi, hb⟩
    exact ⟨b, i, List.mem_zipIdx_iff_getElem?.2 hi, rfl, hb⟩

/-- A write that only clears the registers its bits select. -/
theorem clears_of (c : Instr) (regs : List Nat) (hc : exec c s = writeReg h a v s) (ha : a < 2 ^ 32) (h4 : a % 4 = 0)
    (hb : a + 4 ≤ (blockAt a).hi) (hk : (blockAt a).kind ≠ .win) (hq : (blockAt a).kind ≠ .qmem) (hfl : (blockAt a).kind ≠ .flash)
    (hx : ∀ src crit took T, applyWord src crit took a v T = (stOK, clrBits regs v T)) : ClearsOn c h a v regs s := by
  intro hw
  have keep := clrBits_keeps regs v (taken opWRITE h (wordOf a) [v] s)
  have hn := writeReg_next hw ha h4 hb hk hq hfl stOK _ (hx _ _ _ _)
    ((congrArg State.stalled (keep [])).trans hw.passes.quiet.1) ((congrArg State.waits (keep [])).trans hw.passes.quiet.2) (by decide)
  refine ⟨_, hc.trans hn, ?_, ?_, ?_, ?_⟩
  · show (partGet (answerCmd _ _ _ _ _ _) _).resp = _
    have hp : ∀ p, partGet (clrBits regs v (taken opWRITE h (wordOf a) [v] s)) p = partGet (taken opWRITE h (wordOf a) [v] s) p :=
      fun p => by
        have e := congrArg State.part (keep [])
        exact congrArg (fun l => tabGet (fun _ => ({} : PartnerS)) l p) e
    rw [answerCmd_resp _ _ _ _ _ _ (by rw [hp]; exact taken_contains), hp, taken_resp]
    rfl
  · intro b hs
    show reg (answerCmd _ _ _ _ _ _) b = 0
    rw [answerCmd_reg _ _ _ _ _ _ _ (by decide) (by decide) (by decide), clrBits_reg, if_pos ((selected_iff regs b).2 hs)]
  · intro b hs hb
    show reg (answerCmd _ _ _ _ _ _) b = _
    rw [answerCmd_reg _ _ _ _ _ _ _ (by decide) (by decide) (by decide), clrBits_reg, if_neg (fun h => hs ((selected_iff regs b).1 h)),
      taken_reg, if_neg hb]
  · have hm := answerCmd_mask h.port.val (rowCmd opWRITE h (wordOf a) [v]) stOK false []
      (clrBits regs v (taken opWRITE h (wordOf a) [v] s)) s (by decide) (by decide) (by decide)
    have e := congrArg (fun u : State => answerMask u s) (keep s.regs)
    exact hm.trans e

theorem answerCmd_other (p : Nat) (c : Cmd) (st : Nat) (pay : List Word) (s : State) (q : Nat) (hq : q ≠ p) :
    partGet (answerCmd p c st false pay s) q = partGet s q := by
  have ha : ∀ (x : Option Nat) (u : State), partGet (acceptCtr p x u) q = partGet u q := by
    intro x u
    cases x with
    | none => rfl
    | some y =>
      show partGet (partMod p _ (raiseBound p y u)) q = _
      rw [partGet_partMod, if_neg hq, raiseBound_part]
  unfold answerCmd
  split
  · rw [partGet_partMod, if_neg hq]
    unfold onlyIf
    split
    · rw [ha, noteRefusal_part]
    · rw [noteRefusal_part]
  · rfl

theorem taken_other (q : Nat) {op : Nat} {addr : Word} {payload : List Word} (hq : q ≠ h.port.val) :
    partGet (taken op h addr payload s) q = partGet s q := by
  unfold taken bookIn
  rw [partGet_partMod, if_neg hq]
  rfl

theorem same_mask {u w : State} (s : State) (hm : answerMask w s = answerMask u s) (x : Part) (hx : x ∉ answerParts) : Same x u w := by
  cases x
  case regs => exact absurd (by decide) hx
  case part => exact absurd (by decide) hx
  case nv => exact absurd (by decide) hx
  case nvOld => exact absurd (by decide) hx
  case pins => exact absurd (by decide) hx
  case pending => have e := congrArg State.pending hm; exact e
  case fresh => have e := congrArg State.fresh hm; exact e
  case elapsed => have e := congrArg State.elapsed hm; exact e
  case qmem => have e := congrArg State.qmem hm; exact e
  case tm => have e := congrArg State.tm hm; exact e
  case tr => have e := congrArg State.tr hm; exact e
  case ctxs => have e := congrArg State.ctxs hm; exact e
  case ports => have e := congrArg State.ports hm; exact e
  case tiles => have e := congrArg State.tiles hm; exact e
  case filt => have e := congrArg State.filt hm; exact e
  case sv => have e := congrArg State.sv hm; exact e
  case tmrs => have e := congrArg State.tmrs hm; exact e
  case tmrAt => have e := congrArg State.tmrAt hm; exact e
  case frozen => have e := congrArg State.frozen hm; exact e
  case snapSec => have e := congrArg State.snapSec hm; exact e
  case graft => have e := congrArg State.graft hm; exact e
  case waits => have e := congrArg State.waits hm; exact e
  case stalled => have e := congrArg State.stalled hm; exact e
  case cl => have e := congrArg State.cl hm; exact e
  case boot => have e := congrArg State.boot hm; exact e
  case pow => have e := congrArg State.pow hm; exact e
  case sent => have e := congrArg State.sent hm; exact e

theorem Same.trans {x : Part} {s t u : State} (h : Same x s t) (k : Same x t u) : Same x s u := by
  cases x <;> exact Eq.trans k h

/-- An answer changes nothing but what `answerParts` names. -/
theorem same_answer (u : State) (p : Nat) (c : Cmd) (st : Nat) (pay : List Word)
    (h1 : st ≠ stAUTH_FAIL) (h2 : st ≠ stREPLAY) (h3 : st ≠ stDENIED) (x : Part) (hx : x ∉ answerParts) :
    Same x u (settle (answerCmd p c st false pay u)) :=
  (same_mask u (answerCmd_mask p c st false pay u u h1 h2 h3) x hx).trans (by
    cases x <;> first | rfl | exact absurd (by decide) hx)

theorem only_answer (s u : State) (p : Nat) (c : Cmd) (st : Nat) (pay : List Word)
    (h1 : st ≠ stAUTH_FAIL) (h2 : st ≠ stREPLAY) (h3 : st ≠ stDENIED) (parts : List Part) (hu : Only (answerParts ++ parts) s u) :
    Only (answerParts ++ parts) s (settle (answerCmd p c st false pay u)) := fun x hx =>
  (hu x hx).trans (same_answer u p c st pay h1 h2 h3 x (fun h => hx (List.mem_append_left _ h)))

/-- A write row from its word's effect: what the effect leaves of the registers and the parts of the state, and what it does. -/
theorem wroteAs_of (c : Instr) (st : Nat) (regs : List Nat) (parts : List Part) (P : State → Prop) (hc : exec c s = writeReg h a v s)
    (hst1 : st < 0x10) (hb : a < 2 ^ 32 ∧ a % 4 = 0 ∧ a + 4 ≤ (blockAt a).hi ∧ (blockAt a).kind ≠ .win ∧ (blockAt a).kind ≠ .qmem ∧
      (blockAt a).kind ≠ .flash) (s' : State)
    (hx : WriteRuns h a v s → applyWord (some h.port.val) (h.flags.getLsbD 0) (wordOf 0xFFFFFFFF) a v (taken opWRITE h (wordOf a) [v] s) =
      (st, s'))
    (hst : s'.stalled = s.stalled) (hwt : s'.waits = s.waits) (hpt : s'.part = (taken opWRITE h (wordOf a) [v] s).part)
    (hr : RegsBut regs (taken opWRITE h (wordOf a) [v] s) s')
    (ho : Only (answerParts ++ parts) s s')
    (hP : ∀ t, (∀ b, reg t b = reg s' b) → (∀ x, x ∉ answerParts → Same x s' t) → P t) :
    WroteAs st c h a v s regs parts P := by
  intro hw
  obtain ⟨ha, h4, hb, hk, hq, hfl⟩ := hb
  have n : ∀ k, 0x10 ≤ k → st ≠ k := fun k hk e => by omega
  have hn := writeReg_next hw ha h4 hb hk hq hfl st _ (hx hw) (hst.trans hw.passes.quiet.1) (hwt.trans hw.passes.quiet.2) hst1
  have hpg : ∀ q, partGet s' q = partGet (taken opWRITE h (wordOf a) [v] s) q := fun q =>
    congrArg (fun l => tabGet (fun _ => ({} : PartnerS)) l q) hpt
  refine ⟨_, hc.trans hn, ?_, ?_, only_answer _ _ _ _ _ _ (n _ (by decide)) (n _ (by decide)) (n _ (by decide)) _ ho, ?_, hP _ ?_ ?_⟩
  · show (partGet (answerCmd _ _ _ _ _ _) _).resp = _
    rw [answerCmd_resp _ _ _ _ _ _ (by rw [hpg]; exact taken_contains), hpg, taken_resp]
    rfl
  · intro b hb
    show reg (answerCmd _ _ _ _ _ _) b = _
    rw [answerCmd_reg _ _ _ _ _ _ _ (n _ (by decide)) (n _ (by decide)) (n _ (by decide))]
    rw [hr b (fun h => hb (List.mem_cons_of_mem _ h)), taken_reg, if_neg (fun e => hb (by rw [e]; exact List.mem_cons_self ..))]
  · intro q hq
    show partGet (answerCmd _ _ _ _ _ _) q = _
    rw [answerCmd_other _ _ _ _ _ _ hq, hpg, taken_other _ hq]
  · intro b
    show reg (answerCmd _ _ _ _ _ _) b = _
    rw [answerCmd_reg _ _ _ _ _ _ _ (n _ (by decide)) (n _ (by decide)) (n _ (by decide))]
  · intro x hx
    exact same_answer _ _ _ _ _ (n _ (by decide)) (n _ (by decide)) (n _ (by decide)) x hx

/-- A word's effect that changes only registers. -/
theorem only_regs {s' : State} {op : Nat} {addr : Word} {payload : List Word} (parts : List Part)
    (h' : { s' with regs := [] } = { taken op h addr payload s with regs := [] }) : Only (answerParts ++ parts) s s' := by
  intro x hx
  have k : x ∉ answerParts := fun h => hx (List.mem_append_left _ h)
  cases x
  case regs => exact absurd (by decide) k
  case part => exact absurd (by decide) k
  case nv => exact absurd (by decide) k
  case nvOld => exact absurd (by decide) k
  case pins => exact absurd (by decide) k
  case pending => have e := congrArg State.pending h'; exact e
  case fresh => have e := congrArg State.fresh h'; exact e
  case elapsed => have e := congrArg State.elapsed h'; exact e
  case qmem => have e := congrArg State.qmem h'; exact e
  case tm => have e := congrArg State.tm h'; exact e
  case tr => have e := congrArg State.tr h'; exact e
  case ctxs => have e := congrArg State.ctxs h'; exact e
  case ports => have e := congrArg State.ports h'; exact e
  case tiles => have e := congrArg State.tiles h'; exact e
  case filt => have e := congrArg State.filt h'; exact e
  case sv => have e := congrArg State.sv h'; exact e
  case tmrs => have e := congrArg State.tmrs h'; exact e
  case tmrAt => have e := congrArg State.tmrAt h'; exact e
  case frozen => have e := congrArg State.frozen h'; exact e
  case snapSec => have e := congrArg State.snapSec h'; exact e
  case graft => have e := congrArg State.graft h'; exact e
  case waits => have e := congrArg State.waits h'; exact e
  case stalled => have e := congrArg State.stalled h'; exact e
  case cl => have e := congrArg State.cl h'; exact e
  case boot => have e := congrArg State.boot h'; exact e
  case pow => have e := congrArg State.pow h'; exact e
  case sent => have e := congrArg State.sent h'; exact e

/-- The register file of the taken state, outside the partner ports' blocks. -/
theorem taken_reg_far {op : Nat} {addr : Word} {payload : List Word} (b : Nat) (hb : b < 0x10000 ∨ 0x14000 ≤ b) :
    reg (taken op h addr payload s) b = reg s b := by
  have hp := h.port.isLt
  rw [taken_reg, if_neg]
  show ¬ b = 0x10060 + h.port.val * 0x1000 + 0 * 4
  omega

theorem taken_fld_far {op : Nat} {addr : Word} {payload : List Word} (b : Nat) (f : Fld) (hb : b < 0x10000 ∨ 0x14000 ≤ b) :
    fld (taken op h addr payload s) b f = fld s b f := by
  unfold fld; rw [taken_reg_far b hb]

theorem taken_flag_far {op : Nat} {addr : Word} {payload : List Word} (b : Nat) (f : Fld) (hb : b < 0x10000 ∨ 0x14000 ≤ b) :
    flag (taken op h addr payload s) b f = flag s b f := by
  unfold flag; rw [taken_fld_far b f hb]

end Sys2Proof.Machine
end

