-- ==== Sys2Proof/Laws/Read.lean ====
section
/-! SUPPORT. What a READ of one register that passes comes to: the word is read in the taken state, with its read's effect, and the answer
waits. -/

namespace Sys2Proof.Machine

variable {h : Hdr} {a : Nat} {s : State}

/-- A block read of one word. -/
theorem readBlock_one (hb : a < (blockAt a).hi) : readBlock a 1 s = ([(readWord a s).1], (readWord a s).2) := by
  unfold readBlock
  rw [wordsIn_one hb]
  rfl

/-- A READ of one register that reaches it: the outcome is the state that the read leaves, with the answer. -/
theorem readReg_next (hp : Passes opREAD h (wordOf a) [1] s) (hr : Reaches (taken opREAD h (wordOf a) [1] s) a) (ha : a < 2 ^ 32)
    (h4 : a % 4 = 0) (hb : a + 4 ≤ (blockAt a).hi) (hk : (blockAt a).kind ≠ .win) (hq : (blockAt a).kind ≠ .qmem) (w : Word) (s' : State)
    (hx : readWord a (taken opREAD h (wordOf a) [1] s) = (w, s')) (hs : s'.stalled = []) (hwt : s'.waits = []) :
    readReg h a s = .next (settle (answerCmd h.port.val (rowCmd opREAD h (wordOf a) [1]) stOK false [w] s')) := by
  refine ask_answers hp stOK [w] s' ?_ (by decide) (by decide) (by decide) hs hwt
  show runRead h.port (rowCmd opREAD h (wordOf a) [1]) (taken opREAD h (wordOf a) [1] s) = _
  have e1 : (rowCmd opREAD h (wordOf a) [1]).addr.toNat = a := wordOf_toNat a ha
  have e2 : (rowCmd opREAD h (wordOf a) [1]).payload = [1] := rfl
  have e3 : ((rowCmd opREAD h (wordOf a) [1]).word 0).toNat = 1 := rfl
  have eq : ((blockAt a).kind == Blk.qmem) = false := by simpa using hq
  unfold runRead
  simp only [e1, e2, e3, h4, hk, withOwner_reaches hr (show a < (blockAt a).hi by omega), readBlock_one (show a < (blockAt a).hi by omega),
    overruns_one hb, hx, eq]
  rfl

/-- A register whose read has no effect of its own answers what it shows. -/
theorem readWord_plain (hn : readEffect a s = s) (hk : ¬ ((blockAt a).kind = .filt ∧ a % 0x10000 = 0x4010)) : readWord a s = (view s a, s) := by
  unfold readWord
  rw [if_neg hk, hn]

end Sys2Proof.Machine
end

