-- ==== Sys2Proof/WellFormed.lean ====
section
/-! DEFINITION. Which operands a command or an event can carry: lengths that fit their length fields, lists no longer than what the
device can receive, and numbers of the width their message gives them. The rows' meanings are total and do not rest on these checks. -/

namespace Sys2Proof

/-- A payload that LEN can count (R510). -/
def payloadFits (n : Nat) : Bool := decide (n ≤ 65535)

/-- Bits that one frame can hold (R213). -/
def bitsFit (rx : List Bool) : Bool := decide (rx.length ≤ 4096)

/-- The bytes of one chunk of a window command: MAXB and the command in front of it (R165, R168). -/
def chunkFits (rx : List Byte) : Bool := decide (rx.length ≤ 136)

/-- A PTP message whose numbers have the widths of its fields (R340). -/
def ptpFits (m : PtpMsg) : Bool :=
  decide (m.kind < 16) && decide (m.version < 16) && decide (m.minor < 16) && decide (m.domain < 256) &&
  decide (m.srcId < 2 ^ 64) && decide (m.srcPort < 2 ^ 16) && decide (m.seqId < 2 ^ 16) && decide (m.reqId < 2 ^ 64) &&
  decide (m.prio1 < 256) && decide (m.cls < 256) && decide (m.acc < 256) && decide (m.var < 2 ^ 16) && decide (m.prio2 < 256) &&
  decide (m.gmId < 2 ^ 64) && decide (m.steps < 2 ^ 16)

/-- An Ethernet frame no longer than the largest one (R550). -/
def ethFits (f : EthFrame) : Bool :=
  decide (f.body.length ≤ 9000) && (match f.pause with | some q => decide (q < 2 ^ 16) | none => true)

/-- A Clasp frame: the words of a READ or WRITE lie in the address space (R594). -/
def claspFits (f : ClaspFrame) : Bool := decide (f.opcode < 256) && decide (f.addr < 2 ^ 32) && decide (f.addr + 4 * f.words ≤ 2 ^ 32)

/-- The operands of a row are ones that the device can receive. -/
def Instr.wellFormed : Instr → Bool
  | .read _ _ p | .write _ _ p | .windowRead _ _ p | .windowWrite _ _ p | .pop _ _ p | .peek _ _ p | .ack _ _ p
  | .power _ _ p | .reset _ _ p | .status _ _ p => payloadFits p.length
  | .subscribeAdd _ _ _ r | .subscribeRemove _ _ _ r | .rewind _ _ _ r | .streamon _ _ _ r | .streamoff _ _ _ r
  | .ctxAdd _ _ _ r | .ctxChange _ _ _ r | .ctxRemove _ _ _ r | .ctxStart _ _ _ r | .ctxStop _ _ _ r
  | .graftBegin _ _ _ r | .graftStage _ _ _ r | .graftCommit _ _ _ r | .graftAbort _ _ _ r | .graftFlash _ _ _ r
  | .timeSet _ _ _ r | .timeStep _ _ _ r | .timeOffset _ _ _ r | .timeFreq _ _ _ r | .timeAccept _ _ _ r
  | .keyLoad _ _ _ r | .keyErase _ _ _ r | .loadClear _ _ _ r => payloadFits (r.length + 1)
  | .xferDone _ rx _ | .tlimExpiry _ _ _ rx _ => bitsFit rx
  | .sentinelPoll _ rx => rx.all bitsFit
  | .windowChunk _ rx | .windowReadTimeout _ _ rx => chunkFits rx
  | .identityJudge _ _ rx _ => (match rx with | some l => decide (l.length ≤ 8) | none => true)
  | .ptpEventRx _ m => ptpFits m
  | .ethFrameReceive _ f => ethFits f
  | .claspFrameRx _ f => claspFits f
  | .shpTransaction _ rx _ => decide (rx.length ≤ 40 + 4 * 65535)
  | .dbecfg _ ws => ws.all (fun w => w.toNat % 4 == 0)
  | .fuseLoad l | .fuseRetry l => l.all (fun i => decide (i < 128))
  | .countMatch _ _ d | .overflow _ _ d => decide (0 < d)
  | .firmwareHandover _ | .pendingItem _ | .graftTmo _ | .resetCommandAssert | .responseSend _ _ | .registerReadTimeout _ _ _
  | .portEnable _ _ _ | .portDisable _ _ _ | .fpCntclr _ _ _ | .cwCntclr _ _ _ | .cwAccept _ _ _ | .glbCkclr _ _ | .sqClr _ _ _
  | .fhCtxclr _ _ | .fltCntclr _ _ _ | .fltSlotClr _ _ _ _ | .fltSlotWrite _ _ _ _ | .swap _ _ _ | .tmSnap _ _ _ | .tmClr _ _ _
  | .cmpWrite _ _ _ _ | .timerEnable _ _ _ _ | .timerDisable _ _ _ _ | .tbClr _ _ | .tbPtpClr _ _ | .tbPlsClr _ _ _
  | .servoEnable _ _ | .retryh _ _ | .retryf _ _ | .pulseEnable _ _ _ | .pulseDisable _ _ _ | .svClr _ _ | .sentinelEnable _ _ _
  | .trClr _ _ | .qClr _ _ _ | .queueEnable _ _ _ | .ppCntclr _ _ _ | .ppEthClr _ _ _ | .keySlotWrite _ _ _ | .mdioCmd _ _
  | .mdioFrameEnd _ | .clClr _ _ | .clLaneClr _ _ _ | .laneEnable _ _ _ | .laneDisable _ _ _ | .drainEnd _ | .rstClr _ _
  | .pwrClr _ _ | .pwrHwclr _ _ | .pwrPadrel _ _ | .aocRetry _ _ | .glbGrfClr _ _ | .loadBegin _ _ | .loadChunk _ _ | .loadEnd _ _
  | .otpProgram _ _ _ | .tsnsRead _ _ | .insnsRead _ _ _ | .tbNownsRead _ | .tbPpsnsRead _ | .tbAocloRead _ | .lastnsRead _ _
  | .snapnsRead _ _ | .capRead _ _ _ | .marknsRead _ _ | .secCtrRead _ _ | .pwrLwnsRead _ => true
  | .pollDue _ | .wireGrant _ | .dataReady _ _ | .retryIntervalExpiry _ _ | .delayEnd _ _ | .waitdrTimeout _ _ _ | .timedTrig _ _
  | .transactionComplete _ _ | .blockComplete _ _ _ _ _ _ | .clkLost _ _ | .bankDown _ | .bankReturn _ _ | .statusReadRepeat _ _
  | .writeLimitExpiry _ | .identityRead _ _ | .periodBoundary _ | .profileSwitch _ | .filterOutput _ _ _ _ | .timeExchange _ _
  | .fstateTimeout _ | .servoTmo _ | .stepInstant | .oscFail _ _ | .oscSwitchBack _ _ | .ppsIn | .pulseInstant _ | .pulseEnd _
  | .pulseRequest _ | .aocRatioUpdate _ | .syncTransmit _ | .delayReqTransmit _ | .announceReceiptTimeout | .timerPulseEnd _ _
  | .trigEdge _ _ _ _ | .debugHalt | .debugResume | .sieveSample _ _ _ | .snapshotComplete _ | .transformComplete _
  | .ruleSetChange _ | .engineRetire _ | .spareFailure | .recordArrival | .sampleTimeRelease _ | .streamFrameSend _ _
  | .reassemblyTimeout _ _ | .linkDown _ | .linkUp _ | .energyDetect _ | .shpResponse _ _ | .shpSelectRise _ _ _
  | .heartbeatSend _ | .heart _ _ | .chan _ | .trainingComplete _ _ | .trainingTimeout _ | .retrain _ | .laneResume _
  | .losslimExpiry _ => true
  | .powerOn _ _ _ | .brownout _ _ | .resetPin _ _ | .watchdog _ | .ftfault _ | .portfault _ | .lsfh | .lshb | .dbectx _
  | .timebaseParity _ | .jtagReset _ | .resetRelease | .nvWriteEnd | .fhCheckpoint | .coreCheckpoint | .imagePass1 | .imagePass2
  | .fieldLoad | .ap1 _ | .ap2 _ | .ap3 _ | .ap4 _ _ | .drainLimit _ | .wakePin _ | .hostWakeRequest _ | .wakeComplete _ _
  | .wakeStepTimeout _ _ _ | .tileAutoSleep _ | .tileAutoWake _ | .scheduleOccurrence _ | .hwakeOutPulseEnd | .aofail
  | .aocCrystalReturn | .clkok _ | .streamStuck _ _ | .trigTrailingEdge _ _ | .loadWindowEnd _ | .oscillatorReady _
  | .announceTransmit | .pauseQuantaExpiry _ | .forwardedFrameSend _ | .hostBankSupplyLoss _ | .hostBankSupplyReturn _ => true

end Sys2Proof
end

