-- ==== Sys2Proof/Tests/Slice0.lean ====
section
/-! SUPPORT. Tests of the model, and for each statement a state and operands that meet its hypotheses. -/

set_option Elab.async false

namespace Sys2Proof.Tests

open Sys2Proof Sys2Proof.Machine

-- ---------------------------------------------------------------- small states

/-- Sixteen key bytes. -/
def key : List Byte := (List.range 16).map (fun i => BitVec.ofNat 8 (17 * i + 3))

/-- Fields given values in a word. -/
def flds (l : List (Fld × Nat)) (v : Word := 0) : Word := l.foldl (fun v x => putFld v x.1 x.2) v

/-- A state with some registers set. -/
def withRegs (l : List (Nat × Word)) (s : State) : State := eachOf l (fun x s => setReg x.1 x.2 s) s

/-- A device whose sides run with the image loaded, its ports enabled, P2 bound to a key, lane A in SERVICE, and the time known. -/
def up : State :=
  let s := State.reset
  { s with regs := [(R.GLB_BOOTSTAT, flds [(F.GLB_BOOTSTAT_STAGE, 6), (F.GLB_BOOTSTAT_FSIDE, 3)]), (R.P_CTL 0, 1), (R.P_PERM 0, 0x7fff),
             (R.P_CTL 1, 1), (R.P_PERM 1, 0x7fff), (R.P_CTL 2, 1), (R.P_PERM 2, 0x7fff), (R.P_KEY 2, 0x101), (R.P_CTL 3, 1),
             (R.P_PERM 3, 0x7fff), (R.RST_CAUSE, 9), (R.RST_CAUSEACC, 9), (R.TB_STAT, flds [(F.TB_STAT_FSTATE, 1)]),
             (R.CL_CTL, 0x100a0001), (R.CL_STAT, 2)]
           boot := { s.boot with episodes := [], inReset := [], fused := true }
           nv := { s.nv with keys := [(1, { key := some key })] }
           cl := { s.cl with been := true }
           pow := { s.pow with fieldSeen := some .run }
           pins := { hirq := 0, hfault := false, ffault := false } }

theorem test_up_registers_canonical : tabWf regCold up.regs = true := by decide +kernel

-- ---------------------------------------------------------------- requests that pass the checks of R516

/-- The header of a request on a port without its CRC and its Signet. -/
def hdr0 (crit : Bool) (p : Partner) : Hdr :=
  { port := p, flags := if crit then 1 else 0, tag := 7, resv := 0, ctr := 5, signet := 0, crc := 0, src := 0, msg := 0, nvFails := false }

/-- The Signet of a critical request under the key. -/
def signetOf (op : Nat) (addr : Word) (payload : List Word) : BitVec 128 :=
  BitVec.ofNat 128 (leNat (cmac key (reqSigned (reqOf op (hdr0 true 2) addr payload))))

/-- The header of a request on a port with its Signet. -/
def hdr1 (crit : Bool) (op : Nat) (addr : Word) (payload : List Word) (p : Partner) : Hdr :=
  { hdr0 crit p with signet := if crit then signetOf op addr payload else 0 }

/-- The header of a request on a port, its CRC and its Signet computed. -/
def hdrOf (crit : Bool) (op : Nat) (addr : Word) (payload : List Word) (p : Partner := 2) : Hdr :=
  { hdr1 crit op addr payload p with crc := crc32c (reqBody (reqOf op (hdr1 crit op addr payload p) addr payload)) }

/-- The header of a WRITE of one register. -/
def hw (crit : Bool) (a : Nat) (v : Word) : Hdr := hdrOf crit opWRITE (wordOf a) [v]

theorem aesRounds_length : ∀ (ks : List (List Nat)) (s : List Nat), ks ≠ [] → (∀ k ∈ ks, k.length = 16) → (aesRounds ks s).length = 16
  | [], _, h, _ => absurd rfl h
  | [k], s, _, h => by
    have hk := h k (List.mem_cons_self ..)
    simp [aesRounds, xorL, shiftRows, hk]
  | k :: k' :: ks, s, _, h => by
    rw [aesRounds]
    exact aesRounds_length (k' :: ks) _ (by simp) (fun x hx => h x (List.mem_cons_of_mem _ hx))
    simp

theorem cmac_length (m : List Byte) : (cmac key m).length = 16 := by
  have hk : (match roundKeys key with | [] => false | _ :: ks => !ks.isEmpty && ks.all (fun k => k.length == 16)) = true := by
    decide +kernel
  unfold cmac aesEnc
  cases hr : roundKeys key with
  | nil => rw [hr] at hk; simp at hk
  | cons k ks =>
    rw [hr] at hk
    simp only [Bool.and_eq_true, List.all_eq_true, beq_iff_eq] at hk
    simp only [List.length_map]
    refine aesRounds_length ks _ ?_ hk.2
    intro h; rw [h] at hk; simp at hk

theorem leBytes_leNat : ∀ (n : Nat) (l : List Byte), l.length = n → leBytes n (leNat l) = l
  | 0, [], _ => rfl
  | n + 1, b :: l, h => by
    have hl : l.length = n := by simpa using h
    have h1 : (b.toNat + 256 * leNat l) % 256 = b.toNat := by have := b.isLt; omega
    have h2 : (b.toNat + 256 * leNat l) / 256 = leNat l := by have := b.isLt; omega
    rw [leNat, leBytes, h1, h2, leBytes_leNat n l hl]
    simp

theorem leNat_lt : ∀ l : List Byte, leNat l < 256 ^ l.length
  | [] => by decide
  | b :: l => by
    have := leNat_lt l
    have := b.isLt
    rw [leNat, List.length_cons, Nat.pow_succ]
    omega

theorem hdrOf_crc (crit : Bool) (op : Nat) (addr : Word) (pl : List Word) (p : Partner) :
    reqCrcHolds (reqOf op (hdrOf crit op addr pl p) addr pl) = true := by
  unfold reqCrcHolds
  rw [beq_iff_eq]
  rfl

theorem flags_bit : ∀ b : Bool, (if b then (1 : BitVec 8) else 0).getLsbD 0 = b ∧ (if b then (1 : BitVec 8) else 0) &&& 0xFE = 0 := by decide

theorem hdrOf_crit (crit : Bool) (op : Nat) (addr : Word) (pl : List Word) (p : Partner) : isCrit (hdrOf crit op addr pl p) = crit :=
  (flags_bit crit).1

theorem hdrOf_signet (op : Nat) (addr : Word) (pl : List Word) (p : Partner) :
    (reqOf op (hdrOf true op addr pl p) addr pl).signet = signetOf op addr pl :=
  (if_pos (hdrOf_crit true op addr pl p) : (if (hdrOf true op addr pl p).flags.getLsbD 0 = true then (hdrOf true op addr pl p).signet else 0) = _)

theorem hdrOf_signed (op : Nat) (addr : Word) (pl : List Word) (p : Partner) :
    signetHolds key (reqOf op (hdrOf true op addr pl p) addr pl) = true := by
  have hm : reqSigned (reqOf op (hdrOf true op addr pl p) addr pl) = reqSigned (reqOf op (hdr0 true 2) addr pl) := by
    simp only [reqSigned, reqHead, Req.crit, reqOf, hdrOf, hdr1, hdr0]
  unfold signetHolds signetBytes
  rw [beq_iff_eq, hdrOf_signet, hm]
  unfold signetOf
  have h := leNat_lt (cmac key (reqSigned (reqOf op (hdr0 true 2) addr pl)))
  rw [cmac_length] at h
  rw [BitVec.toNat_ofNat, Nat.mod_eq_of_lt (Nat.lt_of_lt_of_eq h (by decide)), leBytes_leNat 16 _ (cmac_length _)]

/-- The checks of `Passes` without the CRC and the Signet. -/
def passOk (crit : Bool) (op : Nat) (addr : Word) (pl : List Word) (s : State) (p : Partner := 2) : Bool :=
  let h := hdrOf crit op addr pl p
  let S := cnt (R.P_CNT p.val 0) s
  let c := rowCmd op h addr pl
  decide (s.pow.host.st = .run) && hears s p.val && !coreAway s && s.stalled.isEmpty && s.waits.isEmpty && decide ((partGet S p.val).outst = []) &&
    opcodes.contains c.op && decide (pl.length ≤ 1024) && (!crit || (decide (portKey S p.val = some key) && decide (ctrReference S p.val < 5))) &&
    !denied S p.val c

theorem passes_of {crit : Bool} {op : Nat} {addr : Word} {pl : List Word} {s : State} {p : Partner} (h : passOk crit op addr pl s p = true) :
    Passes op (hdrOf crit op addr pl p) addr pl s := by
  simp only [passOk, Bool.and_eq_true, Bool.or_eq_true, decide_eq_true_eq, Bool.not_eq_true', List.isEmpty_iff] at h
  obtain ⟨⟨⟨⟨⟨⟨⟨⟨⟨h1, h2⟩, h3⟩, h4⟩, h5⟩, h6⟩, h7⟩, h8⟩, h9⟩, h10⟩ := h
  refine ⟨h1, h2, hdrOf_crc crit op addr pl p, ?_, h3, rfl, h4, h5⟩
  have e1 : (hdrOf crit op addr pl p).port = p := rfl
  rw [e1]
  unfold earlyRefusal
  rw [h6, h7, h10]
  have e2 : (reqOf op (hdrOf crit op addr pl p) addr pl).flags &&& 0xFE = 0 := (flags_bit crit).2
  have e3 : (reqOf op (hdrOf crit op addr pl p) addr pl).resv = 0 := rfl
  have e4 : ¬ (reqOf op (hdrOf crit op addr pl p) addr pl).payload.length > 1024 := by show ¬ pl.length > 1024; omega
  rw [e2, e3]
  cases crit with
  | false =>
    have ec : (reqOf op (hdrOf false op addr pl p) addr pl).crit = false := hdrOf_crit false op addr pl p
    simp [ec, e4]
  | true =>
    have ec : (reqOf op (hdrOf true op addr pl p) addr pl).crit = true := hdrOf_crit true op addr pl p
    have e5 : (reqOf op (hdrOf true op addr pl p) addr pl).ctr.toNat = 5 := congrArg BitVec.toNat (if_pos (hdrOf_crit true op addr pl p))
    simp only [Bool.true_eq_false, false_or] at h9
    have es : signed (cnt (R.P_CNT p.val 0) s) p.val (reqOf op (hdrOf true op addr pl p) addr pl) = true := by
      unfold signed; rw [h9.1]; exact hdrOf_signed op addr pl p
    have er : ¬ 5 ≤ ctrReference (cnt (R.P_CNT p.val 0) s) p.val := by omega
    simp [ec, e4, e5, es, er]

/-- `Reaches`, decided. -/
def reachOk (s : State) (a : Nat) : Bool :=
  !unitHeld s a && (!fieldBlk (blockAt a).kind || (!fieldAway s && !ownerAway s a && decide (tileWakes a s = s)))

theorem reaches_of {s : State} {a : Nat} (h : reachOk s a = true) : Reaches s a := by
  simp only [reachOk, Bool.or_eq_true, Bool.and_eq_true, Bool.not_eq_true', decide_eq_true_eq] at h
  refine ⟨h.1, ?_, ?_⟩
  · intro hf; have h2 := h.2; rw [hf] at h2; simp at h2; exact h2.1
  · intro hf; have h2 := h.2; rw [hf] at h2; simp at h2; exact h2.2

/-- `WriteRuns` of a write with a good header, decided but for the CRC and the Signet. -/
def writeOk (crit : Bool) (a : Nat) (v : Word) (s : State) : Bool :=
  let T := taken opWRITE (hw crit a v) (wordOf a) [v] s
  passOk crit opWRITE (wordOf a) [v] s && !inLoadWait T && !(heldByOther T 2 && writeCrit T 2 (rowCmd opWRITE (hw crit a v) (wordOf a) [v])) &&
    reachOk T a && decide (firstRefusal (some 2) crit (fun _ => false) [(a, v)] T = none)

theorem writeRuns_of {crit : Bool} {a : Nat} {v : Word} {s : State} (h : writeOk crit a v s = true) : WriteRuns (hw crit a v) a v s := by
  simp only [writeOk, Bool.and_eq_true, Bool.not_eq_true', decide_eq_true_eq] at h
  obtain ⟨⟨⟨⟨h1, h2⟩, h3⟩, h4⟩, h5⟩ := h
  refine ⟨passes_of h1, h2, h3, reaches_of h4, ?_⟩
  have ef : (hw crit a v).flags.getLsbD 0 = crit := hdrOf_crit crit opWRITE (wordOf a) [v] 2
  rw [ef]
  exact h5


/-- A transaction of context 3. -/
def tx0 : TxnS := { ctx := 3, tn := 9, nom := 7000000, due := 7000100, cu := false, start := some 7000100, began := some 899000, slen := 16, retry := 0x00030010 }

/-- Port n holds these slots, and the wire is as said. -/
def slotsAt (n : Nat) (l : List (Nat × TxnS)) (wire : Option Nat) (s : State) : State :=
  portMod n (fun p => { p with slots := (List.range 8).map (fun i => (l.find? (fun x => x.1 == i)).map (·.2)), wire := wire }) s

/-- Writes with good headers of a list of registers and words run. -/
theorem runsAll {crit : Bool} {s : State} {l : List (Nat × Word)} (h : l.all (fun x => writeOk crit x.1 x.2 s) = true) :
    ∀ x ∈ l, WriteRuns (hw crit x.1 x.2) x.1 x.2 s :=
  fun x hx => writeRuns_of (List.all_eq_true.mp h x hx)

-- ---------------------------------------------------------------- witnesses: register writes

theorem test_ClearRegisters_run : ∀ x ∈ [(R.FP_CNTCLR 47, (0x3f : Word)), (R.CW_CNTCLR 47, 3), (R.SQ_CLR 47, 15), (R.FH_CTXCLR, 3),
    (R.FT_FLT_CNTCLR 5, 7), (R.SV_CLR, 7), (R.TR_CLR, 7), (R.Q_CLR 127, 15), (R.GLB_CKCLR, 0x7f), (R.TB_CLR, 7), (R.TB_PTP_CLR, 15),
    (R.P_CNTCLR 3, 0x7ff), (R.P_ETH_CLR 1, 0x7f), (R.CL_CLR, 7), (R.RST_CLR, 1), (R.PWR_CLR, 7), (R.GLB_GRF_CLR, 1)],
    WriteRuns (hw false x.1 x.2) x.1 x.2 up := runsAll (by decide +kernel)

theorem test_SelectiveClears_run : ∀ x ∈ [(R.CL_LANE_CLR 1, (0x7f : Word)), (R.FT_TM_CLR 5, 0xff), (R.FT_SLOT_CLR 5 15, 3), (R.TB_PLS_CLR 4, 1),
    (R.PWR_HWCLR, 1)], WriteRuns (hw false x.1 x.2) x.1 x.2 up := runsAll (by decide +kernel)

theorem test_PortWrites_enable :
    let s := withRegs [(R.FP_CLK 47, 10)] up
    let v : Word := flds [(F.FP_CTL_EN, 1), (F.FP_CTL_MODE, 1)]
    WriteRuns (hw true (R.FP_CTL 47) v) (R.FP_CTL 47) v s ∧ flag s (R.FP_CTL 47) F.FP_CTL_EN = false ∧ getFld v F.FP_CTL_EN = 1 :=
  ⟨writeRuns_of (by decide +kernel), by decide +kernel⟩

/-- A port that runs transactions in slots 0 and 7, slot 7 on the wire. -/
def busyPort : State :=
  slotsAt 47 [(0, { tx0 with wait := 2 }), (7, { tx0 with ctx := 4, wait := 1 })] (some 7) (withRegs [(R.FP_CLK 47, 10), (R.FP_CTL 47, flds [(F.FP_CTL_EN, 1), (F.FP_CTL_MODE, 1)])] up)

theorem test_PortWrites_disable :
    let v : Word := flds [(F.FP_CTL_MODE, 1)]
    WriteRuns (hw true (R.FP_CTL 47) v) (R.FP_CTL 47) v busyPort ∧ flag busyPort (R.FP_CTL 47) F.FP_CTL_EN = true ∧ getFld v F.FP_CTL_EN = 0 ∧
    (portGet busyPort 47).winQ = [] ∧ (slotGet busyPort 47 0).map (·.fin) = some none ∧ (portGet busyPort 47).wire = some 7 :=
  ⟨writeRuns_of (by decide +kernel), by decide +kernel⟩

theorem test_PortWrites_accept :
    let s := withRegs [(R.CW_STAT 47, flds [(idFld 2, 3)])] up
    WriteRuns (hw true (R.CW_ACCEPT 47) 5) (R.CW_ACCEPT 47) 5 s ∧ idState s 47 2 = 3 :=
  ⟨writeRuns_of (by decide +kernel), by decide +kernel⟩

/-- Slot 15 of tile 5 serves the running context 5. -/
def boundSlot : State :=
  withRegs [(R.FT_SLOT_BIND 5 15, flds [(F.FT_SLOT_BIND_BOUND, 1), (F.FT_SLOT_BIND_CTX, 5)]), (R.FT_SLOT 5 15, 8), (R.CTX_STAT 5, flds [(F.CTX_STAT_STATE, stRunning)])] up

theorem test_FilterWrites_slot :
    WriteRuns (hw true (R.FT_SLOT 5 15) 0x818) (R.FT_SLOT 5 15) 0x818 up ∧ slBound up 5 15 = false ∧
    WriteRuns (hw true (R.FT_SLOT 5 15) 0x818) (R.FT_SLOT 5 15) 0x818 boundSlot ∧ slBound boundSlot 5 15 = true ∧
    cState boundSlot (slCtx boundSlot 5 15) = stRunning :=
  ⟨writeRuns_of (by decide +kernel), by decide +kernel, writeRuns_of (by decide +kernel), by decide +kernel⟩

theorem test_FilterWrites_swap :
    WriteRuns (hw true (R.FT_FLT_BANK 5) 2) (R.FT_FLT_BANK 5) 2 boundSlot ∧ getFld (2 : Word) F.FT_FLT_BANK_SWAP = 1 ∧
    flag boundSlot (R.FT_FLT_BANK 5) F.FT_FLT_BANK_SWAP = false ∧ slBound boundSlot 5 15 = true ∧ slCoef boundSlot 5 15 = true ∧
    WriteRuns (hw true (R.FT_FLT_BANK 5) 2) (R.FT_FLT_BANK 5) 2 up ∧ flag up (R.FT_FLT_BANK 5) F.FT_FLT_BANK_SWAP = false ∧
    ∀ f : FSlot, slBound up 5 f.val = false ∧ (filtGet up (slotIx 5 f.val)).swapDue = false :=
  ⟨writeRuns_of (by decide +kernel), by decide +kernel, by decide +kernel, by decide +kernel, by decide +kernel,
   writeRuns_of (by decide +kernel), by decide +kernel⟩

/-- Channel c of tile 5 runs, started by P2. -/
def tmOn (c : Nat) (ctl : Word) (s : State) : State :=
  tmrMod (40 + c) (fun x => { x with on := true }) (withRegs [(R.FT_TMC_CTL 5 c, ctl), (R.FT_TMC_STAT 5 c, flds [(F.FT_TMC_STAT_OWNER, 4), (F.FT_TMC_STAT_RUN, 1)])] s)

theorem test_TimerWrites_snap : WriteRuns (hw false (R.FT_TM_SNAP 5) 0x80) (R.FT_TM_SNAP 5) 0x80 up ∧ (0x80 : Word).toNat % 256 ≠ 0 :=
  ⟨writeRuns_of (by decide +kernel), by decide +kernel⟩

theorem test_TimerWrites_stopped : WriteRuns (hw true (R.FT_TMC_CMP 5 7) 0x1234) (R.FT_TMC_CMP 5 7) 0x1234 up ∧ tmRuns up 5 7 = false :=
  ⟨writeRuns_of (by decide +kernel), by decide +kernel⟩

theorem test_TimerWrites_running :
    let s := tmOn 7 1 up
    WriteRuns (hw true (R.FT_TMC_CMP 5 7) 0x1234) (R.FT_TMC_CMP 5 7) 0x1234 s ∧ unlinked s 5 7 ∧ tmRuns s 5 7 = true :=
  ⟨writeRuns_of (by decide +kernel), ⟨by decide +kernel, by decide +kernel⟩, by decide +kernel⟩

/-- The channels 6 and 7 of tile 5 run as a linked pair. -/
def linkedPair : State := tmOn 6 (flds [(F.FT_TMC_CTL_EN, 1), (F.FT_TMC_CTL_LINK, 1)]) up

theorem test_TimerWrites_linked :
    WriteRuns (hw true (R.FT_TMC_CMP 5 6) 0x1234) (R.FT_TMC_CMP 5 6) 0x1234 linkedPair ∧ tmLinked linkedPair 5 6 = true ∧ tmRuns linkedPair 5 6 = true ∧
    (let s := tmrMod 46 (fun x => { x with heldCmp := some 77 }) linkedPair
     WriteRuns (hw true (R.FT_TMC_CMP 5 7) 0x1234) (R.FT_TMC_CMP 5 7) 0x1234 s ∧ tmOddOfPair s 5 7 = true ∧ tmRuns s 5 7 = true ∧
     (tmrGet s 46).heldCmp.isSome = true) ∧
    (let s := withRegs [(R.FT_TMC_CTL 5 6, flds [(F.FT_TMC_CTL_LINK, 1)])] up
     WriteRuns (hw true (R.FT_TMC_CTL 5 7) 1) (R.FT_TMC_CTL 5 7) 1 s ∧ tmOddOfPair s 5 7 = true) :=
  ⟨writeRuns_of (by decide +kernel), by decide +kernel, by decide +kernel, ⟨writeRuns_of (by decide +kernel), by decide +kernel⟩,
   ⟨writeRuns_of (by decide +kernel), by decide +kernel⟩⟩

theorem test_TimerWrites_enable :
    let v : Word := flds [(F.FT_TMC_CTL_EN, 1)]
    WriteRuns (hw true (R.FT_TMC_CTL 5 7) v) (R.FT_TMC_CTL 5 7) v up ∧ tmOddOfPair up 5 7 = false ∧
    flag up (R.FT_TMC_CTL 5 7) F.FT_TMC_CTL_EN = false ∧ getFld v F.FT_TMC_CTL_EN = 1 :=
  ⟨writeRuns_of (by decide +kernel), by decide +kernel⟩

theorem test_TimerWrites_disable :
    let s := tmOn 7 1 up
    WriteRuns (hw true (R.FT_TMC_CTL 5 7) 0) (R.FT_TMC_CTL 5 7) 0 s ∧ tmOddOfPair s 5 7 = false ∧ flag s (R.FT_TMC_CTL 5 7) F.FT_TMC_CTL_EN = true ∧
    getFld (0 : Word) F.FT_TMC_CTL_EN = 0 :=
  ⟨writeRuns_of (by decide +kernel), by decide +kernel⟩

theorem test_TimebaseWrites_servo :
    let v : Word := flds [(F.TB_CTL_EN, 1), (F.TB_CTL_SRC, 1)]
    WriteRuns (hw true R.TB_CTL v) R.TB_CTL v up ∧ tbEn up = false ∧ tbState up = 0 ∧ getFld v F.TB_CTL_EN = 1 ∧ getFld v F.TB_CTL_SRC ≠ 0 :=
  ⟨writeRuns_of (by decide +kernel), by decide +kernel⟩

theorem test_TimebaseWrites_retry :
    let s := withRegs [(R.TB_STAT, flds [(F.TB_STAT_FSTATE, 1), (F.TB_STAT_OSCH, 1)])] up
    WriteRuns (hw true R.TB_CLK 3) R.TB_CLK 3 s := writeRuns_of (by decide +kernel)

/-- Master device time is 5 ms, and pulse channel 4 has a start and a period. -/
def pulseAt (start : Word) (s : State) : State :=
  withRegs [(R.TB_PLS_NS 4, start), (R.TB_PLS_PERLO 4, 100000), (R.TB_PLS_WIDTH 4, 500)] { s with tm := { s.tm with master := 5000000 * nsU } }

/-- TB_PLSi_CTL with a mode. -/
def plsCtl (en mode : Nat) : Word := flds [(F.TB_PLS_CTL_EN, en), (F.TB_PLS_CTL_MODE, mode)]

theorem test_TimebaseWrites_pulse :
    WriteRuns (hw true (R.TB_PLS_CTL 4) (plsCtl 1 1)) (R.TB_PLS_CTL 4) (plsCtl 1 1) (pulseAt 4000000 up) ∧ plsEn (pulseAt 4000000 up) 4 = false ∧
    0 < plsPer (pulseAt 4000000 up) 4 ∧
    WriteRuns (hw true (R.TB_PLS_CTL 4) (plsCtl 1 2)) (R.TB_PLS_CTL 4) (plsCtl 1 2) (pulseAt 4000000 up) ∧ getFld (plsCtl 1 2) F.TB_PLS_CTL_MODE = 2 :=
  ⟨writeRuns_of (by decide +kernel), by decide +kernel, by decide +kernel, writeRuns_of (by decide +kernel), by decide +kernel⟩

theorem test_TimebaseWrites_once :
    (let s := pulseAt 5001000 up
     WriteRuns (hw true (R.TB_PLS_CTL 4) (plsCtl 1 0)) (R.TB_PLS_CTL 4) (plsCtl 1 0) s ∧ plsEn s 4 = false ∧ masterNs s + 1000 ≤ plsStart s 4) ∧
    (let s := pulseAt 5000999 up
     WriteRuns (hw true (R.TB_PLS_CTL 4) (plsCtl 1 0)) (R.TB_PLS_CTL 4) (plsCtl 1 0) s ∧ plsEn s 4 = false ∧ plsStart s 4 < masterNs s + 1000) :=
  ⟨⟨writeRuns_of (by decide +kernel), by decide +kernel⟩, ⟨writeRuns_of (by decide +kernel), by decide +kernel⟩⟩

theorem test_TimebaseWrites_off :
    let s := withRegs [(R.TB_PLS_CTL 4, plsCtl 1 1)] up
    WriteRuns (hw true (R.TB_PLS_CTL 4) (plsCtl 0 1)) (R.TB_PLS_CTL 4) (plsCtl 0 1) s ∧ plsEn s 4 = true ∧ getFld (plsCtl 0 1) F.TB_PLS_CTL_EN = 0 :=
  ⟨writeRuns_of (by decide +kernel), by decide +kernel⟩

theorem test_UnitWrites_run :
    WriteRuns (hw true (R.SV_SENT_CTL 7) 0) (R.SV_SENT_CTL 7) 0 up ∧
    (let v : Word := flds [(F.Q_CFG_EN, 1), (F.Q_CFG_SIZE, 16), (F.Q_CFG_BASE, 30)]
     WriteRuns (hw true (R.Q_CFG 127) v) (R.Q_CFG 127) v up ∧ qEn up 127 = false ∧ getFld v F.Q_CFG_EN = 1) ∧
    WriteRuns (hw true (R.P_KEY 3) 0) (R.P_KEY 3) 0 up ∧
    (let s := withRegs [(R.P0_MDIO_CFG, flds [(F.P0_MDIO_CFG_EN, 1)] (reg up R.P0_MDIO_CFG))] up
     WriteRuns (hw true R.P0_MDIO_CMD 0x100) R.P0_MDIO_CMD 0x100 s) ∧
    (let s := withRegs [(R.PWR_AOC, flds [(F.PWR_AOC_XTAL, 1), (F.PWR_AOC_ONRC, 1)])] up
     let v : Word := flds [(F.PWR_AOC_XTAL, 1), (F.PWR_AOC_RETRY, 1)]
     WriteRuns (hw true R.PWR_AOC v) R.PWR_AOC v s ∧ getFld v F.PWR_AOC_XTAL = 1 ∧ getFld v F.PWR_AOC_RETRY = 1 ∧
     flag s R.PWR_AOC F.PWR_AOC_XTAL = true ∧ flag s R.PWR_AOC F.PWR_AOC_ONRC = true) :=
  ⟨writeRuns_of (by decide +kernel), ⟨writeRuns_of (by decide +kernel), by decide +kernel⟩, writeRuns_of (by decide +kernel),
   writeRuns_of (by decide +kernel), ⟨writeRuns_of (by decide +kernel), by decide +kernel⟩⟩

theorem test_LaneAndPadWrites_enable :
    let s := withRegs [(R.CL_STAT, 2)] up
    let v : Word := 0x100a0003
    WriteRuns (hw true R.CL_CTL v) R.CL_CTL v s ∧ bitOf v.toNat 1 = true ∧ lnEn s 1 = false ∧ bitOf v.toNat (1 - 1) = lnEn s (1 - 1) ∧
    laneSt s 1 = lnOFF ∧ s.pow.host.st = .run ∧ s.pow.field.st = .run :=
  ⟨writeRuns_of (by decide +kernel), by decide +kernel⟩

/-- Both lanes are in SERVICE. -/
def twoLanes : State := withRegs [(R.CL_CTL, 0x100a0003), (R.CL_STAT, flds [(laneFld 0, 2), (laneFld 1, 2)])] up

theorem test_LaneAndPadWrites_disable :
    WriteRuns (hw true R.CL_CTL 0x100a0001) R.CL_CTL 0x100a0001 twoLanes ∧ bitOf (0x100a0001 : Word).toNat 1 = false ∧ lnEn twoLanes 1 = true ∧
    bitOf (0x100a0001 : Word).toNat (1 - 1) = lnEn twoLanes (1 - 1) ∧ laneUp twoLanes 1 = true ∧ laneUp twoLanes (1 - 1) = true :=
  ⟨writeRuns_of (by decide +kernel), by decide +kernel⟩

theorem test_LaneAndPadWrites_release :
    let s := { busyPort with pow := { busyPort.pow with held := [0, 5, 8] }, ports := (portMod 47 (fun p => { p with bankOk := true }) up).ports }
    WriteRuns (hw true R.PWR_PADREL 0x1ff) R.PWR_PADREL 0x1ff s ∧ s.pow.host.st = .run ∧ s.pow.field.st = .run ∧ s.pow.hwakeDue = false ∧
    (∀ k : CtxNo, cState s k.val ≠ stRunning) ∧ 47 / 8 ∈ s.pow.held ∧ flag s (R.FP_CTL 47) F.FP_CTL_EN = true ∧
    fld s (R.FP_CTL 47) F.FP_CTL_MODE ≠ 0 ∧ (portGet s 47).bankOk = true :=
  ⟨writeRuns_of (by decide +kernel), by decide +kernel⟩

-- ---------------------------------------------------------------- witnesses: field ports

/-- Two hypotheses of the form "every x that this option holds" at once. -/
theorem ofSome {α : Type} {o : Option α} {P : α → Prop} (v : α) (h : o = some v) (p : P v) : ∀ x, o = some x → P x := by
  intro x hx; rw [h] at hx; cases hx; exact p

/-- An XFER of some bits. -/
def xfer (n : Nat) : Nat := 1 * 2 ^ 60 + n * 2 ^ 32

/-- Context k runs on port n with these template steps; device time is known and 900 µs have passed. -/
def withCtx (k n : Nat) (steps : List Nat) (s : State) : State :=
  let s := withRegs ([(R.CTX_STAT k, flds [(F.CTX_STAT_STATE, stRunning)]), (R.CTX_BIND k, flds [(F.CTX_BIND_PORT, n), (F.CTX_BIND_TPL, 4)]),
    (R.CTX_CPERLO k, 1000000), (R.FP_CTL n, flds [(F.FP_CTL_EN, 1), (F.FP_CTL_MODE, 1)]), (R.FP_CLK n, 10), (R.FP_SS n, 0x25)] ++
    steps.zipIdx.flatMap (fun x => [(R.TPL_WORD 4 (2 * x.2), wordOf (x.1 % 2 ^ 32)), (R.TPL_WORD 4 (2 * x.2 + 1), wordOf (x.1 / 2 ^ 32))])) s
  { s with tm := { s.tm with field := 7000123 * nsU + 5 }, elapsed := 900000 }

/-- Context 3 polls port 47 with an XFER of 8 bits, and is due. -/
def polling : State := ctxMod 3 (fun c => { c with sched := some (7000000, 7000100) }) (withCtx 3 47 [xfer 8] up)

/-- `FallsDue`, decided. -/
def dueOk (s : State) (k : Nat) : Bool :=
  pollsGo s k && decide (cState s k = stRunning) && !cBit s k && decide ((ctxGet s k).acts = [] ∧ (ctxGet s k).profReq = none) &&
    (match (ctxGet s k).sched with | some x => decide (x.2 ≤ fieldNs s) && !dueBefore s k x.2 | none => false) &&
    (match (tileGet s (cPort s k / 8)).lastIssue with | some e => decide (e + 250 ≤ s.elapsed) | none => true) && pollable s k && !ctxAbsent s k

theorem fallsDue_of {s : State} {k : Nat} (h : dueOk s k = true) : FallsDue s k := by
  simp only [dueOk, Bool.and_eq_true, Bool.not_eq_true', decide_eq_true_eq] at h
  obtain ⟨⟨⟨⟨⟨⟨⟨h1, h2⟩, h3⟩, h4⟩, h5⟩, h6⟩, h7⟩, h8⟩ := h
  cases hs : (ctxGet s k).sched with
  | none => rw [hs] at h5; simp at h5
  | some x =>
    rw [hs] at h5
    simp only [Bool.and_eq_true, Bool.not_eq_true', decide_eq_true_eq] at h5
    refine ⟨h1, h2, h3, h4, ofSome x hs h5.1, by rw [hs]; rfl, ?_, h7, ofSome x hs h5.2, h8⟩
    intro e he
    rw [he] at h6
    simpa using h6

theorem test_PollDue_slot : Quiet polling ∧ FallsDue polling 3 ∧ freeSlot polling (cPort polling 3) = some 0 ∧
    (portGet polling (cPort polling 3)).bankOk = true ∧ flag polling (R.FP_CTL (cPort polling 3)) F.FP_CTL_EN = true ∧
    fld polling (R.FP_CTL (cPort polling 3)) F.FP_CTL_MODE ≠ 0 ∧ xferFirst polling (cPort polling 3) 3 0 ∧
    canTake polling (cPort polling 3) 0 = true :=
  ⟨⟨rfl, rfl⟩, fallsDue_of (by decide +kernel), by decide +kernel, by decide +kernel, by decide +kernel, by decide +kernel,
   ⟨by decide +kernel, by decide +kernel, by decide +kernel⟩, by decide +kernel⟩

theorem test_PollDue_wait :
    let s := slotsAt 47 ((List.range 8).map (fun i => (i, { tx0 with ctx := 20 + i }))) none polling
    Quiet s ∧ FallsDue s 3 ∧ freeSlot s (cPort s 3) = none :=
  ⟨⟨rfl, rfl⟩, fallsDue_of (by decide +kernel), by decide +kernel⟩

/-- Slot 7 of port 47 holds a transaction, beside another one of a later due time in slot 2. -/
def oneSlot (x : TxnS) (wire : Option Nat) (s : State) : State := slotsAt 47 [(2, { tx0 with due := 7000200, ctx := 5, wait := 0 }), (7, x)] wire s

theorem test_TheWire_grant :
    let x := { tx0 with wait := 0 }
    let s := oneSlot x none polling
    Quiet s ∧ portUp s 47 = true ∧ slotGet s 47 7 = some x ∧ x.fin = none ∧ x.step = 0 ∧ x.frame = [] ∧ xferFirst s 47 x.ctx x.slen ∧
    (portGet s 47).wire = none ∧ (portGet s 47).freeAt ≤ s.elapsed ∧ bankHeld s 47 = false ∧
    (∀ j : SlotNo, ∀ z ∈ slotGet s 47 j.val, j.val ≠ 7 → z.fin = none → (z.wait = 0 ∨ z.wait = 5) → x.due < z.due) :=
  ⟨⟨rfl, rfl⟩, by decide +kernel, by decide +kernel, rfl, rfl, rfl, ⟨by decide +kernel, by decide +kernel, by decide +kernel⟩, by decide +kernel⟩

theorem test_TheWire_done :
    let x := { tx0 with wait := 1 }
    let s := oneSlot x (some 7) polling
    let rx := List.replicate 8 true
    Quiet s ∧ portUp s 47 = true ∧ inFlight s 47 7 x ∧ (portGet s 47).wire = some 7 ∧ x.pulse = false ∧ x.pulseOn = none ∧ stepOp s x.ctx x.step = 1 ∧ endsNext s x ∧
    (portGet s 47).endWin = 0 ∧ rx.length = txnBits s 47 x (cStep s x.ctx x.step) :=
  ⟨⟨rfl, rfl⟩, by decide +kernel, ⟨by decide +kernel, rfl, rfl⟩, by decide +kernel, rfl, rfl, by decide +kernel, .inr (by decide +kernel), by decide +kernel⟩

/-- Context 3 waits for the data-ready line of select 2 on port 47, for 0.5 µs. -/
def waitsDr : State := withRegs [(R.FP_SS 47, 0x2a)] (withCtx 3 47 [2 * 2 ^ 60 + 5 + 3 * 2 ^ 58] up)

theorem test_DataReady_level :
    let s := slotsAt 47 [(7, { tx0 with wait := 2 })] none waitsDr
    Quiet s ∧ ∀ i : SlotNo, ∀ x ∈ slotGet s 47 i.val, awaits s x (drLineNo (.ss 1)) = false :=
  ⟨⟨rfl, rfl⟩, by decide +kernel⟩

theorem test_DataReady_edge :
    let x := { tx0 with wait := 2, watched := some 3 }
    let s := oneSlot x none waitsDr
    Quiet s ∧ portStamps s 47 = true ∧ drActive s 47 (drLineNo (.ss 2)) = false ∧ inFlight s 47 7 x ∧ awaits s x (drLineNo (.ss 2)) = true ∧ endsNext s x :=
  ⟨⟨rfl, rfl⟩, by decide +kernel, by decide +kernel, ⟨by decide +kernel, rfl, rfl⟩, by decide +kernel, .inr (by decide +kernel)⟩

theorem test_DataReady_wait :
    let x := { tx0 with wait := 2, watched := some 3 }
    let s := oneSlot x none waitsDr
    Quiet s ∧ portUp s 47 = true ∧ (portGet s 47).endWin = 0 ∧ inFlight s 47 7 x ∧ endsNext s x ∧ stepOp s x.ctx x.step = 2 ∧
    x.stepAt + 100 * bitsOf (cStep s x.ctx x.step) 23 0 ≤ s.elapsed ∧ anyLane s = true :=
  ⟨⟨rfl, rfl⟩, by decide +kernel, by decide +kernel, ⟨by decide +kernel, rfl, rfl⟩, .inr (by decide +kernel), by decide +kernel⟩

theorem test_DataReady_noWire :
    let x := { tx0 with wait := 0, watched := some 3 }
    let s := oneSlot x none waitsDr
    portUp s 47 = true ∧ (portGet s 47).endWin = 0 ∧ inFlight s 47 7 x ∧ stepOp s x.ctx x.step = 2 ∧ x.seen = false ∧
    x.stepAt + 100 * bitsOf (cStep s x.ctx x.step) 23 0 ≤ s.elapsed :=
  ⟨by decide +kernel, by decide +kernel, ⟨by decide +kernel, rfl, rfl⟩, by decide +kernel, rfl, by decide +kernel⟩

theorem test_StepEnds_retry :
    let x := { tx0 with wait := 4, stepAt := 800000, frame := [true], stores := [3], step := 2 }
    let s := slotsAt 47 [(7, x)] none polling
    Quiet s ∧ portUp s 47 = true ∧ (portGet s 47).endWin = 0 ∧ inFlight s 47 7 x ∧ x.stepAt + 100 * bitsOf x.retry.toNat 15 0 ≤ s.elapsed ∧ xferFirst s 47 x.ctx x.slen ∧
    canTake s 47 7 = true :=
  ⟨⟨rfl, rfl⟩, by decide +kernel, by decide +kernel, ⟨by decide +kernel, rfl, rfl⟩, by decide +kernel, ⟨by decide +kernel, by decide +kernel, by decide +kernel⟩,
   by decide +kernel⟩

theorem test_StepEnds_delay :
    let x := { tx0 with wait := 3, stepAt := 800000 }
    let s := oneSlot x none (withCtx 3 47 [3 * 2 ^ 60 + 50] up)
    Quiet s ∧ portUp s 47 = true ∧ (portGet s 47).endWin = 0 ∧ inFlight s 47 7 x ∧ x.stepAt + 10 * bitsOf (cStep s x.ctx x.step) 31 0 ≤ s.elapsed ∧ endsNext s x :=
  ⟨⟨rfl, rfl⟩, by decide +kernel, by decide +kernel, ⟨by decide +kernel, rfl, rfl⟩, by decide +kernel, .inr (by decide +kernel)⟩

theorem test_StepEnds_limit :
    let x := { tx0 with wait := 1, began := some 800000, tlim := 100 }
    let s := oneSlot x (some 7) polling
    Quiet s ∧ portUp s 47 = true ∧ (portGet s 47).endWin = 0 ∧ inFlight s 47 7 x ∧ (∀ b ∈ x.began, b + 1000 * x.tlim ≤ s.elapsed) ∧ x.began.isSome = true :=
  ⟨⟨rfl, rfl⟩, by decide +kernel, by decide +kernel, ⟨by decide +kernel, rfl, rfl⟩, by decide +kernel, rfl⟩

/-- Context 3 has a timed TRIG 2 µs after its due time, 40 × 5 ns long. -/
def trigs : State := withCtx 3 47 [4 * 2 ^ 60 + 2 ^ 59 + 2 * 2 ^ 16 + 40] up

theorem test_StepEnds_trig :
    let x := { tx0 with wait := 5, sel := true, due := 6990000 }
    let s := slotsAt 47 [(7, x)] none trigs
    let u := slotsAt 47 [(2, { tx0 with ctx := 5, wait := 1 }), (7, x)] (some 2) trigs
    Quiet s ∧ portUp s 47 = true ∧ inFlight s 47 7 x ∧ stepOp s x.ctx x.step = 4 ∧ trigAt x (cStep s x.ctx x.step) ≤ fieldNs s ∧ canTake s 47 7 = true ∧
    Quiet u ∧ portUp u 47 = true ∧ inFlight u 47 7 x ∧ stepOp u x.ctx x.step = 4 ∧ trigAt x (cStep u x.ctx x.step) ≤ fieldNs u ∧
    holdsWire u 47 7 = false ∧ canTake u 47 7 = false ∧ (portGet s 47).endWin = 0 ∧ (portGet u 47).endWin = 0 :=
  ⟨⟨rfl, rfl⟩, by decide +kernel, ⟨by decide +kernel, rfl, rfl⟩, by decide +kernel, by decide +kernel, by decide +kernel, ⟨rfl, rfl⟩, by decide +kernel,
   ⟨by decide +kernel, rfl, rfl⟩, by decide +kernel⟩

theorem test_StepEnds_trailing :
    let x := { tx0 with wait := 1, pulse := true, pulseOn := some 0, stepAt := 800000 }
    let s := oneSlot x (some 7) trigs
    Quiet s ∧ portUp s 47 = true ∧ x.pulseOn.isSome = true ∧ (portGet s 47).endWin = 0 ∧ inFlight s 47 7 x ∧ x.stepAt + 5 * bitsOf (cStep s x.ctx x.step) 15 0 ≤ s.elapsed ∧ endsNext s x :=
  ⟨⟨rfl, rfl⟩, by decide +kernel, rfl, by decide +kernel, ⟨by decide +kernel, rfl, rfl⟩, by decide +kernel, .inr (by decide +kernel)⟩

theorem test_Completion :
    let x := { tx0 with fin := some (1, 7) }
    let y := { tx0 with fin := some (0, 0), read := 4, drove := 4 }
    let s := oneSlot x none polling
    let u := oneSlot y none polling
    Quiet s ∧ portUp s 47 = true ∧ fhUp s = true ∧ slotGet s 47 7 = some x ∧ x.ctx < 512 ∧ (portGet s 47).waiters = [] ∧
    Quiet u ∧ portUp u 47 = true ∧ fhUp u = true ∧ slotGet u 47 7 = some y ∧ y.ctx < 512 ∧ (portGet u 47).waiters = [] ∧ y.stuck = 0 ∧
    y.few = false ∧ y.many = false ∧ y.read = y.drove :=
  ⟨⟨rfl, rfl⟩, by decide +kernel, by decide +kernel, by decide +kernel, by decide +kernel, by decide +kernel, ⟨rfl, rfl⟩, by decide +kernel⟩

theorem test_Completion_few : ∀ f ∈ [false, true],
    let x := { tx0 with fin := some (0, 0), read := 3, drove := 4, few := f }
    let s := oneSlot x none polling
    Quiet s ∧ portUp s 47 = true ∧ fhUp s = true ∧ slotGet s 47 7 = some x ∧ (portGet s 47).waiters = [] ∧ x.stuck = 0 ∧ x.many = false ∧ x.read < x.drove := by
  intro f hf
  simp only [List.mem_cons, List.not_mem_nil, or_false] at hf
  rcases hf with h | h <;> subst h <;> exact ⟨⟨rfl, rfl⟩, by decide +kernel⟩

/-- Port 47 runs two bitstreams. -/
def streams : State :=
  portMod 47 (fun p => { p with blk := true, runLim := 4 }) (withRegs [(R.FP_CTL 47, flds [(F.FP_CTL_EN, 1), (F.FP_CTL_MODE, 2)]), (R.FP_BCFG 47, 15),
    (R.FP_STUCK 47, flds [(F.FP_STUCK_RUN, 4)])] (withCtx 3 47 [] up))

theorem test_Bitstream : Quiet streams ∧ portUp streams 47 = true ∧ clkWatched streams 47 = true ∧ (portGet streams 47).blk = true ∧ fld streams R.TB_STAT F.TB_STAT_FSTATE ≠ 0 ∧
    tileRuns streams (47 / 8) = true ∧ anyLane streams = true ∧ flag streams (R.FP_BCFG 47) F.FP_BCFG_BEN = true ∧
    flag streams (R.FP_BCFG 47) F.FP_BCFG_AEN = true ∧ (portGet streams 47).runLim ≠ 0 :=
  ⟨⟨rfl, rfl⟩, by decide +kernel⟩

theorem test_BanksAndLoad :
    let off := { polling with pow := { polling.pow with field := { polling.pow.field with st := .off } } }
    let on := slotsAt 47 [(7, tx0)] (some 7) { polling with elapsed := 1000000 }
    Quiet on ∧ fieldAlive on = true ∧ (portGet on 47).wire = some 7 ∧ slotGet on 47 7 = some tx0 ∧ tx0.fin = none ∧ Quiet off ∧ fieldAlive off = false ∧
    portUp on 47 = true ∧ ∀ n : PortNo, n.val / 8 = 5 → portUp on n.val = true → (portGet on n.val).loadAt + 1000000 ≤ on.elapsed :=
  ⟨⟨rfl, rfl⟩, by decide +kernel, by decide +kernel, by decide +kernel, rfl, ⟨rfl, rfl⟩, by decide +kernel⟩

/-- A command of P2 that waits for its answer. -/
def cmd0 : Cmd := { op := opREAD, flags := 0, tag := 77, addr := wordOf 0x40000100, ctr := none, payload := [2], src := 0, msg := 0 }

/-- A window command at the front of port 47's queue. -/
def windowOf (w : WinCmd) : State :=
  portMod 47 (fun p => { p with winQ := [w] }) (partMod 2 (fun u => { u with outst := [cmd0] })
    (withRegs [(R.CW_CTL 47, flds [(F.CW_CTL_WEN, 1)]), (R.CW_CFG 47, flds [(F.CW_CFG_MAXB, 16)])] (withCtx 3 47 [] up)))

/-- A READ of two words that has one, and a WRITE of one word. -/
def winRead : WinCmd := { port := 2, cmd := cmd0, write := false, addr := 0x100, bytes := [], want := 8, got := [1, 2, 3, 4] }
def winWrite (phase : Nat) : WinCmd := { port := 2, cmd := cmd0, write := true, addr := 0x100, bytes := [1, 2, 3, 4], want := 0, got := [], phase := phase }

theorem test_Windows_read : Quiet (windowOf winRead) ∧ portUp (windowOf winRead) 47 = true ∧ winFront (windowOf winRead) 47 winRead [] ∧
    winReady (windowOf winRead) 47 ∧ winRead.write = false ∧ ([5, 6, 7, 8] : List Byte).length = chunkLen (windowOf winRead) 47 winRead ∧
    winRead.got.length + 4 = winRead.want ∧ anyLane (windowOf winRead) = true ∧ (portGet (windowOf winRead) 47).endWin = 0 :=
  ⟨⟨rfl, rfl⟩, by decide +kernel, ⟨by decide +kernel, by decide +kernel⟩, ⟨by decide +kernel, by decide +kernel⟩, by decide +kernel⟩

/-- The window's state after 100 s, when its limits have passed. -/
def lateWindow (w : WinCmd) : State := { windowOf w with elapsed := 100000000000 }

theorem test_Windows_limits :
    let r := lateWindow winRead
    let v : WinCmd := { winWrite 3 with wlim := some 5, srop := 5 }
    let w := lateWindow v
    Quiet r ∧ portUp r 47 = true ∧ winFront r 47 winRead [] ∧ (portGet r 47).endWin = 0 ∧
    winRead.since + 1000000 * fld r (R.CW_TLIM 47) F.CW_TLIM_LIMIT ≤ r.elapsed ∧ lastChunk r 47 winRead [5, 6, 7, 8] = true ∧ anyLane r = true ∧
    Quiet w ∧ portUp w 47 = true ∧ winFront w 47 v [] ∧ (portGet w 47).endWin = 0 ∧ anyLane w = true ∧
    5 + 1000000 * fld w (R.CW_TLIM 47) F.CW_TLIM_WLIM ≤ w.elapsed ∧ v.srop + 100000 ≤ w.elapsed ∧ winReady w 47 :=
  ⟨⟨rfl, rfl⟩, by decide +kernel, ⟨by decide +kernel, by decide +kernel⟩, by decide +kernel, by decide +kernel, by decide +kernel, by decide +kernel, ⟨rfl, rfl⟩,
   by decide +kernel, ⟨by decide +kernel, by decide +kernel⟩, by decide +kernel, by decide +kernel, by decide +kernel, by decide +kernel,
   ⟨by decide +kernel, by decide +kernel⟩⟩

theorem test_Windows_write : ∀ ph ∈ [0, 1, 2, 3], Quiet (windowOf (winWrite ph)) ∧ portUp (windowOf (winWrite ph)) 47 = true ∧
    winFront (windowOf (winWrite ph)) 47 (winWrite ph) [] ∧ winReady (windowOf (winWrite ph)) 47 ∧ (portGet (windowOf (winWrite ph)) 47).endWin = 0 ∧
    (winWrite ph).srop + 100000 ≤ (windowOf (winWrite ph)).elapsed ∧ (winWrite ph).write = true ∧ (winWrite ph).phase = ph :=
  fun ph hp => ⟨⟨rfl, rfl⟩, (by decide +kernel : ∀ ph ∈ [0, 1, 2, 3], portUp (windowOf (winWrite ph)) 47 = true) ph hp,
    (by decide +kernel : ∀ ph ∈ [0, 1, 2, 3], (portGet (windowOf (winWrite ph)) 47).winQ = [winWrite ph] ∧
      (partGet (windowOf (winWrite ph)) 2).outst.contains cmd0 = true) ph hp,
    (by decide +kernel : ∀ ph ∈ [0, 1, 2, 3], winMayRun (windowOf (winWrite ph)) 47 = true ∧ (portGet (windowOf (winWrite ph)) 47).idDue = []) ph hp,
    (by decide +kernel : ∀ ph ∈ [0, 1, 2, 3], (portGet (windowOf (winWrite ph)) 47).endWin = 0) ph hp,
    (by decide +kernel : ∀ ph ∈ [0, 1, 2, 3], (winWrite ph).srop + 100000 ≤ (windowOf (winWrite ph)).elapsed) ph hp, rfl, rfl⟩

/-- Port 47 checks identity slot 2. -/
def checksId : State :=
  withRegs [(R.CW_CTL 47, flds [(F.CW_CTL_IDEN, 1)]), (R.CW_IDS_CTL 47 2, flds [(F.CW_IDS_CTL_USE, 1)]), (R.CW_ID 47, flds [(F.CW_ID_IDLEN, 8)])]
    (withCtx 3 47 [] up)

theorem test_Identity :
    let u := portMod 47 (fun p => { p with idDue := [2] }) checksId
    Quiet checksId ∧ portUp checksId 47 = true ∧ idUsed checksId 47 2 = true ∧ flag checksId (R.FP_CTL 47) F.FP_CTL_EN = true ∧
    2 ∉ (portGet checksId 47).idDue ∧ idState checksId 47 2 = 0 ∧ 2 ∉ (portGet checksId 47).idRetry ∧ (portGet checksId 47).endWin = 0 ∧
    Quiet u ∧ portUp u 47 = true ∧ idUsed u 47 2 = true ∧ 2 ∈ (portGet u 47).idDue ∧ serialMayRun u 47 = true ∧ (portGet u 47).endWin = 0 ∧
    (List.replicate 8 (0x5a : Byte)).length = fld u (R.CW_ID 47) F.CW_ID_IDLEN :=
  ⟨⟨rfl, rfl⟩, by decide +kernel, by decide +kernel, by decide +kernel, by decide +kernel, by decide +kernel, by decide +kernel, by decide +kernel,
   ⟨rfl, rfl⟩, by decide +kernel⟩

theorem test_Identity_again : ∀ st ∈ [1, 2],
    let s := { withRegs [(R.CW_STAT 47, flds [(idFld 2, st)]), (R.CW_PROBE 47, flds [(F.CW_PROBE_RECHK, 1), (F.CW_PROBE_PERIOD, 1000)])] checksId with elapsed := 1000000000 }
    Quiet s ∧ portUp s 47 = true ∧ idUsed s 47 2 = true ∧ flag s (R.FP_CTL 47) F.FP_CTL_EN = true ∧ 2 ∉ (portGet s 47).idDue ∧ idState s 47 2 = st ∧
    (portGet s 47).endWin = 0 ∧ flag s (R.CW_PROBE 47) F.CW_PROBE_RECHK = true ∧
    tabGet (fun _ => 0) (portGet s 47).idAt 2 + 1000000 * fld s (R.CW_PROBE 47) F.CW_PROBE_PERIOD ≤ s.elapsed := by
  intro st hs
  simp only [List.mem_cons, List.not_mem_nil, or_false] at hs
  rcases hs with h | h <;> subst h <;> exact ⟨⟨rfl, rfl⟩, by decide +kernel⟩

theorem test_Identity_ends :
    let d := portMod 47 (fun p => { p with idDue := [2] }) checksId
    let s := portMod 47 (fun p => { p with bankOk := false }) d
    let u := { d with elapsed := 100000000000 }
    Quiet s ∧ portUp s 47 = true ∧ idUsed s 47 2 = true ∧ (portGet s 47).endWin = 0 ∧ 2 ∈ (portGet s 47).idDue ∧ (portGet s 47).bankOk = false ∧
    2 ∈ (portGet u 47).idDue ∧ tabGet (fun _ => 0) (portGet u 47).idAt 2 + 1000000 * fld u (R.CW_TLIM 47) F.CW_TLIM_LIMIT ≤ u.elapsed :=
  ⟨⟨rfl, rfl⟩, by decide +kernel⟩

/-- Context 3 holds actions and a profile request. -/
def bounded (acts : List CtxAct) (pr : Option Bool) (s : State) : State := ctxMod 3 (fun c => { c with acts := acts, profReq := pr }) s

theorem test_Boundaries_actions : ∀ acts ∈ [[], [.stop], [.cal 5 6]], ∀ pr ∈ [none, some false],
    let s := bounded acts pr polling
    Quiet s ∧ fhUp s = true ∧ cState s 3 = stRunning ∧ boundaryNow s 3 ∧ (ctxGet s 3).acts = acts ∧ (ctxGet s 3).profReq = pr ∧ inflight s 3 = false :=
  fun acts ha pr hp => ⟨⟨rfl, rfl⟩,
    (by decide +kernel : ∀ acts ∈ [[], [CtxAct.stop], [.cal 5 6]], ∀ pr ∈ [none, some false], fhUp (bounded acts pr polling) = true) acts ha pr hp,
    (by decide +kernel : ∀ acts ∈ [[], [CtxAct.stop], [.cal 5 6]], ∀ pr ∈ [none, some false], cState (bounded acts pr polling) 3 = stRunning) acts ha pr hp,
    ofSome (7000000, 7000100)
      ((by decide +kernel : ∀ acts ∈ [[], [CtxAct.stop], [.cal 5 6]], ∀ pr ∈ [none, some false],
        (ctxGet (bounded acts pr polling) 3).sched = some (7000000, 7000100)) acts ha pr hp)
      ((by decide +kernel : ∀ acts ∈ [[], [CtxAct.stop], [.cal 5 6]], ∀ pr ∈ [none, some false],
        7000100 ≤ fieldNs (bounded acts pr polling)) acts ha pr hp),
    (by decide +kernel : ∀ acts ∈ [[], [CtxAct.stop], [.cal 5 6]], ∀ pr ∈ [none, some false],
      (ctxGet (bounded acts pr polling) 3).acts = acts ∧ (ctxGet (bounded acts pr polling) 3).profReq = pr ∧ inflight (bounded acts pr polling) 3 = false) acts ha pr hp⟩

theorem test_Boundaries_profile :
    let s := bounded [] (some true) (withRegs [(R.CTX_APERLO 3, 500000), (R.CTX_APERHI 3, flds [(F.CTX_APERHI_BATCH, 1)])] polling)
    Quiet s ∧ fhUp s = true ∧ cState s 3 = stRunning ∧ boundaryNow s 3 ∧ cBit s 3 = false ∧ (ctxGet s 3).profReq = some true ∧ true ≠ cAlert s 3 ∧
    cHasAlert s 3 = true :=
  ⟨⟨rfl, rfl⟩, by decide +kernel, by decide +kernel, ofSome (7000000, 7000100) (by decide +kernel) (by decide +kernel), by decide +kernel⟩

theorem test_Boundaries_bitstream :
    let s := withRegs [(R.FP_CTL 47, flds [(F.FP_CTL_EN, 1), (F.FP_CTL_MODE, 2)])] polling
    Quiet s ∧ fhUp s = true ∧ cState s 3 = stRunning ∧ boundaryNow s 3 ∧ cBit s 3 = true :=
  ⟨⟨rfl, rfl⟩, by decide +kernel, by decide +kernel, ofSome (7000000, 7000100) (by decide +kernel) (by decide +kernel), by decide +kernel⟩

/-- Slot 15 of tile 5 filters context 3 through. -/
def filters : State :=
  filtMod (slotIx 5 15) (fun x => { x with count := 4, words := List.replicate 4 ⟨5, 0, 0, 0⟩ }) (withRegs [(R.FT_SLOT_BIND 5 15, flds [(F.FT_SLOT_BIND_BOUND, 1),
    (F.FT_SLOT_BIND_CTX, 3), (F.FT_SLOT_BIND_PRESET, 1)]), (R.CTX_BIND 3, flds [(F.CTX_BIND_PORT, 47), (F.CTX_BIND_TPL, 4), (F.CTX_BIND_FEN, 1), (F.CTX_BIND_SLOT, 15)])]
    polling)

theorem test_Boundaries_filter : Quiet filters ∧ fhUp filters = true ∧ engineUp filters 5 = true ∧ slBound filters 5 15 = true ∧
    needUnit filters 5 15 ((filtGet filters (slotIx 5 15)).outs + 1) ≤ haveUnits filters 5 15 ∧ slBit filters 5 15 = false ∧ anyLane filters = true :=
  ⟨⟨rfl, rfl⟩, by decide +kernel⟩

-- ---------------------------------------------------------------- witnesses: device time and timers

/-- Known times on both sides, some time after reset; TB_STAT as given. -/
def timed (stat : Word) : State :=
  { withRegs [(R.TB_STAT, stat)] up with
    tm := { up.tm with master := 5000000 * nsU + 17, field := 7000123 * nsU + 5 }, elapsed := 3000900000, tmrAt := 3000900000 }

def tbStat (f m : Nat) : Word := flds [(F.TB_STAT_FSTATE, f), (F.TB_STAT_STATE, m)]

theorem test_Exchanges :
    let s := timed (tbStat 2 0)
    let u := { s with tm := { s.tm with fromField := true } }
    let z := timed (tbStat 0 0)
    Quiet s ∧ laneUp s 0 = true ∧ s.tm.fromField = false ∧ masterRuns s = true ∧ fState s ≠ 0 ∧
    Quiet u ∧ laneUp u 0 = true ∧ u.tm.fromField = true ∧ fState u ≠ 0 ∧
    Quiet z ∧ laneUp z 0 = true ∧ z.tm.fromField = false ∧ masterRuns z = true ∧ fState z = 0 ∧ z.pow.field.st = .run ∧ coldReset z .field = false :=
  ⟨⟨rfl, rfl⟩, by decide +kernel, by decide +kernel, by decide +kernel, by decide +kernel, ⟨rfl, rfl⟩, by decide +kernel, by decide +kernel, by decide +kernel,
   ⟨rfl, rfl⟩, by decide +kernel⟩

theorem test_Exchanges_limits :
    let s := timed (tbStat 1 2)
    let l := withRegs [(R.TB_HOLD, 3)] { s with tm := { s.tm with last := some 17 } }
    Quiet s ∧ fieldRuns s = true ∧ fState s = 1 ∧ s.tm.exAt + 500000 ≤ s.elapsed ∧ anyLane s = true ∧
    Quiet l ∧ masterRuns l = true ∧ tbState l = 2 ∧ l.tm.last = some 17 ∧ ∀ x ∈ l.tm.last, x + fld l R.TB_HOLD F.TB_HOLD_TMO * 1000000 * nsU ≤ l.tm.master :=
  ⟨⟨rfl, rfl⟩, by decide +kernel, by decide +kernel, by decide +kernel, by decide +kernel, ⟨rfl, rfl⟩, by decide +kernel⟩

/-- A step by -777 ns that P2 asked for and whose instant has come. -/
def stepNow : StepReq := { amt := .add (-777 * nsU), at_ := 5000000 * nsU, cmd := some (2, cmd0) }

theorem test_StepInstant :
    let b := partMod 2 (fun u => { u with outst := [cmd0] }) (timed (tbStat 1 0))
    let s := { b with tm := { b.tm with step := [stepNow] } }
    let u := { b with tm := { b.tm with fieldStep := [stepNow] } }
    Quiet s ∧ masterRuns s = true ∧ (∀ q ∈ s.tm.step.head?, q.at_ ≤ s.tm.master) ∧ s.tm.step.head? = some stepNow ∧ fieldStepFirst s = false ∧ anyLane s = true ∧ fState s ≠ 0 ∧
    (∀ x ∈ stepNow.cmd, (partGet s x.1.val).outst.contains x.2 = true) ∧
    Quiet u ∧ masterRuns u = true ∧ u.tm.step = [] ∧ fieldStepFirst u = true ∧ (∀ q ∈ u.tm.fieldStep.head?, q.at_ ≤ u.tm.master) ∧ u.tm.fieldStep.head? = some stepNow :=
  ⟨⟨rfl, rfl⟩, by decide +kernel, by decide +kernel, rfl, by decide +kernel, by decide +kernel, by decide +kernel, by decide +kernel, ⟨rfl, rfl⟩, by decide +kernel⟩

theorem test_Oscillators :
    let s := timed (tbStat 1 2)
    let b := withRegs [(R.TB_STAT, flds [(F.TB_STAT_FSTATE, 1), (F.TB_STAT_OSCH, 1), (F.TB_STAT_OSCF, 1)]), (R.TB_CLK, 3)] s
    let u := { b with pow := { b.pow with host := { b.pow.host with onRc := true }, field := { b.pow.field with onRc := true } } }
    Quiet s ∧ hostAlive s = true ∧ flag s R.TB_STAT F.TB_STAT_OSCH = false ∧ fieldAlive s = true ∧ flag s R.TB_STAT F.TB_STAT_OSCF = false ∧
    s.pow.field.st = .run ∧ fState s ≠ 0 ∧
    Quiet u ∧ ∀ x ∈ [Side.host, .field], sideAlive u x = true ∧ flag u R.TB_STAT (oscFld x) = true ∧ flag u R.TB_CLK (retryFld x) = true ∧ (sideGet u x).onRc = true :=
  ⟨⟨rfl, rfl⟩, by decide +kernel, by decide +kernel, by decide +kernel, by decide +kernel, by decide +kernel, by decide +kernel, ⟨rfl, rfl⟩, by decide +kernel⟩

/-- PPS_IN is on, with the last edge e ns ago. -/
def pps (e : Nat) (src : Nat) : State :=
  let s := withRegs [(R.TB_CTL, flds [(F.TB_CTL_SRC, src)]), (R.TB_PPSIN, flds [(F.TB_PPSIN_EN, 1)])] (timed (tbStat 1 0))
  { s with tm := { s.tm with ppsLast := some (s.elapsed - e) } }

/-- The distance of the last edge is not 1 s ± 1 ms. -/
def ppsLate (s : State) : Prop := ∃ e ∈ s.tm.ppsLast, s.elapsed - e < 999000000 ∨ 1001000000 < s.elapsed - e

theorem test_PulsesAndPps_late : Quiet (pps 998999999 2) ∧ masterRuns (pps 998999999 2) = true ∧ flag (pps 998999999 2) R.TB_PPSIN F.TB_PPSIN_EN = true ∧
    ppsLate (pps 998999999 2) :=
  ⟨⟨rfl, rfl⟩, by decide +kernel, by decide +kernel, 2001900001, by decide +kernel, by decide +kernel⟩

theorem test_PulsesAndPps_good : ∀ src ∈ [1, 2], Quiet (pps 999000000 src) ∧ masterRuns (pps 999000000 src) = true ∧
    flag (pps 999000000 src) R.TB_PPSIN F.TB_PPSIN_EN = true ∧ tbSrc (pps 999000000 src) = src ∧ tbEn (pps 999000000 src) = false ∧ ¬ ppsLate (pps 999000000 src) := by
  intro src hs
  simp only [List.mem_cons, List.not_mem_nil, or_false] at hs
  rcases hs with h | h <;> subst h <;>
  exact ⟨⟨rfl, rfl⟩, by decide +kernel, by decide +kernel, by decide +kernel, by decide +kernel,
    fun ⟨e, he, h⟩ => absurd h (ofSome (P := fun e => ¬ (_ - e < 999000000 ∨ 1001000000 < _ - e)) 2001900000 (by decide +kernel) (by decide +kernel) e he)⟩

/-- Pulse channel 4 runs periodically, with an instant that has come, a pulse that is over, and a request of Sieve for it. -/
def pulses : State :=
  let s := pulseMod 4 (fun p => { p with next := some 4999000, active := some 3000890000, driven := true })
    (withRegs [(R.TB_PLS_CTL 4, plsCtl 1 1), (R.TB_PLS_PERLO 4, 70000), (R.TB_PLS_WIDTH 4, 400)] (timed (tbStat 1 0)))
  { s with sv := { s.sv with pulses := [4] } }

theorem test_PulsesAndPps_pulse : Quiet pulses ∧ masterRuns pulses = true ∧ (∀ m ∈ (pulseGet pulses 4).next, m ≤ masterNs pulses) ∧
    (pulseGet pulses 4).next.isSome = true ∧ plsEn pulses 4 = true ∧ (∀ e ∈ (pulseGet pulses 4).active, e + plsWidth pulses 4 ≤ pulses.elapsed) ∧
    (pulseGet pulses 4).active.isSome = true ∧ 4 ∈ pulses.sv.pulses :=
  ⟨⟨rfl, rfl⟩, by decide +kernel⟩

/-- The ordinary clock of port 1 is in a PTP state, and has a parent where it needs one. -/
def ptpSt (ps : Nat) (ctl : List (Fld × Nat)) : State :=
  let fm : Foreign := { srcId := 77, srcPort := 1, prio1 := 1, cls := 1, acc := 1, var := 1, prio2 := 1, gmId := 4, steps := 1, utcOff := 0, utcValid := true, heard := 2 }
  let s := withRegs [(R.TB_PTP_CTL, flds ([(F.TB_PTP_CTL_PORT, 1)] ++ ctl)), (R.TB_PTP_STAT, flds [(F.TB_PTP_STAT_PSTATE, ps)]), (R.P_STAT 1, flds [(F.P_STAT_UP, 1)]), (R.TB_PTP_INT, flds [(F.TB_PTP_INT_ARTO, 2)])]
    (timed (tbStat 1 0))
  { s with tm := { s.tm with ptp := { s.tm.ptp with foreign := [fm], parent := some fm } } }

/-- A message of the clock's own domain from its parent. -/
def ptpMsg (kind : Nat) : PtpMsg :=
  { kind := kind, version := 2, minor := 1, domain := 0, twoStep := true, srcId := 77, srcPort := 1, seqId := 65535, corr := 5, origin := 9, reqId := 3,
    rx := 123456789, prio1 := 1, cls := 2, acc := 3, var := 4, prio2 := 5, gmId := 6, steps := 0, utcOff := 37, utcValid := true }

theorem test_PtpMessages_takes :
    let m := ptpSt 6 [(F.TB_PTP_CTL_EN, 1)]
    let v := ptpSt 9 [(F.TB_PTP_CTL_EN, 1)]
    Quiet m ∧ ptpTakes m 1 (ptpMsg 1) ∧ pState m = 6 ∧ ptpPeer m = false ∧
    Quiet v ∧ ptpTakes v 1 (ptpMsg 0) ∧ pState v = 9 ∧ fromParent v (ptpMsg 0) = true ∧ (ptpMsg 0).twoStep = true :=
  ⟨⟨rfl, rfl⟩, (by refine ⟨?_, ?_, ?_, ?_, ?_, ?_, ?_, ?_⟩ <;> decide +kernel), by decide +kernel, by decide +kernel, ⟨rfl, rfl⟩,
   (by refine ⟨?_, ?_, ?_, ?_, ?_, ?_, ?_, ?_⟩ <;> decide +kernel), by decide +kernel⟩

theorem test_PtpMessages_time : (ptpSt 9 [(F.TB_PTP_CTL_EN, 1)]).tm.ptp.annAt + annWait (ptpSt 9 [(F.TB_PTP_CTL_EN, 1)]) ≤ (ptpSt 9 [(F.TB_PTP_CTL_EN, 1)]).elapsed := by decide +kernel

theorem test_PtpMessages_sends :
    let tc := ptpSt 4 [(F.TB_PTP_CTL_TC, 1)]
    let tl := withRegs [(R.P_STAT 0, flds [(F.P_STAT_UP, 1)])] tc
    linkIsUp tc 0 = false ∧ hears tl 1 = true ∧ linkIsUp tl 0 = true ∧
    let m := ptpSt 6 [(F.TB_PTP_CTL_EN, 1)]
    let v := ptpSt 9 [(F.TB_PTP_CTL_EN, 1)]
    Quiet tc ∧ hears tc 1 = true ∧ flag tc R.TB_PTP_CTL F.TB_PTP_CTL_TC = true ∧ ptpEn tc = false ∧
    Quiet m ∧ ptpSends m = true ∧ ptpEn m = true ∧ ptpPort m = 1 ∧ pState m = 6 ∧
    Quiet v ∧ ptpSends v = true ∧ ptpEn v = true ∧ ptpPort v = 1 ∧ pState v = 9 ∧ masterRuns v = true ∧ v.tm.ptp.parent.isSome = true ∧
    (∀ f ∈ v.tm.ptp.foreign, ∃ g ∈ v.tm.ptp.parent, f.srcId = g.srcId ∧ f.srcPort = g.srcPort) :=
  ⟨by decide +kernel, by decide +kernel, by decide +kernel, ⟨rfl, rfl⟩, by decide +kernel, by decide +kernel, by decide +kernel, ⟨rfl, rfl⟩, by decide +kernel, by decide +kernel, by decide +kernel, by decide +kernel,
   ⟨rfl, rfl⟩, by decide +kernel, by decide +kernel, by decide +kernel, by decide +kernel, by decide +kernel, by decide +kernel,
   (by intro f hf
       have h : (ptpSt 9 [(F.TB_PTP_CTL_EN, 1)]).tm.ptp.parent = (ptpSt 9 [(F.TB_PTP_CTL_EN, 1)]).tm.ptp.foreign.head? := rfl
       have h2 : (ptpSt 9 [(F.TB_PTP_CTL_EN, 1)]).tm.ptp.foreign = [f] := by
         change f ∈ [_] at hf
         rw [List.mem_singleton] at hf; rw [hf]; rfl
       exact ⟨f, (by show _ = some f; rw [h, h2]; rfl), rfl, rfl⟩)⟩

/-- Channel 7 of tile 5 counts towards its compare value. -/
def counting (cnt cmp : Word) : State := withRegs [(R.FT_TMC_CNT 5 7, cnt), (R.FT_TMC_CMP 5 7, cmp)] (tmOn 7 (flds [(F.FT_TMC_CTL_EN, 1), (F.FT_TMC_CTL_SRC, 1)]) (timed (tbStat 1 0)))

theorem test_TimerEvents_step :
    let m := counting 5 10
    let z := counting 0xfffffffb 10
    m.waits = [] ∧ unlinked m 5 7 ∧ canStep m 5 7 5 ∧ tmDist (2 ^ 32) (reg m (R.FT_TMC_CNT 5 7)).toNat (reg m (R.FT_TMC_CMP 5 7)).toNat ≤ 5 ∧
    z.waits = [] ∧ unlinked z 5 7 ∧ canStep z 5 7 6 ∧ tmDist (2 ^ 32) (reg z (R.FT_TMC_CNT 5 7)).toNat 0 ≤ 6 :=
  ⟨rfl, ⟨by decide +kernel, by decide +kernel⟩, ⟨by decide +kernel, by decide +kernel, by decide +kernel, by decide +kernel⟩, by decide +kernel,
   rfl, ⟨by decide +kernel, by decide +kernel⟩, ⟨by decide +kernel, by decide +kernel, by decide +kernel, by decide +kernel⟩, by decide +kernel⟩

theorem test_TimerEvents_pulse :
    let s := tmrMod 47 (fun x => { x with on := false, pulse := some 30, level := some true }) (timed (tbStat 1 0))
    s.waits = [] ∧ (tmrGet s 47).pulse = some 30 ∧ tileAwake s 5 = true ∧ tmFrozen s 5 7 = false ∧ (tmrGet s 47).on = false ∧ s.tmrAt = s.elapsed ∧
    anyLane s = true ∧ tmCtl s 5 7 F.FT_TMC_CTL_DBGRUN = 0 ∧ unlinked s 5 7 :=
  ⟨rfl, by decide +kernel, by decide +kernel, by decide +kernel, by decide +kernel, by decide +kernel, by decide +kernel, by decide +kernel,
   by decide +kernel, by decide +kernel⟩

theorem test_TimerEvents_edge :
    let s := withRegs [(R.FT_TMC_INCFG 5 7, flds [(F.FT_TMC_INCFG_NDIV, 2)])] (tmrMod 47 (fun x => { x with edges := 2 })
      (tmOn 7 (flds [(F.FT_TMC_CTL_EN, 1), (F.FT_TMC_CTL_CAPEN, 1), (F.FT_TMC_CTL_PIN, 3)]) (timed (tbStat 1 0))))
    s.waits = [] ∧ tileAwake s 5 = true ∧ unlinked s 5 7 ∧ (tmrGet s (8 * 5 + 7)).on = true ∧ tmAccepts s 5 7 15 = true ∧ tmCtl s 5 7 F.FT_TMC_CTL_PIN = 3 ∧
    tmCtl s 5 7 F.FT_TMC_CTL_EDGE = 0 ∧ (∀ e : TmCh, e ≠ 7 → (tmrGet s (8 * 5 + e.val)).on = true → tmCtl s 5 e.val F.FT_TMC_CTL_PIN ≠ 3) ∧
    tmCtl s 5 7 F.FT_TMC_CTL_CAPEN = 1 ∧ tmCtl s 5 7 F.FT_TMC_CTL_SRC ≠ 2 ∧
    (tmrGet s (8 * 5 + 7)).edges = fld s (R.FT_TMC_INCFG 5 7) F.FT_TMC_INCFG_NDIV ∧ fld s R.TB_STAT F.TB_STAT_FSTATE ≠ 0 :=
  ⟨rfl, by decide +kernel, ⟨by decide +kernel, by decide +kernel⟩, by decide +kernel⟩

-- ---------------------------------------------------------------- witnesses: Sieve and Trellis

/-- A Sieve sample of one value. -/
def smp (v : Word) (taint : Bool) : SvSample := { seq := 8, ts := 5000, flags := 0, vals := [v], taint := taint }

/-- Context 511 is served by engine 3, with these items waiting, and has rule 1023. -/
def sieving (items : List SvItem) : State :=
  svMod 511 (fun c => { c with waiting := items }) (withRegs [(R.FP_CTL 0, flds [(F.FP_CTL_MODE, 2)]), (R.SV_CX_STAT 511, flds [(F.SV_CX_STAT_ASSIGNED, 1), (F.SV_CX_STAT_ENG, 3)]),
    (R.CTX_RULES 511, flds [(F.CTX_RULES_RBASE, 1023), (F.CTX_RULES_RCNT, 1), (F.CTX_RULES_EVQ, 9)]), (R.SVR_CFG 1023, flds [(F.SVR_CFG_FEAT, 1), (F.SVR_CFG_PROF, 3), (F.SVR_CFG_DON, 1)]), (R.SVR_WIN 1023, flds [(F.SVR_WIN_WIN, 1)])] up)

theorem test_SieveSamples_take :
    let s := sieving [.smp (smp 7 false), .smp (smp 8 true)]
    Quiet s ∧ SieveTakes s 511 (smp 7 false) [.smp (smp 8 true)] ∧ (smp 7 false).taint = false ∧ anyLane s = true :=
  ⟨⟨rfl, rfl⟩, ⟨by decide +kernel, by decide +kernel, by decide +kernel, by decide +kernel, by decide +kernel⟩, rfl, by decide +kernel⟩

theorem test_SieveSamples_rule : ∀ ta ∈ [true, false],
    let x := smp 7 ta
    let s := sieving [.smp x]
    Quiet s ∧ SieveTakes s 511 x [] ∧ OneRule s 511 1023 x ∧ rState s 1023 = 0 ∧ fld s (R.SVR_CFG 1023) F.SVR_CFG_DON = 1 ∧ rRes s 1023 = false ∧
    rCmp s 1023 = 0 ∧ (windowVal s 511 1023 (x :: (svGet s 511).hist)).isSome = true := by
  intro ta hta
  simp only [List.mem_cons, List.not_mem_nil, or_false] at hta
  rcases hta with h | h <;> subst h <;>
  exact ⟨⟨rfl, rfl⟩, ⟨by decide +kernel, by decide +kernel, by decide +kernel, by decide +kernel, by decide +kernel⟩,
    ⟨by decide +kernel, by decide +kernel, by decide +kernel, by decide +kernel, by decide +kernel, by decide +kernel, by decide +kernel, by decide +kernel⟩, by decide +kernel⟩

theorem test_SieveUnits_snapshot :
    let s := svMod 511 (fun c => { c with snap := some { rule := 1023, trig := 77, flags := 64, pre := [smp 1 false], post := [smp 2 false], want := 1 } }) (sieving [])
    Quiet s ∧ fhUp s = true ∧ svEngineUp s 511 = true ∧ (svGet s 511).snap.isSome = true ∧
    ∀ p ∈ (svGet s 511).snap, p.want ≤ p.post.length ∧ ∀ x ∈ p.pre ++ p.post, x.vals.length = cVals s 511 :=
  ⟨⟨rfl, rfl⟩, by decide +kernel⟩

theorem test_SieveUnits_transform :
    let b : SpBlock := { ctx := 511, endN := 1024, epoch := 0, first := 55, seq := 3, ts := 999, flags := 80, taint := true }
    let s := setSpu 1 (b :: List.replicate 7 b) (sieving [])
    Quiet s ∧ fhUp s = true ∧ spuQueue s 1 = b :: List.replicate 7 b ∧ (List.replicate 7 b).length < 8 ∧ (svGet s b.ctx).bandWins = [] ∧
    (svGet s b.ctx).held = none ∧ (svGet s b.ctx).waiting.all isSmp = true :=
  ⟨⟨rfl, rfl⟩, by decide +kernel⟩

theorem test_SieveUnits_rules :
    let s := svMod 511 (fun c => { c with ruleSet := some [(R.SVR_T1 1023, 0x12345678)], ruleDue := true }) (sieving [])
    Quiet s ∧ fhUp s = true ∧ (svGet s 511).ruleDue = true ∧ (svGet s 511).ruleSet = some [(R.SVR_T1 1023, 0x12345678)] ∧ (svGet s 511).snap = none ∧ (svGet s 511).held = none :=
  ⟨⟨rfl, rfl⟩, by decide +kernel⟩

theorem test_SieveUnits_engines : Quiet up ∧ fhUp up = true ∧ engState up 15 = 0 ∧ engState up 16 = 1 :=
  ⟨⟨rfl, rfl⟩, by decide +kernel⟩

/-- Sentinel 7 polls context 511 on port 47 in a field side that sleeps. -/
def sentry (held : List Nat) : State :=
  let s := withRegs [(R.SV_SENT_CTL 7, flds [(F.SV_SENT_CTL_EN, 1), (F.SV_SENT_CTL_CTX, 511)]), (R.SV_SENT_PER 7, flds [(F.SV_SENT_PER_PER, 50)])] (withCtx 511 47 [xfer 8] up)
  portMod 47 (fun p => { p with bankOk := false })
    { s with pow := { s.pow with field := { s.pow.field with st := .sleep }, held := held }, tm := { s.tm with aoc := 1000 }, sv := { s.sv with sents := [(7, { next := 1020 })] } }

theorem test_Sentinels : ∀ held ∈ [[], [5]],
    let s := sentry held
    let k := fld s (R.SV_SENT_CTL 7) F.SV_SENT_CTL_CTX
    Quiet s ∧ s.pow.field.st = .sleep ∧ flag s (R.SV_SENT_CTL 7) F.SV_SENT_CTL_EN = true ∧ cState s k = stRunning ∧ cBit s k = false ∧
    s.tm.aoc ≤ (sentGet s 7).next ∧ (sentGet s 7).next < 2 ^ 48 ∧ bankHeld s (cPort s k) = !held.isEmpty ∧ ctxAbsent s k = false ∧ (portGet s (cPort s k)).bankOk = false := by
  intro held hh
  simp only [List.mem_cons, List.not_mem_nil, or_false] at hh
  rcases hh with h | h <;> subst h <;> exact ⟨⟨rfl, rfl⟩, by decide +kernel⟩

/-- Queue 127 is enabled with a ring of 2,048 lines, its write pointer at a line, and a record on its way. -/
def queued (wr : Nat) (ents : List Ent) (en mode : Nat) : Rec × State :=
  let r : Rec := mkRec 127 kSamples 5 2 9 7000100 (List.replicate 100 (0x5a : Byte)) 7000200 false
  let b := withRegs [(R.Q_CFG 127, flds [(F.Q_CFG_EN, en), (F.Q_CFG_SIZE, 8), (F.Q_CFG_BASE, 30)]), (R.Q_WR 127, wordOf (16 * wr)), (R.Q_ORD 127, flds [(F.Q_ORD_MODE, mode)]),
    (R.Q_LAMBDA 127, flds [(F.Q_LAMBDA_LAMBDA, 5)])] up
  let s := queueMod 127 (fun u => { u with ents := ents, secHi := some (tSecHi 7000100) }) b
  (r, { s with tm := { s.tm with field := 7000000 * nsU }, tr := { s.tr with path := [r] } })

/-- One record fills the ring but one line. -/
def fullRing : List Ent := [{ off := 1, lines := 2047, kind := 1, ctx := 4, ts := 5, key := 6, ovw := none, wrote := 0 }]

theorem test_RecordsArrive_room : ∀ wr ∈ [0, 2040, 2047],
    let x := queued wr [] 1 0
    Quiet x.2 ∧ EntersNext x.2 x.1 [] ∧ hasRoom x.2 x.1.q [recLines x.1] = true := by
  intro wr hw
  simp only [List.mem_cons, List.not_mem_nil, or_false] at hw
  rcases hw with h | h | h <;> subst h <;>
  exact ⟨⟨rfl, rfl⟩, ⟨by decide +kernel, by decide +kernel, by decide +kernel, by decide +kernel, by decide +kernel, by decide +kernel⟩, by decide +kernel⟩

theorem test_RecordsArrive_full :
    let x := queued 0 fullRing 1 0
    let y := queued 0 [] 0 0
    Quiet x.2 ∧ EntersNext x.2 x.1 [] ∧ hasRoom x.2 x.1.q [recLines x.1] = false ∧ flag x.2 (R.Q_CFG x.1.q) F.Q_CFG_POLICY = false ∧
    Quiet y.2 ∧ fhUp y.2 = true ∧ y.2.tr.path = [y.1] ∧ qEn y.2 y.1.q = false ∧ flag y.2 (R.Q_ORD y.1.q) F.Q_ORD_MODE = false :=
  ⟨⟨rfl, rfl⟩, ⟨by decide +kernel, by decide +kernel, by decide +kernel, by decide +kernel, by decide +kernel, by decide +kernel⟩, by decide +kernel, by decide +kernel,
   ⟨rfl, rfl⟩, by decide +kernel⟩

theorem test_RecordsArrive_ordered :
    let x := queued 0 [] 1 1
    let late := queueMod 127 (fun u => { u with mark := 7000201 }) x.2
    let old := { x.2 with tr := { x.2.tr with path := [{ x.1 with old := true }] } }
    Quiet old ∧ fhUp old = true ∧ old.tr.path = [{ x.1 with old := true }] ∧ flag old (R.Q_ORD x.1.q) F.Q_ORD_MODE = true ∧
    keyBefore { x.1 with old := true } old = true ∧ keyBefore x.1 x.2 = false ∧ keyBefore x.1 late = false ∧
    Quiet x.2 ∧ fhUp x.2 = true ∧ x.2.tr.path = [x.1] ∧ flag x.2 (R.Q_ORD x.1.q) F.Q_ORD_MODE = true ∧ fieldNs x.2 < releaseAt x.2 x.1 ∧
    (queueGet x.2 x.1.q).mark ≤ x.1.key ∧ heldLines x.2 + recLines x.1 ≤ 65536 ∧
    Quiet late ∧ fhUp late = true ∧ late.tr.path = [x.1] ∧ flag late (R.Q_ORD x.1.q) F.Q_ORD_MODE = true ∧ x.1.key < (queueGet late x.1.q).mark :=
  ⟨⟨rfl, rfl⟩, by decide +kernel, rfl, by decide +kernel, by decide +kernel, by decide +kernel, by decide +kernel, ⟨rfl, rfl⟩, by decide +kernel, by decide +kernel, by decide +kernel, by decide +kernel,
   by decide +kernel, by decide +kernel, ⟨rfl, rfl⟩, by decide +kernel⟩

theorem test_Releases_sampleTime :
    let x := queued 0 [] 1 1
    let s := { x.2 with tr := { x.2.tr with path := [], held := [x.1] } }
    Quiet s ∧ earliest s (s.tr.held.filter (fun r => r.q == 127)) = some x.1 ∧ fhUp s = true ∧ fieldNs s < releaseAt s x.1 ∧ fState s ≠ 0 :=
  ⟨⟨rfl, rfl⟩, by decide +kernel⟩

/-- Partner p subscribes to queue 127, which has one record waiting at line 20. -/
def subscribed (p : Nat) : State :=
  queueMod 127 (fun u => { u with ents := [{ off := 20, lines := 5, kind := 1, ctx := 4, ts := 5, key := 6, ovw := none, wrote := 0 }] })
    (withRegs [(R.Q_CFG 127, flds [(F.Q_CFG_EN, 1), (F.Q_CFG_SIZE, 16), (F.Q_CFG_SUBS, 2 ^ p), (F.Q_CFG_BASE, 30)]), (R.Q_WR 127, 400), (R.TR_SUB_DLV 127 p, 320),
      (R.TR_SUB_ACK 127 p, 320), (R.P_STAT 0, flds [(F.P_STAT_UP, 1)]), (R.P_STAT 1, flds [(F.P_STAT_UP, 1)])] up)

theorem test_StreamFrame :
    let x : Ent := { off := 20, lines := 5, kind := 1, ctx := 4, ts := 5, key := 6, ovw := none, wrote := 0 }
    let s := { partMod 1 (fun u => { u with streams := [127] }) (subscribed 1) with elapsed := 10000000000 }
    Quiet s ∧ fromPtr (dlvOf s 127 1) (queueGet s 127).ents = [x] ∧ mayStream s 1 = true ∧ egressOpen s = true ∧ streamTurn s 1 = some 127 ∧
    (partGet s 1).fwd = [] ∧ x.kind ≠ kFill ∧ 1 + 4 * x.lines ≤ (fld s (R.P_ETH_MTU 1) F.P_ETH_MTU_MTU - 24) / 4 :=
  ⟨⟨rfl, rfl⟩, by decide +kernel⟩

-- ---------------------------------------------------------------- witnesses: reads and writes

theorem test_Reads : ∀ x ∈ [((R.GLB_ID : Nat), 1), (0x13ffc, 3), (0x10ffffc, 1), (0x87fffffc, 1024)],
    Passes opREAD (hdrOf false opREAD (wordOf x.1) [wordOf x.2]) (wordOf x.1) [wordOf x.2] up :=
  fun x hx => passes_of ((by decide +kernel : ∀ x ∈ [((R.GLB_ID : Nat), 1), (0x13ffc, 3), (0x10ffffc, 1), (0x87fffffc, 1024)],
    passOk false opREAD (wordOf x.1) [wordOf x.2] up = true) x hx)

theorem test_Reads_plain : ∀ x ∈ [((R.GLB_ID : Nat), 1), (0x13ffc, 3), (0x10ffffc, 1)],
    let T := taken opREAD (hdrOf false opREAD (wordOf x.1) [wordOf x.2]) (wordOf x.1) [wordOf x.2] up
    (blockAt x.1).kind ≠ .win ∧ (∀ b ∈ wordsIn x.1 x.2, readWord b T = (view T b, T)) ∧ reachOk T x.1 = true := by decide +kernel

theorem test_LatchedReads : ∀ a ∈ [R.FP_TSNS 47, R.FT_SLOT_INSNS 5 15, R.TB_NOWNS, R.TB_PPSNS, R.TB_AOCLO, R.TB_PLS_LASTNS 4, R.FT_TM_SNAPNS 5, R.FT_TMC_CAP 5 7,
    R.Q_MARKNS 127, R.SEC_CTR_LO 3, R.PWR_LWNS],
    Passes opREAD (hdrOf false opREAD (wordOf a) [1]) (wordOf a) [1] up ∧ Reaches (taken opREAD (hdrOf false opREAD (wordOf a) [1]) (wordOf a) [1] up) a :=
  fun a ha =>
    have h := (by decide +kernel : ∀ a ∈ [R.FP_TSNS 47, R.FT_SLOT_INSNS 5 15, R.TB_NOWNS, R.TB_PPSNS, R.TB_AOCLO, R.TB_PLS_LASTNS 4, R.FT_TM_SNAPNS 5, R.FT_TMC_CAP 5 7,
      R.Q_MARKNS 127, R.SEC_CTR_LO 3, R.PWR_LWNS],
      passOk false opREAD (wordOf a) [1] up = true ∧ reachOk (taken opREAD (hdrOf false opREAD (wordOf a) [1]) (wordOf a) [1] up) a = true) a ha
    ⟨passes_of h.1, reaches_of h.2⟩

theorem test_LatchedReads_unlinked : unlinked up 5 7 := ⟨by decide +kernel, by decide +kernel⟩

theorem test_Writes_template : WriteRuns (hw true (R.TPL_WORD 1023 31) 0x12345678) (R.TPL_WORD 1023 31) 0x12345678 up := writeRuns_of (by decide +kernel)

theorem test_Writes_reserved : ∀ x ∈ [(R.FP_EVT 47, (3 : Word)), (R.GLB_ID, 5), (0x14000, 5), (0x1fffc, 5), (0x60000, 5), (0xffffc, 5), (0x160000, 5), (0x1ffffc, 5), (0x218000, 5),
    (0x21fffc, 5), (0x260000, 5), (0xfffffc, 5), (0x1800000, 5), (0x3ffffffc, 5), (0x70000000, 5), (0x7ffffffc, 5), (0x88000000, 5), (0xfffffffc, 5)],
    WriteRuns (hw false x.1 x.2) x.1 x.2 up := runsAll (by decide +kernel)

theorem test_Writes_denied : ∀ a ∈ [0x1000000, 0x17ffffc, 0x80000000, 0x87fffffc],
    Passes opWRITE (hdrOf false opWRITE (wordOf a) [5]) (wordOf a) [5] up ∧ inLoadWait up = false ∧
    Reaches (taken opWRITE (hdrOf false opWRITE (wordOf a) [5]) (wordOf a) [5] up) a :=
  fun a ha =>
    have h := (by decide +kernel : ∀ a ∈ [0x1000000, 0x17ffffc, 0x80000000, 0x87fffffc],
      passOk false opWRITE (wordOf a) [5] up = true ∧ inLoadWait up = false ∧
      reachOk (taken opWRITE (hdrOf false opWRITE (wordOf a) [5]) (wordOf a) [5] up) a = true) a ha
    ⟨passes_of h.1, h.2.1, reaches_of h.2.2⟩

/-- A WRITE of these words passes and is refused with a status by the registers it writes. -/
def refusedWith (crit : Bool) (a : Nat) (ws : List Word) (s : State) (st : Nat) : Bool :=
  let T := taken opWRITE (hdrOf crit opWRITE (wordOf a) ws) (wordOf a) ws s
  passOk crit opWRITE (wordOf a) ws s && !inLoadWait T && !heldByOther T 2 && reachOk T a &&
    decide (firstRefusal (some 2) crit (fun _ => false) (wordsOf a ws) T = some st)

theorem test_WriteRefused : refusedWith true (R.FP_CTL 47) [0x30] up stRANGE = true ∧ refusedWith false R.GLB_LOADCTL [1] up stDENIED = true := by decide +kernel

/-- Port 47 has a register window. -/
def windows : State :=
  withRegs [(R.FP_CTL 47, flds [(F.FP_CTL_EN, 1), (F.FP_CTL_MODE, 1)]), (R.FP_CLK 47, 10), (R.FP_SS 47, 0x15), (R.CW_CTL 47, flds [(F.CW_CTL_WEN, 1)]),
    (R.CW_CFG 47, flds [(F.CW_CFG_MAXB, 16), (F.CW_CFG_PAGEL, 8)])] up

theorem test_WindowCommands_read :
    let a := winBase + 47 * winSize + 0xfffc00
    winDown windows 47 = false ∧ winSelBad windows 47 = false ∧ (portGet windows 47).winQ.length < 4 ∧ 0xfffc00 + 4 * 256 ≤ 0x01000000 ∧
    Reaches (taken opREAD (hdrOf false opREAD (wordOf a) [256]) (wordOf a) [wordOf 256] windows) a ∧
    Passes opREAD (hdrOf false opREAD (wordOf a) [256]) (wordOf a) [wordOf 256] windows :=
  ⟨by decide +kernel, by decide +kernel, by decide +kernel, by decide, reaches_of (by decide +kernel), passes_of (by decide +kernel)⟩

theorem test_WindowCommands_write :
    let a := winBase + 47 * winSize + 0xffff00
    let ws : List Word := List.replicate 64 5
    isCrit (hdrOf true opWRITE (wordOf a) ws) = true ∧ fld windows (R.CW_CFG 47) F.CW_CFG_PAGEL = 8 ∧
    inLoadWait (taken opWRITE (hdrOf true opWRITE (wordOf a) ws) (wordOf a) ws windows) = false ∧ heldByOther windows 2 = false ∧
    Reaches (taken opWRITE (hdrOf true opWRITE (wordOf a) ws) (wordOf a) ws windows) a ∧
    Passes opWRITE (hdrOf true opWRITE (wordOf a) ws) (wordOf a) ws windows :=
  ⟨hdrOf_crit .., by decide +kernel, by decide +kernel, by decide +kernel, reaches_of (by decide +kernel), passes_of (by decide +kernel)⟩

-- ---------------------------------------------------------------- witnesses: queues and contexts

/-- A request of P2 passes and its target answers. -/
def asksAt (crit : Bool) (op : Nat) (addr : Word) (pl : List Word) (a : Nat) (s : State) (p : Partner := 2) : Bool :=
  passOk crit op addr pl s p && reachOk (taken op (hdrOf crit op addr pl p) addr pl s) a

theorem asks_of {crit : Bool} {op : Nat} {addr : Word} {pl : List Word} {a : Nat} {s : State} {p : Partner} (h : asksAt crit op addr pl a s p = true) :
    Passes op (hdrOf crit op addr pl p) addr pl s ∧ Reaches (taken op (hdrOf crit op addr pl p) addr pl s) a :=
  have h := Bool.and_eq_true_iff.mp h
  ⟨passes_of h.1, reaches_of h.2⟩

theorem test_Deliveries_records : ∀ n ∈ [4115, 16384],
    asksAt false opPOP (wordOf 127) [wordOf n] trellisAddr (subscribed 2) = true ∧ asksAt false opPEEK (wordOf 127) [wordOf n] trellisAddr (subscribed 2) = true ∧
    queueOk (subscribed 2) 127 2 = true ∧ streamsTo (subscribed 2) 127 2 = false ∧
    fromPtr (dlvOf (subscribed 2) 127 2) (queueGet (subscribed 2) 127).ents = (queueGet (subscribed 2) 127).ents ∧
    fromPtr (ackOf (subscribed 2) 127 2) (queueGet (subscribed 2) 127).ents = (queueGet (subscribed 2) 127).ents ∧
    (queueGet (subscribed 2) 127).ents.map (fun x => (x.kind, x.lines)) = [(1, 5)] := by decide +kernel

theorem test_Deliveries_acks :
    let s := withRegs [(R.TR_SUB_DLV 127 2, 400)] (subscribed 2)
    asksAt false opACK (wordOf 127) [wordOf (dlvOf s 127 2)] trellisAddr s = true ∧ dlvOf s 127 2 < 2 ^ 23 ∧
    (∀ e ∈ (queueGet s 127).ents, 16 * e.off = dlvOf s 127 2 → e.kind ≠ kFill) ∧
    asksAt false opACK (wordOf 127) [wordOf 16] trellisAddr s = true ∧ ackTarget s 127 2 16 = none := by decide +kernel

theorem test_Subscriptions_changes :
    NoGraft (subscribed 1) ∧ asksAt true opSUBSCRIBE (wordOf 127) (actPayload 0 1 []) trellisAddr (subscribed 1) = true ∧ qEn (subscribed 1) 127 = true ∧
    qSub (subscribed 1) 127 2 = false ∧
    NoGraft (subscribed 2) ∧ asksAt true opSUBSCRIBE (wordOf 127) (actPayload 0 2 []) trellisAddr (subscribed 2) = true ∧
    asksAt false opSUBSCRIBE (wordOf 127) (actPayload 0 3 []) trellisAddr (subscribed 2) = true ∧ qSub (subscribed 2) 127 2 = true ∧
    asksAt false opSUBSCRIBE (wordOf 127) (actPayload 0 5 []) trellisAddr (subscribed 2) = true :=
  ⟨⟨rfl, rfl⟩, by decide +kernel, by decide +kernel, by decide +kernel, ⟨rfl, rfl⟩, by decide +kernel⟩

theorem test_Subscriptions_streams :
    let s := withRegs [(R.P_ETH_DSTLO 1, 5)] (subscribed 1)
    let u := partMod 1 (fun x => { x with streams := [127] }) s
    NoGraft s ∧ asksAt false opSUBSCRIBE (wordOf 127) (actPayload 0 4 []) trellisAddr s 1 = true ∧ qSub s 127 1 = true ∧ noDest s 1 = false ∧
    NoGraft u ∧ queueOk u 127 1 = true ∧ streamsTo u 127 1 = true ∧
    ∀ n ∈ [4115, 16384], asksAt false opPOP (wordOf 127) [wordOf n] trellisAddr u 1 = true ∧ asksAt false opPEEK (wordOf 127) [wordOf n] trellisAddr u 1 = true :=
  ⟨⟨rfl, rfl⟩, by decide +kernel, by decide +kernel, by decide +kernel, ⟨rfl, rfl⟩, by decide +kernel⟩

/-- The words of an entry that polls port 47 every 100 µs. -/
def ctxWords : List Word :=
  [0, flds [(F.CTX_BIND_PORT, 47), (F.CTX_BIND_TPL, 4)], 100000, 0x08000000, 0, 0, 0, 0, 0, flds [(F.CTX_RULES_Q, 5), (F.CTX_RULES_EVQ, 6)], 1, 2, 0, 0, 0, 0]

/-- Queues 5 and 6 and port 47 are ready for it, and context 511 is in a state with it. -/
def ctxState (st : Nat) : State :=
  let q (b : Nat) : Word := flds [(F.Q_CFG_EN, 1), (F.Q_CFG_SIZE, 16), (F.Q_CFG_SUBS, 4), (F.Q_CFG_BASE, b)]
  let steps := [xfer 16, 7 * 2 ^ 60 + 15 * 2 ^ 48]
  let s := withRegs ([(R.Q_CFG 5, q 150), (R.Q_CFG 6, q 180), (R.FP_CTL 47, flds [(F.FP_CTL_EN, 1), (F.FP_CTL_MODE, 1)]), (R.FP_CLK 47, 10), (R.FP_SS 47, 0x25)] ++
    steps.zipIdx.flatMap (fun x => [(R.TPL_WORD 4 (2 * x.2), wordOf (x.1 % 2 ^ 32)), (R.TPL_WORD 4 (2 * x.2 + 1), wordOf (x.1 / 2 ^ 32))])) up
  if st = stFree then s else setState 511 st (addCtx 511 ctxWords s)

/-- A CTX request passes, reaches its entry and passes the checks of R199. -/
def ctxRuns (idx : Word) (act : Nat) (ws : List Word) (k : Nat) (s : State) : Bool :=
  let T := taken opCTX (hdrOf true opCTX idx (actPayload 0 act ws)) idx (actPayload 0 act ws) s
  asksAt true opCTX idx (actPayload 0 act ws) 0x210000 s && (match ctxCheck T idx.toNat act ws false with | .ok j => j == k | .error _ => false)

theorem test_ContextCommands_add : NoGraft (ctxState stFree) ∧ ctxRuns 511 1 ctxWords 511 (ctxState stFree) = true ∧
    ctxRuns 0xFFFFFFFF 1 ctxWords 0 (ctxState stFree) = true ∧ bitOf (ctxWords.getD 0 0).toNat F.CTX_CTL_AUTOSTART.lo = false :=
  ⟨⟨rfl, rfl⟩, by decide +kernel⟩

theorem test_ContextCommands_stopped : NoGraft (ctxState stStopped) ∧ cState (ctxState stStopped) 511 = stStopped ∧
    ctxRuns 511 2 ctxWords 511 (ctxState stStopped) = true ∧ ctxRuns 511 4 [] 511 (ctxState stStopped) = true ∧
    ctxRuns 511 3 [] 511 (ctxState stStopped) = true ∧ inflight (ctxState stStopped) 511 = false :=
  ⟨⟨by decide +kernel, by decide +kernel⟩, by decide +kernel⟩

theorem test_ContextCommands_running : NoGraft (ctxState stRunning) ∧ cState (ctxState stRunning) 511 = stRunning ∧
    (ctxGet (ctxState stRunning) 511).acts = [] ∧ ctxRuns 511 2 ctxWords 511 (ctxState stRunning) = true ∧
    ctxRuns 511 3 [] 511 (ctxState stRunning) = true ∧ ctxRuns 511 5 [] 511 (ctxState stRunning) = true :=
  ⟨⟨by decide +kernel, by decide +kernel⟩, by decide +kernel⟩

-- ---------------------------------------------------------------- witnesses: Graft

/-- P2 holds a Graft with these items. -/
def grafting (items : List GraftItem) (s : State) : State :=
  { withRegs [(R.GLB_GRF_STAT, flds [(F.GLB_GRF_STAT_GID, 65535), (F.GLB_GRF_STAT_HOLDER, 4), (F.GLB_GRF_STAT_STATE, 1)]),
      (R.GLB_GRF_ITEMS, flds [(F.GLB_GRF_ITEMS_STAGED, items.length)])] s with
    graft := some { gid := 65535, holder := 2, tmo := 100, since := 0, items := items }, elapsed := 900000 }

theorem test_Grafts_begin : ∀ n ∈ [1, 65535], up.boot.handover = none ∧ up.graft = none ∧ asksAt true opGRAFT 0 (actPayload 0 1 [wordOf n]) 0 up = true := by
  decide +kernel

theorem test_Grafts_stage :
    let s := grafting [] up
    s.boot.handover = none ∧ asksAt true opGRAFT 0 (actPayload 0 2 [wordOf 65535, wordOf (5 * 256 + giTILE)]) 0x200000 s = true := by decide +kernel

theorem test_Grafts_end :
    let s := grafting [{ kind := giCAL, words := [511, 5, 6] }] (ctxState stStopped)
    s.boot.handover = none ∧ cState s 511 ≠ stFree ∧ s.waits = [] ∧ asksAt true opGRAFT 0 (actPayload 0 3 [wordOf 65535]) 0x200000 s = true ∧
    asksAt true opGRAFT 0 (actPayload 0 4 [wordOf 65535]) 0 s = true := by decide +kernel

theorem test_Grafts_flash :
    let s := grafting [] up
    let off := slotAvail s (idleSlot s) - 4
    s.boot.handover = none ∧ asksAt true opGRAFT 0 (actPayload 0 5 [wordOf 65535, wordOf off, 5]) 0 s = true ∧ slotExists s true = true ∧ off % 4 = 0 ∧
    off + 4 ≤ slotAvail s (idleSlot s) ∧ s.nv.trial = false := by decide +kernel

theorem test_GraftEvents_handover :
    let b := grafting [] up
    let s := partMod 2 (fun u => { u with outst := [cmd0] }) { b with boot := { b.boot with handover := some (2, cmd0, stOK) } }
    s.stalled = [] ∧ s.waits = [] ∧ s.boot.handover = some (2, cmd0, stOK) ∧ (partGet s 2).outst.contains cmd0 = true ∧ s.graft.isSome = true := by decide +kernel

theorem test_GraftEvents_item :
    let s := { bounded [.stop] none polling with waits := [{ acts := [(3, .stop)], rules := [] }] }
    s.stalled = [] ∧ s.waits = [{ acts := [(3, .stop)], rules := [] }] ∧ (ctxGet s 3).acts = [.stop] ∧ cState s 3 = stRunning ∧ inflight s 3 = false ∧
    boundaryNow s 3 ∧ fhUp s = true :=
  ⟨rfl, rfl, by decide +kernel, by decide +kernel, by decide +kernel, ofSome (7000000, 7000100) (by decide +kernel) (by decide +kernel), by decide +kernel⟩

theorem test_GraftEvents_tmo :
    let s := { grafting [] up with elapsed := 100000000 }
    s.stalled = [] ∧ s.waits = [] ∧ s.boot.handover = none ∧ ∀ g ∈ s.graft, g.since + g.tmo * 1000000 ≤ s.elapsed := by decide +kernel

-- ---------------------------------------------------------------- witnesses: power, reset, time, keys, status

theorem test_PowerAndReset_power : ∀ w ∈ [0xF2, 0xF4, 0x1F3, 0x2F, 0xFF], asksAt true opPOWER 0 [wordOf w] 0 up = true ∧ up.pow.field.st = .run ∧ up.pow.cmdSleep = [] ∧
    fieldAway up = false ∧ undelivered up = false := by decide +kernel

/-- The reset map with one code for every source (R627): 1 says L2, 0 says L3. -/
def mapped (code : Nat) (s : State) : State := { s with nv := { s.nv with otp := (List.range 4).map (fun j => (8 + j, wordOf (code * 0x11111111))) } }

theorem test_PowerAndReset_reset :
    let s := mapped 1 up
    asksAt true opRESET 0 [0x122] 0 s = true ∧ (resetReach 0x122).isSome = true ∧ srcLevel s 24 ≤ rsLevel 0x122 ∧
    asksAt true opRESET 0 [0] 0 s = true ∧ (resetReach 0).isSome = true ∧ rsLevel 0 < srcLevel s 24 ∧
    asksAt true opRESET 0 [0xffffffff] 0 s = true ∧ resetReach 0xffffffff = none := by decide +kernel

theorem test_TimeCommands_steps :
    let p := withRegs [(R.TB_STAT, flds [(F.TB_STAT_FSTATE, 1), (F.TB_STAT_PEND, 1)])] up
    asksAt true opTIME 0 (actPayload 0 1 [5, 0xffffffff, 999999999, 65535]) 0 up = true ∧ up.tm.step = [] ∧
    asksAt true opTIME 0 (actPayload 0 2 [5, 0]) 0 up = true ∧ timeOut ((masterNs up : Int) + 32000 + twoWords 5 0) = false ∧
    asksAt true opTIME 0 (actPayload 0 5 []) 0 p = true ∧ p.tm.step = [] ∧ flag p R.TB_STAT F.TB_STAT_PEND = true ∧
    asksAt true opTIME 0 (actPayload 0 5 []) 0 up = true ∧ flag up R.TB_STAT F.TB_STAT_PEND = false := by decide +kernel

theorem test_TimeCommands_servo :
    let s := withRegs [(R.TB_CTL, flds [(F.TB_CTL_SRC, 3)])] up
    let e := withRegs [(R.TB_CTL, flds [(F.TB_CTL_EN, 1), (F.TB_CTL_SRC, 1)])] up
    asksAt true opTIME 0 (actPayload 0 3 [5, 0]) 0 s = true ∧ tbSrc s = 3 ∧ tbEn s = false ∧
    asksAt true opTIME 0 (actPayload 0 3 [5, 0]) 0 e = true ∧ tbSrc e ≠ 3 ∧
    asksAt true opTIME 0 (actPayload 0 4 [wordOf 500000000]) 0 s = true ∧ (wordOf 500000000).toInt = 500000000 ∧
    asksAt true opTIME 0 (actPayload 0 4 [BitVec.ofInt 32 (-500000000)]) 0 e = true ∧ (BitVec.ofInt 32 (-500000000) : Word).toInt = -500000000 ∧ tbEn e = true := by
  decide +kernel

/-- The key-encryption key, the key and the wrapped key of the first example of RFC 3394. -/
def kek : List Byte := (List.range 16).map (BitVec.ofNat 8 ·)
def plainKey : List Byte := (List.range 16).map (fun i => BitVec.ofNat 8 (17 * i))
def wrapped : List Byte :=
  [0x1F, 0xA6, 0x8B, 0x0A, 0x81, 0x12, 0xB4, 0x47, 0xAE, 0xF3, 0x4B, 0xD8, 0xFB, 0x5A, 0x7B, 0x82, 0x9D, 0x3E, 0x86, 0x23, 0x71, 0xD2, 0xCF, 0xE5]

theorem test_unwrap_example : kwUnwrap kek wrapped = some plainKey := by decide +kernel

theorem test_Keys_load :
    let s := { up with nv := { up.nv with keys := [(1, { key := some key }), (4, { key := some kek })] } }
    let rest := bytesWords 6 wrapped
    asksAt true opKEY (wordOf 7) (actPayload (BitVec.ofNat 28 (4 * 16)) 1 rest) 0 s = true ∧ (∀ p : Partner, slotUser s 7 p.val = false) ∧ rest.length = 6 ∧
    (keySlot s 4).key = some kek ∧ wordsBytes rest = wrapped ∧
    asksAt true opKEY (wordOf 4) (actPayload 0 2 []) 0 s = true ∧ (∀ p : Partner, slotUser s 4 p.val = false) := by decide +kernel

theorem test_Keys_clear :
    let s := withRegs [(R.P_KEY 2, 0)] { up with nv := { up.nv with keys := [] } }
    asksAt false opKEY (wordOf 7) (actPayload 0 3 [1, 2, 3, 4]) 0 s = true ∧ fuseBit s 1 = false ∧ (∀ p : Partner, slotUser s 7 p.val = false) ∧
    (∀ j : Fin 8, (keySlot s j.val).key = none) := by decide +kernel

theorem test_Status : asksAt false opSTATUS 0 [] 0 up = true := by decide +kernel

-- ---------------------------------------------------------------- witnesses: the ends of waits; loading

/-- A response to a command. -/
def respOf (c : Cmd) : Resp := { cmd := c, status := stOK, race := false, payload := [1] }

/-- Port p, with its link up where it has one, has a waiting response. -/
def answering (p : Nat) : State :=
  partMod p (fun u => { u with resp := [respOf cmd0], outst := [cmd0] }) (withRegs [(R.P_STAT 0, flds [(F.P_STAT_UP, 1)]), (R.P_STAT 1, flds [(F.P_STAT_UP, 1)])] up)

theorem test_PartnerEvents_response : (answering 1).waits = [] ∧ (answering 1).stalled = [] ∧ (partGet (answering 1) 1).resp[0]? = some (respOf cmd0) ∧
    hears (answering 1) 1 = true ∧ paused (answering 1) 1 = false := by decide +kernel

theorem test_PartnerEvents_timeout :
    let c : Cmd := { cmd0 with addr := wordOf (R.FP_CTL 47), payload := [1] }
    let s := { partMod 2 (fun u => { u with outst := [c] }) up with stalled := [(2, c)] }
    s.waits = [] ∧ s.stalled = [(2, c)] ∧ plainRead c = true ∧ (partGet s 2).outst.contains c = true ∧ c.ctr = none ∧ c.since = none ∧
    readWord c.addr.toNat s = (view s c.addr.toNat, s) ∧ c.addr.toNat < (blockAt c.addr.toNat).hi ∧ overruns c.addr.toNat 1 = false := by decide +kernel

theorem test_PartnerEvents_others :
    let m := withRegs [(R.P0_MDIO_CMD, flds [(F.P0_MDIO_CMD_BUSY, 1)])] up
    let d := withRegs [(R.CL_STAT, flds [(laneFld 0, 2), (laneFld 1, 5)])] up
    (laneOwes d 1 = true → laneSince d 1 + 10000 ≤ d.elapsed) ∧ m.nv.busyUntil ≤ m.elapsed ∧ m.waits = [] ∧ m.stalled = [] ∧ flag m R.P0_MDIO_CMD F.P0_MDIO_CMD_BUSY = true ∧ m.boot.heldSrcs = [] ∧
    d.waits = [] ∧ laneSt d 1 = lnDRAIN ∧ lnEn d 1 = false ∧ laneUp d (1 - 1) = true := by decide +kernel

/-- The host side waits for its partner's load. -/
def loading (l : LoadS) (pass : Nat) : State :=
  let s := withRegs [(R.GLB_BOOTSTAT, flds [(F.GLB_BOOTSTAT_STAGE, 7)]), (R.GLB_LOADSTAT, flds [(F.GLB_LOADSTAT_PASS, pass)])] up
  { s with boot := { s.boot with load := l } }

/-- A word of GLB_LOADCTL. -/
def loadOp (op words pass : Nat) : Word := flds [(F.GLB_LOADCTL_OP, op), (F.GLB_LOADCTL_WORDS, words), (F.GLB_LOADCTL_PASS, pass)]

theorem test_Loading :
    let i : LoadS := { inPass := true, partner := true }
    let p : LoadS := { pass1 := some [1], partner := true }
    inLoadWait (loading p 0) = true ∧ passOk false opWRITE (wordOf R.GLB_LOADCTL) [loadOp 1 0 1] (loading p 0) = true ∧ p.pass1.isSome = true ∧
    getFld (loadOp 1 0 1) F.GLB_LOADCTL_OP = 1 ∧ getFld (loadOp 1 0 1) F.GLB_LOADCTL_PASS = 1 ∧
    inLoadWait (loading i 0) = true ∧ passOk false opWRITE (wordOf R.GLB_LOADCTL) [loadOp 2 8192 0] (loading i 0) = true ∧ i.inPass = true ∧
    getFld (loadOp 2 8192 0) F.GLB_LOADCTL_OP = 2 ∧ getFld (loadOp 2 8192 0) F.GLB_LOADCTL_WORDS = 8192 ∧
    passOk false opWRITE (wordOf R.GLB_LOADCTL) [loadOp 3 0 0] (loading i 0) = true ∧ getFld (loadOp 3 0 0) F.GLB_LOADCTL_OP = 3 ∧
    flag (loading i 0) R.GLB_LOADSTAT F.GLB_LOADSTAT_PASS = false := by decide +kernel

theorem test_Loading_otp : WriteRuns (hw true R.SEC_OTPPROG 127) R.SEC_OTPPROG 127 (withRegs [(R.SEC_OTPDATA, 5)] up) := writeRuns_of (by decide +kernel)

-- ---------------------------------------------------------------- witnesses: Ethernet and serial ports, refusals

/-- Both Ethernet ports are up and forward. -/
def eth : State :=
  withRegs [(R.P_STAT 0, flds [(F.P_STAT_UP, 1)]), (R.P_STAT 1, flds [(F.P_STAT_UP, 1)]), (R.P_ETH_MACLO 1, 0x1234),
    (R.P_ETH_CTL 0, flds [(F.P_ETH_CTL_FWD, 1)]), (R.P_ETH_CTL 1, flds [(F.P_ETH_CTL_FWD, 1), (F.P_ETH_CTL_PAUSERX, 1), (F.P_ETH_CTL_PAUSETX, 1), (F.P_ETH_CTL_EDWAKE, 1)])] up

/-- A frame to port 1. -/
def frame (body : List Byte) : EthFrame :=
  { fcsOk := true, dst := etherAddr eth (R.P_ETH_MACLO 1) (R.P_ETH_MACHI 1), src := 0, vid := none,
    etype := BitVec.ofNat 16 (fld eth (R.P_ETH_TYPE 1) F.P_ETH_TYPE_ETYPE), body := body, pause := none }

theorem test_EthernetFrames : Quiet eth ∧ hears eth 1 = true ∧ (frame []).fcsOk = true ∧ (frame []).pause = none ∧ (frame []).etype ≠ ptpType ∧
    addressedTo eth 1 (frame []) = true ∧ (frame []).body.getD 0 0 ≠ 1 ∧ addressedTo eth 1 { frame [] with dst := 9 } = false ∧
    ethCtl eth 0 F.P_ETH_CTL_FWD = true ∧ ethCtl eth 1 F.P_ETH_CTL_FWD = true ∧
    addressedTo eth 1 { frame [1] with vid := some 5 } = true ∧ ethCtl eth 1 F.P_ETH_CTL_VLAN = false :=
  ⟨⟨rfl, rfl⟩, by decide +kernel⟩

theorem test_EthernetFrames_fragment :
    let data := List.replicate 12289 (0x5a : Byte)
    OwnFrame eth 1 (frame (transportBody 0 true 77 data)) (transportBody 0 true 77 data) ∧ data.length < 65536 ∧ (partGet eth 1).reasm = [] ∧
    ethCtl eth 1 F.P_ETH_CTL_PAUSETX = true ∧ flag eth (R.P_ETH_STAT 1) F.P_ETH_STAT_XOFF = false :=
  ⟨⟨rfl, rfl, by decide +kernel, rfl, rfl, by decide +kernel, rfl⟩, by decide +kernel, by decide +kernel, by decide +kernel, by decide +kernel⟩

/-- The header of a READ of GLB_ID on a port. -/
def idHdr (p : Partner) : Hdr := hdrOf false opREAD (wordOf R.GLB_ID) [1] p

/-- Its bytes. -/
def idBytes : List Byte := reqBytes (reqOf opREAD (idHdr 2) (wordOf R.GLB_ID) [1])

theorem test_EthernetFrames_request :
    let x : Reasm := { src := 0, msg := 0, next := 127, bytes := idBytes.take 7, since := 0 }
    let s := partMod 1 (fun u => { u with reasm := [x] }) eth
    let f := frame (transportBody x.next false 0 (idBytes.drop 7))
    Quiet s ∧ hears s 1 = true ∧ (idHdr 1).port = 1 ∧ (idHdr 1).src = f.src ∧ isCrit (idHdr 1) = false ∧ x.src = f.src ∧ x.msg = (idHdr 1).msg ∧ x.next < 128 ∧
    (idHdr 1).mem = {} ∧ s.elapsed ≤ x.since + 1000000 ∧
    x.bytes ++ idBytes.drop 7 = reqBytes (reqOf opREAD (idHdr 1) (wordOf R.GLB_ID) [1]) ∧ (partGet s 1).reasm = [x] ∧
    OwnFrame s 1 f (transportBody x.next false 0 (idBytes.drop 7)) ∧ flag s (R.P_ETH_STAT 1) F.P_ETH_STAT_XOFF = false ∧
    Passes opREAD (idHdr 1) (wordOf R.GLB_ID) [1] s :=
  ⟨⟨rfl, rfl⟩, by decide +kernel, rfl, rfl, hdrOf_crit .., rfl, rfl, by decide, rfl, by decide +kernel, by decide +kernel, by decide +kernel,
   ⟨rfl, rfl, by decide +kernel, by decide +kernel, rfl, by decide +kernel, rfl⟩, by decide +kernel, passes_of (by decide +kernel)⟩

theorem test_EthernetLinks :
    let down := withRegs [(R.P_STAT 1, 0)] eth
    let deep := { eth with pow := { eth.pow with host := { eth.pow.host with st := .deep } } }
    let re := { partMod 1 (fun u => { u with reasm := [{ src := 0, msg := 5, next := 1, bytes := [1], since := 0 }], fwd := [frame []], pauseEnd := 7 })
      (withRegs [(R.P_ETH_STAT 1, flds [(F.P_ETH_STAT_PAUSED, 1)])] eth) with elapsed := 1000000 }
    let idle := partMod 1 (fun u => { u with fwd := [frame []] }) eth
    Quiet eth ∧ linkIsUp eth 1 = true ∧ eth.pow.host.st = .run ∧ hostAlive eth = true ∧
    Quiet down ∧ linkIsUp down 1 = false ∧ portEn down 1 = true ∧ hostHears down = true ∧ hostSleeps down = false ∧ fld down (R.P_ETH_CTL 1) F.P_ETH_CTL_MODE < 2 ∧
    Quiet deep ∧ deep.pow.host.st = .deep ∧ hostAlive deep = true ∧ portEn deep 1 = true ∧ ethCtl deep 1 F.P_ETH_CTL_EDWAKE = true ∧
    Quiet re ∧ (partGet re 1).reasm = [{ src := 0, msg := 5, next := 1, bytes := [1], since := 0 }] ∧ 0 + 1000000 ≤ re.elapsed ∧ paused re 1 = true ∧
    (partGet re 1).pauseEnd ≤ re.elapsed ∧ (partGet idle 1).fwd = [frame []] ∧ mayStream idle 1 = true ∧ streamReady idle 1 = false :=
  ⟨⟨rfl, rfl⟩, by decide +kernel, by decide +kernel, by decide +kernel, ⟨rfl, rfl⟩, by decide +kernel, by decide +kernel, by decide +kernel, by decide +kernel,
   by decide +kernel, ⟨rfl, rfl⟩, by decide +kernel, by decide +kernel, by decide +kernel, by decide +kernel, ⟨rfl, rfl⟩, by decide +kernel⟩

theorem test_SerialPorts :
    let deep := { up with pow := { up.pow with host := { up.pow.host with st := .deep } } }
    Quiet up ∧ up.pow.host.st = .run ∧ hears up (shpPort 1).val = true ∧ (idHdr 3).port = shpPort 1 ∧ isCrit (idHdr 3) = false ∧ (idHdr 3).src = 0 ∧ (idHdr 3).msg = 0 ∧
    (idHdr 3).mem = {} ∧ Passes opREAD (idHdr 3) (wordOf R.GLB_ID) [1] up ∧ (partGet up (shpPort 1).val).outst = [] ∧
    (partGet (answering 3) (shpPort 1).val).resp = [respOf cmd0] ∧
    Quiet deep ∧ deep.pow.host.st = .deep ∧ portEn deep (shpPort 1).val = true ∧ hostHears deep = true :=
  ⟨⟨rfl, rfl⟩, rfl, by decide +kernel, rfl, hdrOf_crit .., rfl, rfl, rfl, passes_of (by decide +kernel), by decide +kernel, by decide +kernel, ⟨rfl, rfl⟩, by decide +kernel⟩

theorem test_SerialPorts_lengths :
    let rx : List Byte := idBytes.take 8 ++ [1, 4] ++ idBytes.drop 10
    20 ≤ rx.length ∧ 0 < (rx.getD 0 0).toNat ∧ (rx.getD 0 0).toNat < 0x80 ∧ 1024 < leNat ((rx.drop 8).take 2) := by decide +kernel

/-- A header with a good CRC whose other fields may be wrong. -/
def badHdr (crit : Bool) (f : Hdr → Hdr) (a : Nat) (ws : List Word) : Hdr :=
  let h := f (hdr1 crit opWRITE (wordOf a) ws 2)
  { h with crc := crc32c (reqBody (reqOf opWRITE h (wordOf a) ws)) }

/-- What R516 checks of a WRITE before the permissions, with the port's store as it is. -/
def early (h : Hdr) (a : Nat) (ws : List Word) (s : State) : Bool × Bool × Bool × Bool :=
  let r := reqOf opWRITE h (wordOf a) ws
  (reqCrcHolds r, decide ((partGet s h.port.val).outst.length < 32), (partGet s h.port.val).outst.all (fun x => x.tag != h.tag),
   decide (h.flags &&& 0xFE = 0 ∧ h.resv = 0 ∧ ws.length ≤ 1024))

theorem test_Refusals_frame :
    let busy := partMod 2 (fun u => { u with outst := List.replicate 32 cmd0 }) up
    let dup := partMod 2 (fun u => { u with outst := [{ cmd0 with tag := 7 }] }) up
    Quiet up ∧ up.pow.host.st = .run ∧ hears up 2 = true ∧
    (early { idHdr 2 with crc := 0 } R.GLB_ID [1] up).1 = false ∧
    (early (badHdr false id R.GLB_ID [1]) R.GLB_ID [1] busy) = (true, false, true, true) ∧
    (early (badHdr false id R.GLB_ID [1]) R.GLB_ID [1] dup) = (true, true, false, true) ∧
    (early (badHdr false (fun h => { h with resv := 1 }) R.GLB_ID [1]) R.GLB_ID [1] up) = (true, true, true, false) :=
  ⟨⟨rfl, rfl⟩, by decide +kernel⟩

theorem test_Refusals_signet :
    let h := badHdr true (fun h => { h with signet := 0 }) R.GLB_ID [1]
    early h R.GLB_ID [1] up = (true, true, true, true) ∧ isCrit h = true ∧ signed up 2 (reqOf opWRITE h (wordOf R.GLB_ID) [1]) = false := by decide +kernel

theorem test_Refusals_replay :
    let h := badHdr true id R.GLB_ID [1]
    let s := partMod 2 (fun u => { u with lastCtr := 5 }) up
    early h R.GLB_ID [1] s = (true, true, true, true) ∧ isCrit h = true ∧ signed s 2 (reqOf opWRITE h (wordOf R.GLB_ID) [1]) = true ∧
    h.ctr.toNat ≤ ctrReference s 2 := by decide +kernel

theorem test_Refusals_denied :
    let h := badHdr false id (R.TPL_WORD 1023 31) [1]
    early h (R.TPL_WORD 1023 31) [1] up = (true, true, true, true) ∧ inLoadWait up = false ∧ isCrit h = false ∧
    writeCrit up 2 (rowCmd opWRITE h (wordOf (R.TPL_WORD 1023 31)) [1]) = true := by decide +kernel

-- ---------------------------------------------------------------- witnesses: Clasp

/-- A command frame of sequence number n. -/
def cframe (n : Nat) : ClaspFrame :=
  { cls := .cmd, toField := true, seq := n, ckl := true, bufDbe := false, opcode := 1, addr := 0x100000, words := 1, port := 2, tag := 77, records := 0, body := 0, bytes := 40,
    ack := none, down := none }

/-- Both lanes are in SERVICE, and the commands before sequence number n have been sent, those before 5 received; none from 4 on is acknowledged. -/
def clasped (n : Nat) (bad : Tab Nat) : State :=
  { twoLanes with cl := { twoLanes.cl with down := { nextTx := n, nextRx := 5, bad := bad, unacked := (List.range (n - 4)).map (fun i =>
      { seq := 4 + i, lane := if i = 0 then 0 else 1, bytes := 40, cls := .cmd, port := 2, tag := 77 }) } } }

theorem takesFrame_of {s : State} {f : ClaspFrame} (h : (laneUp s 1 && decide (f.cls ≠ .heart) && decide (f.seq = (dirGet s f.toField).nextRx) &&
    (!newFrame s f || decide (laneFor s f.toField = 1 ∧ unackOf (dirGet s f.toField) 1 + f.bytes ≤ 6144))) = true) : TakesFrame s 1 f := by
  simp only [Bool.and_eq_true, Bool.or_eq_true, Bool.not_eq_true', decide_eq_true_eq] at h
  refine ⟨h.1.1.1, h.1.1.2, h.1.2, fun hn => ?_⟩
  have h2 := h.2
  rw [hn] at h2
  simpa using h2

theorem test_ClaspFrames_good :
    let full := { cframe 5 with bytes := 6144 }
    (clasped 5 []).waits = [] ∧ TakesFrame (clasped 5 []) 1 full ∧ newFrame (clasped 5 []) full = true ∧ newFrame (clasped 9 []) (cframe 8) = false ∧ full.ckl = true ∧
    (dirGet (clasped 5 []) true).nextTx ≤ 5 ∧ (dirGet (clasped 5 []) true).early = [] ∧
    laneUp (clasped 9 []) 1 = true ∧ (dirGet (clasped 9 []) true).nextRx < (cframe 8).seq ∧ (cframe 8).seq < (dirGet (clasped 9 []) true).nextTx ∧
    (dirGet (clasped 9 []) true).early = [] :=
  ⟨rfl, takesFrame_of (by decide +kernel), by decide +kernel⟩

theorem test_ClaspFrames_bad : ∀ n ∈ [6, 7],
    let s := partMod 2 (fun u => { u with outst := [cmd0] }) (clasped 6 [(5, n)])
    let f := { cframe 5 with ckl := false }
    s.waits = [] ∧ TakesFrame s 1 f ∧ f.bufDbe = false ∧ newFrame s f = false ∧ tabGet (fun _ => 0) (dirGet s f.toField).bad f.seq = n ∧
    (recentErrs s (laneEnd 1 f.toField)).length < fld s R.CL_CTL F.CL_CTL_ERRLIM ∧ (partGet s f.port.val).outst = [cmd0] ∧ cmd0.tag = f.tag ∧ (dirGet s f.toField).early = [] ∧
    (partGet s f.port.val).resp = [] ∧ cmd0.ctr = none := by
  intro n hn
  simp only [List.mem_cons, List.not_mem_nil, or_false] at hn
  rcases hn with h | h <;> subst h <;> exact ⟨by decide +kernel, takesFrame_of (by decide +kernel), by decide +kernel⟩

theorem test_ClaspFrames_ahead :
    let f := { cframe 8 with ckl := false, bufDbe := true }
    laneUp (clasped 9 []) 1 = true ∧ f.cls ≠ .heart ∧ (dirGet (clasped 9 []) true).nextRx < f.seq ∧ newFrame (clasped 9 []) f = false ∧
    (dirGet (clasped 9 []) true).early = [] ∧ (recentErrs (clasped 9 []) (laneEnd 1 f.toField)).length < fld (clasped 9 []) R.CL_CTL F.CL_CTL_ERRLIM := by decide +kernel

theorem test_ClaspFrames_heart :
    let s := { clasped 5 [] with cl := { (clasped 5 []).cl with errs := [(3, List.replicate 200 0)] } }
    let f := { cframe 0 with cls := .heart }
    s.waits = [] ∧ laneUp s 0 = true ∧ laneUp s 1 = true ∧ f.cls = .heart ∧ f.ckl = true ∧ f.down = none ∧ { f with ack := some 4 }.ack = some 4 ∧
    { f with down := some 0 }.down = some (0 : Lane) ∧ f.ack = none ∧ fld s R.CL_CTL F.CL_CTL_ERRLIM ≤ (recentErrs s (laneEnd 1 f.toField)).length := by decide +kernel

/-- The lanes in two states. -/
def lanesIn (a b : Nat) : State := { withRegs [(R.CL_CTL, 0x100a0003), (R.CL_STAT, flds [(laneFld 0, a), (laneFld 1, b)])] up with elapsed := 10000000000 }

theorem test_Lanes_lost : (lanesIn 0 2).waits = [] ∧ heardAt (lanesIn 0 2) (silentEnd (lanesIn 0 2) 1) + 2000 ≤ (lanesIn 0 2).elapsed ∧ laneUp (lanesIn 0 2) 1 = true ∧ laneUp (lanesIn 0 2) (1 - 1) = false ∧ laneSt (lanesIn 0 2) (1 - 1) ≠ lnPARKED ∧
    (lanesIn 0 2).cl.been = true ∧ (lanesIn 0 2).cl.epHost = false ∧ (lanesIn 0 2).pow.host.st = .run ∧ (lanesIn 0 2).pow.field.st = .run := by decide +kernel

theorem test_Lanes_train :
    (lanesIn 2 lnTRAIN).waits = [] ∧ laneSt (lanesIn 2 lnTRAIN) 1 = lnTRAIN ∧ (lanesIn 2 lnTRAIN).stalled = [] ∧ (lanesIn 2 lnTRAIN).cl.epHost = false ∧
    (lanesIn 2 lnTRAIN).cl.epField = false ∧ (lanesIn 2 lnTRAIN).cl.fhReport = false ∧ (lanesIn 2 lnTRAIN).cl.waiting = [] ∧ (lanesIn 2 lnTRAIN).tm.fieldPend = 0 ∧
    laneUp (lanesIn 2 lnTRAIN) (1 - 1) = true ∧ laneSince (lanesIn 2 lnTRAIN) 1 + 100000 ≤ (lanesIn 2 lnTRAIN).elapsed ∧
    (lanesIn lnFAILED lnTRAIN).pow.host.st = .run ∧ (lanesIn lnFAILED lnTRAIN).pow.field.st = .run ∧
    laneSince (lanesIn lnFAILED lnTRAIN) 1 + 100000 ≤ (lanesIn lnFAILED lnTRAIN).elapsed ∧
    laneSince (lanesIn 2 lnFAILED) 1 + 1000000 * fld (lanesIn 2 lnFAILED) R.CL_CTL F.CL_CTL_RETRY ≤ (lanesIn 2 lnFAILED).elapsed ∧
    laneSt (lanesIn lnFAILED lnTRAIN) 1 = lnTRAIN ∧ laneSt (lanesIn lnFAILED lnTRAIN) (1 - 1) = lnFAILED ∧ (lanesIn lnFAILED lnTRAIN).cl.been = true ∧
    (lanesIn lnFAILED lnTRAIN).cl.epHost = false ∧ laneSt (lanesIn 2 lnFAILED) 1 = lnFAILED ∧ lnEn (lanesIn 2 lnFAILED) 1 = true ∧
    laneSt (lanesIn 2 lnPARKED) 1 = lnPARKED ∧ parks (lanesIn 2 lnPARKED).pow.host = false ∧ parks (lanesIn 2 lnPARKED).pow.field = false := by decide +kernel

theorem calm_of {s : State} (h : decide (s.stalled = [] ∧ s.waits = [] ∧ s.boot.episodes = [] ∧ s.boot.heldSrcs = [] ∧ s.boot.inReset = [] ∧ s.pow.host.st = .run ∧
    s.pow.field.st = .run ∧ s.boot.hostHeld = false ∧ fld s R.GLB_BOOTSTAT F.GLB_BOOTSTAT_STAGE = 6 ∧ fld s R.GLB_BOOTSTAT F.GLB_BOOTSTAT_FSIDE = 3 ∧
    s.nv.busyUntil ≤ s.elapsed) = true) : Calm s := by
  obtain ⟨a, b, c, d, e, f, g, h, i, j, k⟩ := of_decide_eq_true h
  exact ⟨⟨a, b⟩, c, d, e, f, g, h, i, j, k⟩

theorem test_Lanes_loss :
    let s := let b := mapped 0 (lanesIn lnFAILED lnFAILED); { b with cl := { b.cl with epHost := true, epField := true } }
    Calm s ∧ s.cl.epHost = true ∧ someLane s = false ∧ s.ports = [] ∧ s.cl.epField = true ∧ s.pow.wkdrop = 0 ∧ srcLevel s 21 = 3 ∧
    s.cl.epHostAt + 1000000 * fld s R.CL_LOSS F.CL_LOSS_LOSSLIM ≤ s.elapsed ∧ s.cl.epFieldAt + 1000000 * s.cl.fhLim ≤ s.elapsed :=
  ⟨calm_of (by decide +kernel), by decide +kernel⟩

-- ---------------------------------------------------------------- witnesses: resets and start-up

/-- A device whose watchdogs are on. -/
def calm : State := withRegs [(R.RST_WDT, flds [(F.RST_WDT_HBEN, 1), (F.RST_WDT_FHEN, 1), (F.RST_WDT_FTEN, 1)])] { mapped 1 up with elapsed := 20000 }

theorem test_ResetSources : Calm calm ∧ calm.boot.hrst = false ∧ calm.boot.frst = false ∧ flag calm R.RST_WDT F.RST_WDT_HBEN = true ∧
    flag calm R.RST_WDT F.RST_WDT_FHEN = true ∧ flag calm R.RST_WDT F.RST_WDT_FTEN = true ∧ tileOut calm 5 = true ∧ portUp calm 47 = true ∧
    srcLevel calm 15 ≠ 0 ∧ srcLevel calm 14 ≠ 0 ∧ srcLevel calm 8 = 2 ∧ (resetReach 0x122).isSome = true ∧ fuseBit calm 3 = false ∧ srcLevel calm 25 ≤ rsLevel 0x122 ∧
    { calm with boot := { calm.boot with resets := [{ port := 2, tag := 7, word := 0x122, leftAt := some 0 }] } }.boot.resets = [{ port := (2 : Partner).val, tag := 7, word := 0x122, leftAt := some 0 }] ∧ 0 + 20000 ≤ calm.elapsed :=
  ⟨calm_of (by decide +kernel), by decide +kernel⟩

/-- One source holds the device in a reset. -/
def inReset (c : SrcOn) (s : State) : State := { s with boot := { s.boot with episodes := [{ srcs := [c], heldOff := false, began := 5 }], inReset := wholeDies c.reach } }

/-- A source that has released, of a power source of a side or of the watchdog of HB. -/
def coldSrc (no : Nat) (x : Side) : SrcOn := { no := no, level := 0, reach := .side x, on := false, detail := 0, cold := true }
def warmSrc (no : Nat) : SrcOn := { no := no, level := 2, reach := .die .hb, on := false, detail := 0, cold := false }

theorem test_Releases : ∀ c ∈ [warmSrc 18, coldSrc 0 .host, coldSrc 3 .field], Quiet (inReset c up) ∧
    (inReset c up).boot.episodes = [{ srcs := [c], heldOff := false, began := 5 }] ∧ c.on = false ∧ c.no ≠ 13 ∧ (inReset c up).nv.trial = false ∧
    ((inReset c up).regs.map (·.1)).Nodup ∧ (inReset c up).pow.wkdrop = 0 :=
  fun c hc => ⟨⟨rfl, rfl⟩, rfl, (by decide +kernel : ∀ c ∈ [warmSrc 18, coldSrc 0 .host, coldSrc 3 .field], c.on = false ∧ c.no ≠ 13 ∧
    (inReset c up).nv.trial = false ∧ ((inReset c up).regs.map (·.1)).Nodup ∧ (inReset c up).pow.wkdrop = 0) c hc⟩

theorem test_Releases_pin :
    let c := { warmSrc 6 with on := true }
    let s := let b := inReset c up; { b with boot := { b.boot with hrst := true } }
    Quiet s ∧ s.boot.episodes = [{ srcs := [c], heldOff := false, began := 5 }] ∧ c.no = 6 ∧ c.on = true ∧ s.boot.hrst = true ∧ s.boot.heldSrcs = [] :=
  ⟨⟨rfl, rfl⟩, by decide +kernel⟩

/-- A host side that starts: its stage, the field side's, its first digest. -/
def starting (st fs : Nat) (fused bootsel : Bool) : State :=
  { withRegs [(R.GLB_BOOTSTAT, flds [(F.GLB_BOOTSTAT_STAGE, st), (F.GLB_BOOTSTAT_FSIDE, fs)])] up with boot := { up.boot with fused := fused, bootsel := bootsel } }

theorem test_StartUp_fuses : ∀ b ∈ [false, true], Quiet (starting 0 0 false b) ∧ fhUp (starting 0 0 false b) = true ∧ (starting 0 0 false b).boot.inReset.contains .hb = false ∧
    (starting 0 0 false b).boot.hostHeld = false ∧ (starting 0 0 false b).boot.fused = false ∧
    fld (starting 0 0 false b) R.GLB_BOOTSTAT F.GLB_BOOTSTAT_STAGE = 0 ∧ (starting 0 0 false b).boot.bootsel = b ∧ (starting 0 0 false b).boot.imageFail = false ∧
    fuseBit (starting 0 0 false b) 2 = false ∧ (starting 0 0 false b).boot.episodes = [] ∧ (starting 0 0 false b).nv.busyUntil ≤ (starting 0 0 false b).elapsed :=
  fun b hb => ⟨⟨rfl, rfl⟩, (by decide +kernel : ∀ b ∈ [false, true], fhUp (starting 0 0 false b) = true ∧ (starting 0 0 false b).boot.inReset.contains .hb = false ∧
    (starting 0 0 false b).boot.hostHeld = false ∧ (starting 0 0 false b).boot.fused = false ∧
    fld (starting 0 0 false b) R.GLB_BOOTSTAT F.GLB_BOOTSTAT_STAGE = 0 ∧ (starting 0 0 false b).boot.bootsel = b ∧ (starting 0 0 false b).boot.imageFail = false ∧
    fuseBit (starting 0 0 false b) 2 = false ∧ (starting 0 0 false b).boot.episodes = [] ∧ (starting 0 0 false b).nv.busyUntil ≤ (starting 0 0 false b).elapsed) b hb⟩

theorem test_StartUp_noload :
    let s := let b := starting 0 0 false true; { b with nv := { b.nv with otp := [(12, 4)] } }
    s.boot.bootsel = true ∧ fuseBit s 2 = true := by decide +kernel

theorem test_StartUp_retry :
    let s := inReset { coldSrc 26 .host with on := true } { up with elapsed := 100000000 }
    Quiet s ∧ s.boot.fuseAt + 100000000 ≤ s.elapsed ∧ s.boot.episodes = [{ srcs := [{ coldSrc 26 .host with on := true }], heldOff := false, began := 5 }] ∧ s.boot.heldSrcs = [] :=
  ⟨⟨rfl, rfl⟩, by decide +kernel⟩

theorem test_StartUp_bad :
    let s := starting 0 0 false false
    s.boot.episodes = [] ∧ s.pow.host.st = .run ∧ s.nv.busyUntil ≤ s.elapsed := by decide +kernel

/-- The parts of an image (R639, R640): a header, a directory of one section of 16 bytes, and the section. -/
def image : List Byte :=
  let sect := List.replicate 16 (0x5a : Byte)
  let dir := leBytes 2 1 ++ leBytes 2 0 ++ leBytes 4 272 ++ leBytes 4 16 ++ leBytes 4 (crc32c sect).toNat
  let h := [0x4F, 0x43, 0x56, 0x53] ++ leBytes 4 0x00010000 ++ leBytes 4 0x4C594808 ++ leBytes 4 288 ++ leBytes 4 5 ++ leBytes 4 0x77 ++ leBytes 2 1 ++ leBytes 2 0 ++
    List.replicate 220 (0 : Byte) ++ leBytes 4 (crc32c dir).toNat
  h ++ leBytes 4 (crc32c h).toNat ++ dir ++ sect

/-- The image stands in a slot. -/
def flashed (b : Bool) (s : State) : State := { s with boot := { s.boot with flash := image.zipIdx.map (fun x => (slotBase b + x.2, x.1)) } }

/-- The device at pass 1 with the image in a slot. -/
def atPass1 (b : Bool) : State := flashed b (starting 1 0 true false)

theorem test_StartUp_pass1 : ∀ b ∈ [false, true],
    let s := atPass1 b
    s.boot.fused = true ∧ s.boot.hostHeld = false ∧ s.boot.inReset.contains .hb = false ∧ fld s R.GLB_BOOTSTAT F.GLB_BOOTSTAT_STAGE ≤ 3 ∧ s.nv.active = false := by
  decide +kernel

theorem test_StartUp_pass1_active : (passSlot (atPass1 false) false).1 = 0 := by decide +kernel

theorem test_StartUp_pass1_other : (passSlot (atPass1 true) false).1 = 2 ∧ slotExists (atPass1 true) (!false) = true := by decide +kernel

theorem test_StartUp_pass1_other_good : (passSlot (atPass1 true) (!false)).1 = 0 := by decide +kernel

theorem test_StartUp_pass1_none :
    let s := starting 1 0 true false
    s.nv.active = false ∧ (passSlot s false).1 = 2 ∧ (passSlot s (!false)).1 = 2 ∧ fuseBit s 2 = false := by decide +kernel

/-- A host side past pass 1 of the image in slot 0. -/
def passed : State :=
  let s := flashed false (starting 4 3 true false)
  { s with boot := { s.boot with load := { s.boot.load with pass1 := some (sha256 (slotImage s false)) } } }

theorem test_StartUp_pass2 :
    fld passed R.GLB_BOOTSTAT F.GLB_BOOTSTAT_STAGE = 4 ∧ passed.boot.inReset.contains .hb = false ∧ fld passed R.GLB_BOOTSTAT F.GLB_BOOTSTAT_FSIDE = 3 ∧
    flag passed R.GLB_BOOTSTAT F.GLB_BOOTSTAT_SLOT = false := by decide +kernel

theorem test_StartUp_pass2_section : sectOf (slotImage passed false) kHOSTREG = [] := by decide +kernel

theorem test_StartUp_pass2_digest : passed.boot.load.pass1 = some (sha256 (slotImage passed false)) := rfl

theorem test_StartUp_pass2_differs :
    let s := starting 4 3 true false
    s.boot.load.pass1 = none ∧
    Calm { setFld R.GLB_BOOTSTAT F.GLB_BOOTSTAT_FSIDE 3 (setFld R.GLB_BOOTSTAT F.GLB_BOOTSTAT_STAGE 6 s) with stalled := [] } :=
  ⟨rfl, calm_of (by decide +kernel)⟩

theorem test_StartUp_field :
    let s := withRegs [(R.GLB_BOOTSTAT, flds [(F.GLB_BOOTSTAT_STAGE, 5), (F.GLB_BOOTSTAT_SRC, 1), (F.GLB_BOOTSTAT_FSIDE, 1)])] up
    fld s R.GLB_BOOTSTAT F.GLB_BOOTSTAT_STAGE = 5 ∧ anyLane s = true ∧ fieldTakes s = true ∧ s.boot.inReset.contains .hb = false ∧
    flag s R.GLB_BOOTSTAT F.GLB_BOOTSTAT_SRC = true ∧ sectOf s.boot.load.bytes kFIELDREG = [] ∧ sectOf s.boot.load.bytes kCONTEXTS = [] ∧
    sectOf s.boot.load.bytes kSUBS = [] := by decide +kernel

-- ---------------------------------------------------------------- witnesses: sleep

/-- A side in a state of its power. -/
def powered (x : Side) (f : SideS → SideS) (s : State) : State := sideMod x f s

theorem test_Entries : ∀ x ∈ [Side.host, .field], ∀ tg ∈ [PowState.sleep, .deep, .off], ∀ ap ∈ [0, 1, 2, 3],
    let s := powered x (fun d => { d with st := .entering, target := tg, ap := ap }) up
    Quiet s ∧ sideOut s x = true ∧ (sideGet s x).st = .entering ∧ (sideGet s x).ap = ap ∧ (sideGet s x).target = tg ∧ workDone s x = true :=
  fun x hx tg ht ap ha => ⟨(by cases x <;> exact ⟨rfl, rfl⟩), (by decide +kernel : ∀ x ∈ [Side.host, .field], ∀ tg ∈ [PowState.sleep, .deep, .off], ∀ ap ∈ [0, 1, 2, 3],
    let s := powered x (fun d => { d with st := .entering, target := tg, ap := ap }) up
    sideOut s x = true ∧ (sideGet s x).st = .entering ∧ (sideGet s x).ap = ap ∧ (sideGet s x).target = tg ∧ workDone s x = true) x hx tg ht ap ha⟩

theorem test_Entries_work :
    let s := powered .field (fun d => { d with st := .entering, target := .off, ap := 0 }) polling
    let q := powered .field (fun d => { d with st := .entering, target := .off, ap := 3 }) (subscribed 2)
    let t := withRegs [(R.PWR_CFG, flds [(F.PWR_CFG_FTAUTO, 0x3f)])] up
    Quiet s ∧ sideOut s .field = true ∧ workDone (slotsAt 47 [(7, { tx0 with wait := 1 })] (some 7) s) .field = false ∧
    let l := { s with elapsed := 100000000000 }
    (sideGet l .field).apAt + 100000 * fld l R.PWR_CFG F.PWR_CFG_DRAIN ≤ l.elapsed ∧
    Quiet q ∧ sideOut q .field = true ∧ 0 < lostRecords q ∧ tileOut t 5 = true ∧ tileIdle t 5 = true :=
  ⟨⟨rfl, rfl⟩, by decide +kernel, by decide +kernel, by decide +kernel, ⟨rfl, rfl⟩, by decide +kernel⟩

/-- The next occurrence of a schedule entry. -/
def nextOf (s : State) (i : Nat) : Option Nat :=
  (s.boot.schedule[i]?).bind (fun e => nextOccurrence e (max (tabGet (fun _ => 0) s.boot.schedAt i) (ceilDiv (scheduleNs s) secNs)))

/-- A schedule entry that asks for both sides in Run, and one that asks for none to wake. -/
def scheduled : State := { up with boot := { up.boot with schedule := [{ req := 0x00, period := 3600, start := 5 }, { req := 0xF2, period := 3600, start := 5 }] } }

theorem test_Wakes_start : ∀ x ∈ [Side.host, .field], ∀ st ∈ [PowState.sleep, .deep, .off, .run],
    let s := powered x (fun d => { d with st := st }) scheduled
    Quiet s ∧ sideOut s x = true ∧ (sideGet s x).st = st ∧ (s.boot.schedule[0]?).map (fun e => (if x = .host then pwHreq e.req else pwFreq e.req)) = some 0 ∧
    s.pow.compare = none ∧ s.pow.held.contains 8 = false ∧ nextOf s 0 = some 5 ∧ (st ≠ .off → s.pow.field.st ≠ .off ∧ s.pow.field.st ≠ .wakefail) :=
  fun x hx st ht => ⟨(by cases x <;> exact ⟨rfl, rfl⟩), (by decide +kernel : ∀ x ∈ [Side.host, .field], ∀ st ∈ [PowState.sleep, .deep, .off, .run],
    let s := powered x (fun d => { d with st := st }) scheduled
    sideOut s x = true ∧ (sideGet s x).st = st ∧ (s.boot.schedule[0]?).map (fun e => (if x = .host then pwHreq e.req else pwFreq e.req)) = some 0 ∧
    s.pow.compare = none ∧ s.pow.held.contains 8 = false ∧ nextOf s 0 = some 5 ∧ (st ≠ .off → s.pow.field.st ≠ .off ∧ s.pow.field.st ≠ .wakefail)) x hx st ht⟩

theorem test_Wakes_unwind : ∀ x ∈ [Side.host, .field],
    let s := powered x (fun d => { d with st := .entering, target := .sleep, ap := 2 }) up
    sideOut s x = true ∧ (sideGet s x).st = .entering ∧ (sideGet s x).ap < 3 ∧ s.pow.hostReqs = [] := by decide +kernel

theorem test_Wakes_waking : ∀ x ∈ [Side.host, .field], ∀ fr ∈ [PowState.sleep, .deep], ∀ rr ∈ [false, true],
    let s := powered x (fun d => { d with st := .waking, from_ := fr, regRetry := rr, oscRetry := rr, onRc := true }) { up with elapsed := 5000000 }
    sideOut s x = true ∧ (sideGet s x).st = .waking ∧ (sideGet s x).from_ = fr ∧ (sideGet s x).regRetry = rr ∧ (sideGet s x).onRc = true ∧ (sideGet s x).oscRetry = rr ∧
    s.boot.episodes = [] ∧ s.pow.field.st ≠ .wakefail ∧ s.nv.busyUntil ≤ s.elapsed ∧ (sideGet s x).regAt + 2000000 ≤ s.elapsed ∧ (sideGet s x).oscAt + 5000000 ≤ s.elapsed ∧ (x = .host → s.pow.field.st = .run) := by decide +kernel

theorem test_Wakes_others :
    let s := powered .host (fun d => { d with st := .sleep }) scheduled
    let a := withRegs [(R.PWR_AOC, flds [(F.PWR_AOC_XTAL, 1), (F.PWR_AOC_RETRY, 1)])] up
    (s.boot.schedule[1]?).map wakesBySchedule = some false ∧ s.pow.host.st ≠ .run ∧ nextOf s 1 = some 5 ∧
    (let w := { up with elapsed := 10000000000 }; w.pow.hwakeAt + 1000000 * fld w R.PWR_HWCFG F.PWR_HWCFG_PWID ≤ w.elapsed) ∧
    flag a R.PWR_AOC F.PWR_AOC_XTAL = true ∧ flag a R.PWR_AOC F.PWR_AOC_ONRC = false ∧ flag a R.PWR_AOC F.PWR_AOC_RETRY = true := by decide +kernel

-- ---------------------------------------------------------------- witnesses: the machine

theorem test_StepRuns_idle : up.pending = [] ∧ up.waits = [] := ⟨rfl, rfl⟩

theorem test_RequestBytes : ([5] : List Word).length < 65536 ∧ (parseReq idBytes).isSome = true := by decide +kernel

-- ---------------------------------------------------------------- operands the checks of WellFormed refuse

theorem test_wf_payload : (Instr.read (idHdr 2) 0 (List.replicate 65536 0)).wellFormed = false := by decide +kernel
theorem test_wf_payload_rest : (Instr.streamon (idHdr 2) 0 0 (List.replicate 65535 0)).wellFormed = false := by decide +kernel
theorem test_wf_bits : (Instr.xferDone 0 (List.replicate 4097 false) 0).wellFormed = false ∧
    (Instr.sentinelPoll 0 [[], List.replicate 4097 false]).wellFormed = false := by decide +kernel
theorem test_wf_chunk : (Instr.windowChunk 0 (List.replicate 137 0)).wellFormed = false := by decide +kernel
theorem test_wf_identity : (Instr.identityJudge 0 0 (some (List.replicate 9 0)) false).wellFormed = false := by decide +kernel
theorem test_wf_ptp : (Instr.ptpEventRx 0 { ptpMsg 16 with kind := 16 }).wellFormed = false ∧ (Instr.ptpEventRx 0 { ptpMsg 0 with gmId := 2 ^ 64 }).wellFormed = false ∧
    (Instr.ptpEventRx 0 (ptpMsg 0)).wellFormed = true := by decide +kernel
theorem test_wf_ethernet : (Instr.ethFrameReceive 0 (frame (List.replicate 9001 0))).wellFormed = false ∧
    (Instr.ethFrameReceive 0 { frame [] with pause := some 65536 }).wellFormed = false := by decide +kernel
theorem test_wf_clasp : (Instr.claspFrameRx 0 { cframe 0 with addr := 2 ^ 32 - 4, words := 2 }).wellFormed = false ∧
    (Instr.claspFrameRx 0 { cframe 0 with opcode := 256 }).wellFormed = false := by decide +kernel
theorem test_wf_damage : (Instr.dbecfg .host [2]).wellFormed = false := by decide +kernel
theorem test_wf_fuses : (Instr.fuseLoad [128]).wellFormed = false ∧ (Instr.fuseRetry [0, 128]).wellFormed = false := by decide +kernel
theorem test_wf_count : (Instr.countMatch 0 0 0).wellFormed = false ∧ (Instr.overflow 0 0 0).wellFormed = false := by decide +kernel

-- ---------------------------------------------------------------- numbers the spec or its standards give

/-- The CRC of R495's nine bytes. -/
theorem test_crc32c_check : crc32c [0x31, 0x32, 0x33, 0x34, 0x35, 0x36, 0x37, 0x38, 0x39] = 0xE3069283 := by decide +kernel

/-- The key of the examples of RFC 4493. -/
def rfcKey : List Byte := [0x2b, 0x7e, 0x15, 0x16, 0x28, 0xae, 0xd2, 0xa6, 0xab, 0xf7, 0x15, 0x88, 0x09, 0xcf, 0x4f, 0x3c]

/-- RFC 4493, example 1. -/
theorem test_cmac_empty : beNat (cmac rfcKey []) = 0xbb1d6929e95937287fa37d129b756746 := by decide +kernel

/-- RFC 4493, example 2. -/
theorem test_cmac_block : beNat (cmac rfcKey [0x6b, 0xc1, 0xbe, 0xe2, 0x2e, 0x40, 0x9f, 0x96, 0xe9, 0x3d, 0x7e, 0x11, 0x73, 0x93, 0x17, 0x2a]) =
    0x070a16b46b4d4144f79bdd9dd04a287c := by decide +kernel

/-- FIPS 180-4's message "abc". -/
theorem test_sha256_abc : beNat (sha256 [0x61, 0x62, 0x63]) = 0xba7816bf8f01cfea414140de5dae2223b00361a396177a9cb410ff61f20015ad := by decide +kernel

/-- The response to a READ of GLB_ID (R57, R511): 16 bytes and the CRC. -/
theorem test_response_bytes :
    let r : Resp := { cmd := { cmd0 with op := opREAD, addr := wordOf R.GLB_ID, tag := 2, payload := [1] }, status := stOK, race := false, payload := [view up R.GLB_ID] }
    (respBytes r).take 16 = [0x81, 0x00, 0x02, 0x00, 0x00, 0x00, 0x00, 0x00, 0x01, 0x00, 0x00, 0x00, 0x08, 0x48, 0x59, 0x4C] ∧ (respBytes r).length = 20 := by decide +kernel

/-- The registers of the spec's worked transfer on FP17 (02_field_ports.md) at their addresses, each write one that is taken. -/
theorem test_worked_transfer :
    [R.FP_CLK 17, R.FP_WCFG 17, R.FP_GAP 17, R.FP_SS 17, R.FP_TLIM 17, R.FP_CTL 17] = [0x12080C, 0x120804, 0x120810, 0x120818, 0x120820, 0x120800] ∧
    [(R.FP_CLK 17, (0xA : Word)), (R.FP_WCFG 17, 0x183), (R.FP_GAP 17, 0x20101), (R.FP_SS 17, 9), (R.FP_TLIM 17, 0x64), (R.FP_CTL 17, 0x13)].all
      (fun x => decide (firstRefusal (some 2) true (fun _ => false) [x] up = none) && writeCrit up 2 (rowCmd opWRITE (hdr0 false 2) (wordOf x.1) [x.2])) = true := by
  decide +kernel

/-- The registers of the spec's worked blocks on FP40. -/
theorem test_worked_blocks :
    [R.FP_CLK 40, R.FP_BCFG 40, R.FP_CLKMON 40, R.FP_STUCK 40, R.FP_CTL 40] = [0x15000C, 0x150008, 0x150024, 0x150028, 0x150000] ∧
    [(R.FP_CLK 40, (5 : Word)), (R.FP_BCFG 40, 0xC), (R.FP_CLKMON 40, 0x37002D), (R.FP_STUCK 40, 0x1000000), (R.FP_CTL 40, 0x15)].all
      (fun x => decide (firstRefusal (some 2) true (fun _ => false) [x] up = none)) = true := by
  decide +kernel

theorem test_decode_none : decodeTableWord 0 0 = none ∧ decodeTableWord 32 5 = none := by decide

end Sys2Proof.Tests
end

/-! PROOFS. What a WRITE of a plain register leaves (R14, R17), and that a WRITE to queue memory or the flash view is refused (R54). -/

namespace Sys2Proof.Machine

variable {h : Hdr} {a : Nat} {v : Word} {s : State}

-- ---------------------------------------------------------------- descriptors

/-- The offset of the last register of a descriptor's dimensions. -/
def dimsSpan : List (Nat × Nat) → Nat
  | [] => 0
  | (n, stride) :: rest => (n - 1) * stride + dimsSpan rest

/-- An offset that the dimensions match lies within their span. -/
theorem dimsMatch_le_dimsSpan (dims : List (Nat × Nat)) (off : Nat) (hm : dimsMatch dims off = true) : off ≤ dimsSpan dims := by
  induction dims generalizing off with
  | nil => simp_all [dimsMatch]
  | cons d rest ih =>
    obtain ⟨n, stride⟩ := d
    simp only [dimsMatch, Bool.and_eq_true, decide_eq_true_eq] at hm
    obtain ⟨hlt, hrest⟩ := hm
    calc off = stride * (off / stride) + off % stride := (Nat.div_add_mod off stride).symm
      _ ≤ (n - 1) * stride + dimsSpan rest := by
        rw [Nat.mul_comm]
        exact Nat.add_le_add (Nat.mul_le_mul_right _ (by omega)) (ih _ hrest)

/-- A descriptor covers no address outside its span. -/
theorem covers_le {d : RegDesc} (hc : d.covers a = true) : d.base ≤ a ∧ a ≤ d.base + dimsSpan d.dims := by
  simp only [RegDesc.covers, Bool.and_eq_true, decide_eq_true_eq] at hc
  obtain ⟨hbase, hdims⟩ := hc
  have := dimsMatch_le_dimsSpan _ _ hdims
  omega

/-- The descriptor of an address is the one of the map that alone covers it. -/
theorem regDesc?_of_only {d : RegDesc} (hm : d ∈ regTable) (hc : d.covers a = true)
    (only : ∀ e ∈ regTable, e.covers a = true → e = d) : regDesc? a = some d := by
  have hs : (regTable.find? (fun e => e.covers a)).isSome = true := List.find?_isSome.2 ⟨d, hm, hc⟩
  obtain ⟨e, he⟩ := Option.isSome_iff_exists.1 hs
  have hcov : e.covers a = true := List.find?_some (p := fun e => RegDesc.covers e a) he
  rwa [only e (List.mem_of_find?_eq_some he) hcov] at he

/-- The descriptor of the template words (R208). -/
def tplDesc : RegDesc := ⟨0x220000, [(1024, 0x80), (32, 0x4)], 0x0, 0x0, 0xffffffff, 0x0, 0x0, 0x0, 0x0, 0x0⟩

theorem tplDesc_alone : ∀ d ∈ regTable, d ≠ tplDesc → d.base + dimsSpan d.dims < 0x220000 ∨ 0x240000 ≤ d.base := by decide +kernel

theorem descOf_tpl (hlo : 0x220000 ≤ a) (hhi : a < 0x240000) (h4 : a % 4 = 0) : descOf a = tplDesc := by
  have hc : tplDesc.covers a = true := by
    simp only [RegDesc.covers, tplDesc, dimsMatch, Bool.and_eq_true, decide_eq_true_eq, beq_iff_eq]
    exact ⟨decide_eq_true hlo, by omega⟩
  have only : ∀ e ∈ regTable, e.covers a = true → e = tplDesc := fun e he hec => Decidable.byContradiction (fun hne => by
    have hin := covers_le hec
    have hout := tplDesc_alone e he hne
    omega)
  rw [descOf, regDesc?_of_only (by decide +kernel) hc only, Option.getD_some]

/-- The masks of FPn_EVT: no bit of it is written but by clearing (R156). -/
theorem descOf_fpEvt : ∀ n : PortNo, (descOf (R.FP_EVT n.val)).rw = 0 ∧ (descOf (R.FP_EVT n.val)).rws = 0 := by decide +kernel

-- ---------------------------------------------------------------- what a word leaves (R14)

theorem reg_putWord (crit : Bool) (b : Nat) :
    reg (putWord crit a v s) b = if b = a then stored (descOf a) crit (reg s a) v else reg s b := reg_setReg ..

/-- A register without RW and RWS bits loses the event bits written 1 and keeps the rest. -/
theorem stored_of_unwritable {d : RegDesc} (hrw : d.rw = 0) (hrws : d.rws = 0) (crit : Bool) (old : Word) :
    stored d crit old v = old &&& ~~~(v &&& wordOf d.w1c) := by
  simp only [stored, hrw, hrws, ite_self, Nat.or_zero, wordOf, BitVec.not_zero, BitVec.and_allOnes, BitVec.and_zero, BitVec.or_zero]

/-- A critical write of a template word takes all of it. -/
theorem stored_tplDesc (old : Word) : stored tplDesc true old v = v := by
  have hset : wordOf (0 ||| 0xffffffff) = BitVec.allOnes 32 := rfl
  have hclear : wordOf 0 = 0#32 := rfl
  simp only [stored, tplDesc, if_true, hset, hclear, BitVec.not_allOnes, BitVec.not_zero, BitVec.and_zero, BitVec.and_allOnes, BitVec.zero_or]

-- ---------------------------------------------------------------- a word that changes only registers

/-- The address is that of a word that lies whole in a block of registers or in a reserved range. -/
def PlainWord (a : Nat) : Prop :=
  a < 2 ^ 32 ∧ a % 4 = 0 ∧ a + 4 ≤ (blockAt a).hi ∧ (blockAt a).kind ≠ .win ∧ (blockAt a).kind ≠ .qmem ∧ (blockAt a).kind ≠ .flash

theorem plainWord_of {k : Blk} (hmax : a < 2 ^ 32) (h4 : a % 4 = 0) (hhi : a + 4 ≤ (blockAt a).hi) (hk : (blockAt a).kind = k)
    (hplain : k ≠ .win ∧ k ≠ .qmem ∧ k ≠ .flash) : PlainWord a :=
  ⟨hmax, h4, hhi, hk ▸ hplain⟩

/-- A write row whose word changes nothing but registers of `regs` and is answered OK. -/
theorem wrote_of_regs (regs : List Nat) (P : State → Prop) (hb : PlainWord a) (s' : State)
    (hx : applyWord (some h.port.val) (isCrit h) (wordOf 0xFFFFFFFF) a v (taken opWRITE h (wordOf a) [v] s) = (stOK, s'))
    (hm : { s' with regs := [] } = { taken opWRITE h (wordOf a) [v] s with regs := [] })
    (hr : RegsBut regs (taken opWRITE h (wordOf a) [v] s) s') (hP : ∀ t, (∀ b, reg t b = reg s' b) → P t) :
    Wrote (.write h (wordOf a) [v]) h a v s regs [] P :=
  wroteAs_of _ stOK regs [] P rfl (by decide) hb s' (fun _ => hx) (congrArg State.stalled hm :) (congrArg State.waits hm :)
    (congrArg State.part hm :) hr (only_regs [] hm) (fun t ht _ => hP t ht)

/-- A write row whose word is stored as its access codes say. -/
theorem wrote_of_putWord (P : State → Prop) (hb : PlainWord a) (hfar : a < 0x10000 ∨ 0x14000 ≤ a)
    (hx : ∀ src crit took T, applyWord src crit took a v T = (stOK, putWord crit a v T))
    (hP : ∀ t, reg t a = stored (descOf a) (isCrit h) (reg s a) v → P t) :
    Wrote (.write h (wordOf a) [v]) h a v s [a] [] P := by
  refine wrote_of_regs [a] P hb _ (hx ..) rfl (fun b hne => ?_) (fun t ht => hP t ?_)
  · rw [reg_putWord, if_neg (by simpa using hne)]
  · rw [ht, reg_putWord, if_pos rfl, taken_reg_far a hfar]

-- ---------------------------------------------------------------- the registers of the statement

theorem tplWord_range (j : Fin 1024) (i : Fin 32) :
    0x220000 ≤ R.TPL_WORD j.val i.val ∧ R.TPL_WORD j.val i.val < 0x240000 ∧ R.TPL_WORD j.val i.val % 4 = 0 := by
  show 0x220000 ≤ 0x220000 + j.val * 0x80 + i.val * 0x4 ∧ 0x220000 + j.val * 0x80 + i.val * 0x4 < 0x240000 ∧
    (0x220000 + j.val * 0x80 + i.val * 0x4) % 4 = 0
  omega

theorem blockAt_tpl (hlo : 0x220000 ≤ a) (hhi : a < 0x240000) : blockAt a = ⟨.tpl, 0x220000, 0x240000⟩ := by
  unfold blockAt
  iterate 13 rw [if_neg (by omega)]
  rw [if_pos (by omega)]

theorem applyWord_tpl (hk : (blockAt a).kind = .tpl) (src : Option Nat) (crit : Bool) (took : Word) (T : State) :
    applyWord src crit took a v T = (stOK, putWord crit a v T) := by
  unfold applyWord
  simp only [hk]

theorem blockAt_fpEvt : ∀ n : PortNo, (blockAt (R.FP_EVT n.val)).kind = .ports ∧ R.FP_EVT n.val % 0x800 = 0x44 ∧
    R.FP_EVT n.val + 4 ≤ (blockAt (R.FP_EVT n.val)).hi ∧ 0x14000 ≤ R.FP_EVT n.val ∧ R.FP_EVT n.val < 2 ^ 32 ∧
    R.FP_EVT n.val % 4 = 0 := by decide +kernel

theorem applyWord_fpEvt (n : PortNo) (src : Option Nat) (crit : Bool) (took : Word) (T : State) :
    applyWord src crit took (R.FP_EVT n.val) v T = (stOK, putWord crit (R.FP_EVT n.val) v T) := by
  obtain ⟨hk, hoff, -⟩ := blockAt_fpEvt n
  unfold applyWord
  simp only [hk, hoff, fpWrite]

theorem applyWord_resv (hk : (blockAt a).kind = .resv) (src : Option Nat) (crit : Bool) (took : Word) (T : State) :
    applyWord src crit took a v T = (stOK, T) := by
  unfold applyWord
  simp only [hk]

/-- The reserved ranges of R18 are the ranges between the blocks of R53. -/
theorem blockAt_reserved {r : Nat × Nat} (hr : r ∈ reservedRanges) (hlo : r.1 ≤ a) (hhi : a < r.2) :
    blockAt a = ⟨.resv, r.1, r.2⟩ := by
  simp only [reservedRanges, List.mem_cons, List.not_mem_nil, or_false] at hr
  rcases hr with rfl | rfl | rfl | rfl | rfl | rfl | rfl | rfl <;>
    · simp only at hlo hhi
      unfold blockAt
      grind

theorem view_resv (hk : (blockAt a).kind = .resv) (t : State) : view t a = 0 := by
  unfold view
  simp only [hk]

-- ---------------------------------------------------------------- the refusal of queue memory and the flash view (R54)

theorem blockAt_qmem (hlo : 0x1000000 ≤ a) (hhi : a < 0x1800000) : blockAt a = ⟨.qmem, 0x1000000, 0x1800000⟩ := by
  unfold blockAt
  iterate 17 rw [if_neg (by omega)]
  rw [if_pos (by omega)]

theorem blockAt_flash (hlo : 0x80000000 ≤ a) (hhi : a < 0x88000000) : blockAt a = ⟨.flash, 0x80000000, 0x88000000⟩ := by
  unfold blockAt
  iterate 21 rw [if_neg (by omega)]
  rw [if_pos (by omega)]

/-- The address lies in queue memory or in the flash view (R53). -/
def InMemory (a : Nat) : Prop := (0x1000000 ≤ a ∧ a < 0x1800000) ∨ (0x80000000 ≤ a ∧ a < 0x88000000)

theorem blockAt_memory (hm : InMemory a) : (blockAt a).kind = .qmem ∨ (blockAt a).kind = .flash := by
  rcases hm with ⟨hlo, hhi⟩ | ⟨hlo, hhi⟩
  · exact .inl (by rw [blockAt_qmem hlo hhi])
  · exact .inr (by rw [blockAt_flash hlo hhi])

/-- The words of an access to memory lie in memory. -/
theorem inMemory_of_mem_wordsIn (hm : InMemory a) (n : Nat) : ∀ b ∈ wordsIn a n, InMemory b := by
  intro b hb
  simp only [wordsIn, List.mem_filter, List.mem_map, List.mem_range, decide_eq_true_eq] at hb
  obtain ⟨⟨i, -, rfl⟩, hend⟩ := hb
  rcases hm with ⟨hlo, hhi⟩ | ⟨hlo, hhi⟩
  · rw [blockAt_qmem hlo hhi] at hend
    exact .inl ⟨by omega, hend⟩
  · rw [blockAt_flash hlo hhi] at hend
    exact .inr ⟨by omega, hend⟩

/-- No unit of R610 answers for queue memory or the flash view. -/
theorem unitHolds_memory (hm : InMemory a) (r : Reach) : unitHolds r a = false := by
  have hk := blockAt_memory hm
  have hp : portOf a = none := by rcases hk with hk | hk <;> simp only [portOf, hk]
  cases r with
  | port n => simp [unitHolds, hp]
  | lanes x => cases x <;> rcases hk with hk | hk <;> simp [unitHolds, hk]
  | _ => rcases hk with hk | hk <;> simp [unitHolds, hk]

theorem unitHeld_memory (hm : InMemory a) : unitHeld s a = false := by
  simp [unitHeld, unitHolds_memory hm]

/-- An access whose words no held unit answers for runs where its first word can be reached. -/
theorem withOwner_of_free {p : Nat} {c : Cmd} {n : Nat} {k : State → Ran} (hr : Reaches s a)
    (hf : ∀ b ∈ wordsIn a n, unitHeld s b = false) : withOwner p c a n k s = k s := by
  have hh : (wordsIn a n).any (unitHeld s) = false := List.any_eq_false.2 (fun b hb => by simp [hf b hb])
  unfold withOwner
  by_cases hfield : fieldBlk (blockAt a).kind = true
  · obtain ⟨haway, howner⟩ := hr.path hfield
    simp [hfield, haway, howner, hh, hr.awake hfield]
  · simp [hfield, hh]

theorem writeCrit_memory {p : Nat} {c : Cmd} (hm : InMemory c.addr.toNat) : writeCrit s p c = false := by
  unfold writeCrit
  rcases blockAt_memory hm with hk | hk <;> simp only [hk]

theorem writeBlock_memory (hm : InMemory a) (src : Option Nat) (crit : Bool) (waive : Nat → Bool) (took : Word) (ws : List Word) :
    writeBlock src crit waive took a ws s = (stDENIED, s) := by
  unfold writeBlock
  rcases blockAt_memory hm with hk | hk <;> simp only [hk]

/-- A WRITE to memory that reaches it is DENIED and writes nothing (R54). -/
theorem runWrite_memory {p : Partner} {c : Cmd} (took : Word) (h4 : c.addr.toNat % 4 = 0) (hne : c.payload ≠ [])
    (hm : InMemory c.addr.toNat) (hload : inLoadWait s = false) (hr : Reaches s c.addr.toNat) : runWrite p c took s = ran stDENIED [] s := by
  have hwin : (blockAt c.addr.toNat).kind ≠ .win := by rcases blockAt_memory hm with hk | hk <;> simp [hk]
  have hlen : (c.payload.length == 0) = false := by simpa using hne
  unfold runWrite
  simp only [hlen, h4, hload, writeCrit_memory hm, Bool.and_false, bne_self_eq_false, Bool.or_false, Bool.false_eq_true, if_false,
    withOwner_of_free hr (fun b hb => unitHeld_memory (inMemory_of_mem_wordsIn hm _ b hb)), if_neg hwin, writeBlock_memory hm]

-- ---------------------------------------------------------------- a refusal with DENIED (R21, R534)

theorem noteRefusal_mask (p st : Nat) (s u : State) : answerMask (noteRefusal p st s) u = answerMask s u := by
  unfold noteRefusal
  split
  · rfl
  · split
    · rfl
    · split <;> rfl

/-- Whatever its status, an answer changes nothing but what `answerParts` names. -/
theorem answerCmd_mask_any (p : Nat) (c : Cmd) (st : Nat) (race : Bool) (pay : List Word) (s u : State) :
    answerMask (answerCmd p c st race pay s) u = answerMask s u := by
  unfold answerCmd
  split
  · show answerMask (onlyIf _ _ _) u = _
    cases countsFor st
    · exact noteRefusal_mask ..
    · exact (acceptCtr_mask ..).trans (noteRefusal_mask ..)
  · rfl

/-- A DENIED answer changes no register but the port's count and event of it. -/
theorem answerCmd_denied_reg (p : Nat) (c : Cmd) (pay : List Word) (s : State) (b : Nat) (h1 : b ≠ R.P_CNT p 5) (h2 : b ≠ R.P_EVT p) :
    reg (answerCmd p c stDENIED false pay s) b = reg s b := by
  have hn : reg (noteRefusal p stDENIED s) b = reg s b := by
    show reg (evt (R.P_EVT p) F.P_EVT_DENIED (cnt (R.P_CNT p 5) s)) b = _
    rw [reg_evt, if_neg h2, reg_cnt, if_neg h1]
  unfold answerCmd
  split
  · rw [partMod_reg]
    exact hn
  · rfl

/-- A passing request that its opcode refuses with DENIED, the state as it was taken: its answer waits, and of the registers only the
port's count and event of it change. -/
theorem asks_denied (c : Instr) (op : Nat) (addr : Word) (payload : List Word) (hc : exec c s = ask op h addr payload s)
    (hr : Passes op h addr payload s → runCmd h.port (rowCmd op h addr payload) (wordOf 0xFFFFFFFF) (taken op h addr payload s) =
      ran stDENIED [] (taken op h addr payload s)) :
    Asks stDENIED [] c op h addr payload s (ChangesOnly h [R.P_CNT h.port.val 5, R.P_EVT h.port.val] [] s) := by
  intro hp
  have hm : answerMask (answerCmd h.port.val (rowCmd op h addr payload) stDENIED false [] (taken op h addr payload s)) s = answerMask s s :=
    (answerCmd_mask_any ..).trans (taken_mask s)
  have hn : ask op h addr payload s =
      .next (settle (answerCmd h.port.val (rowCmd op h addr payload) stDENIED false [] (taken op h addr payload s))) := by
    rw [ask_passes hp, hr hp]
    exact settled_none _ ((congrArg State.stalled hm).trans hp.quiet.1) ((congrArg State.waits hm).trans hp.quiet.2)
  refine ⟨_, hc.trans hn, ?_, fun q hq => ?_, fun b hb => ?_, fun x hx => ?_⟩
  · show (partGet (answerCmd _ _ _ _ _ _) _).resp = _
    rw [answerCmd_resp _ _ _ _ _ _ taken_contains, taken_resp]
    rfl
  · show partGet (answerCmd _ _ _ _ _ _) q = _
    rw [answerCmd_other _ _ _ _ _ _ hq, taken_other _ hq]
  · simp only [List.mem_cons, List.not_mem_nil, or_false, not_or] at hb
    obtain ⟨h0, h5, hevt⟩ := hb
    show reg (answerCmd _ _ _ _ _ _) b = _
    rw [answerCmd_denied_reg _ _ _ _ _ h5 hevt, taken_reg, if_neg h0]
  · exact same_mask s ((settle_mask _ _).trans hm) x (by simpa using hx)

theorem taken_inLoadWait {op : Nat} {addr : Word} {payload : List Word} : inLoadWait (taken op h addr payload s) = inLoadWait s := by
  unfold inLoadWait
  rw [taken_fld_far _ _ (.inl (by decide))]

-- ---------------------------------------------------------------- the statement

theorem tplWord_written (hcrit : isCrit h = true) (j : Fin 1024) (i : Fin 32) :
    Wrote (.write h (wordOf (R.TPL_WORD j.val i.val)) [v]) h (R.TPL_WORD j.val i.val) v s [R.TPL_WORD j.val i.val] [] (fun t =>
      reg t (R.TPL_WORD j.val i.val) = v) := by
  obtain ⟨hlo, hhi, h4⟩ := tplWord_range j i
  have hb := blockAt_tpl hlo hhi
  have hk : (blockAt (R.TPL_WORD j.val i.val)).kind = .tpl := by rw [hb]
  have hend : R.TPL_WORD j.val i.val + 4 ≤ (blockAt (R.TPL_WORD j.val i.val)).hi := by
    rw [hb]
    show _ ≤ 0x240000
    omega
  refine wrote_of_putWord _ (plainWord_of (by omega) h4 hend hk (by decide)) (.inr (by omega)) (applyWord_tpl hk) (fun t ht => ?_)
  rw [ht, descOf_tpl hlo hhi h4, hcrit, stored_tplDesc]

theorem fpEvt_written (n : PortNo) :
    Wrote (.write h (wordOf (R.FP_EVT n.val)) [v]) h (R.FP_EVT n.val) v s [R.FP_EVT n.val] [] (fun t =>
      reg t (R.FP_EVT n.val) = reg s (R.FP_EVT n.val) &&& ~~~(v &&& wordOf (descOf (R.FP_EVT n.val)).w1c)) := by
  obtain ⟨hk, -, hhi, hlo, hmax, h4⟩ := blockAt_fpEvt n
  obtain ⟨hrw, hrws⟩ := descOf_fpEvt n
  refine wrote_of_putWord _ (plainWord_of hmax h4 hhi hk (by decide)) (.inr hlo) (applyWord_fpEvt n) (fun t ht => ?_)
  rw [ht, stored_of_unwritable hrw hrws]

theorem glbId_kept : Wrote (.write h (wordOf R.GLB_ID) [v]) h R.GLB_ID v s [] [] (fun _ => True) := by
  have hb : PlainWord R.GLB_ID := plainWord_of (k := .glb) (by decide) (by decide) (by decide) rfl (by decide)
  have hnone : (descOf R.GLB_ID).rw = 0 ∧ (descOf R.GLB_ID).rws = 0 ∧ (descOf R.GLB_ID).w1c = 0 := by decide +kernel
  obtain ⟨hrw, hrws, hw1c⟩ := hnone
  refine wrote_of_regs [] _ hb _ rfl rfl (fun b _ => ?_) (fun _ _ => trivial)
  show reg (putWord (isCrit h) R.GLB_ID v _) b = _
  rw [reg_putWord]
  split
  · next he =>
    rw [he, stored_of_unwritable hrw hrws, hw1c]
    simp only [wordOf, BitVec.and_zero, BitVec.not_zero, BitVec.and_allOnes]
  · rfl

theorem reserved_kept {r : Nat × Nat} (hr : r ∈ reservedRanges) (hlo : r.1 ≤ a) (hhi : a < r.2) (h4 : a % 4 = 0) (hmax : a < 2 ^ 32) :
    Wrote (.write h (wordOf a) [v]) h a v s [] [] (fun t => view t a = 0) := by
  have hb := blockAt_reserved hr hlo hhi
  have hk : (blockAt a).kind = .resv := by rw [hb]
  have haligned : r.2 % 4 = 0 := (by decide : ∀ r ∈ reservedRanges, r.2 % 4 = 0) r hr
  have hend : a + 4 ≤ (blockAt a).hi := by
    rw [hb]
    show a + 4 ≤ r.2
    omega
  exact wrote_of_regs [] _ (plainWord_of hmax h4 hend hk (by decide)) _ (applyWord_resv hk ..) rfl (fun _ _ => rfl)
    (fun t _ => view_resv hk t)

theorem memory_denied {addr : Word} {ws : List Word} (h4 : addr.toNat % 4 = 0) (hne : ws ≠ []) (hm : InMemory addr.toNat)
    (hload : inLoadWait s = false) (hr : Reaches (taken opWRITE h addr ws s) addr.toNat) :
    Asks stDENIED [] (.write h addr ws) opWRITE h addr ws s (ChangesOnly h [R.P_CNT h.port.val 5, R.P_EVT h.port.val] [] s) :=
  asks_denied _ _ _ _ rfl (fun _ => runWrite_memory (c := rowCmd opWRITE h addr ws) _ h4 hne hm (taken_inLoadWait.trans hload) hr)

/-- Settles O32: a plain register's word is stored as its access codes say, a reserved address has no effect to take, and memory's block
refuses the WRITE before any word. -/
theorem writes : Obligations.Writes := by
  intro h v s
  refine ⟨fun j i hcrit => tplWord_written hcrit j i, fpEvt_written, glbId_kept, ?_,
    fun a ws h4 hne hm hload hr => memory_denied h4 hne hm hload hr⟩
  rintro a h4 ⟨r, hr, hlo, hhi⟩
  exact ⟨view_resv (by rw [blockAt_reserved hr hlo hhi]) s, reserved_kept hr hlo hhi h4 a.isLt⟩

end Sys2Proof.Machine

/-! PROOFS. What a READ of several words comes to: BUSY where a unit in L3 reset answers for any of them (R34); else the words that the
registers show, with the errors of queue memory counted (R49, R53, R56, R503). -/

namespace Sys2Proof.Machine

variable {h : Hdr} {a n : Nat} {s : State}

-- ---------------------------------------------------------------- from the opcode's outcome to the answer

/-- A request that its opcode answers in a state that keeps the ports' books and adds nothing that waits: its answer waits, and the rest
is as the opcode left it. -/
theorem asks_of_run {c : Instr} {op : Nat} {addr : Word} {payload : List Word} {st : Nat} {pay : List Word} {P : State → Prop} (s' : State)
    (hc : exec c s = ask op h addr payload s)
    (hr : runCmd h.port (rowCmd op h addr payload) (wordOf 0xFFFFFFFF) (taken op h addr payload s) = ran st pay s')
    (h1 : st ≠ stAUTH_FAIL) (h2 : st ≠ stREPLAY) (h3 : st ≠ stDENIED)
    (hkeep : ∀ x ∈ [Part.stalled, .waits, .part], Same x (taken op h addr payload s) s')
    (hP : ∀ t, (∀ b, reg t b = reg s' b) → (∀ x, x ∉ answerParts → Same x s' t) → P t) :
    Asks st pay c op h addr payload s P := by
  intro hp
  have hstalled : s'.stalled = s.stalled := hkeep .stalled (by decide)
  have hwaits : s'.waits = s.waits := hkeep .waits (by decide)
  have hpart : s'.part = (taken op h addr payload s).part := hkeep .part (by decide)
  have hbooks : ∀ q, partGet s' q = partGet (taken op h addr payload s) q := fun q =>
    congrArg (fun l => tabGet (fun _ => ({} : PartnerS)) l q) hpart
  refine ⟨_, hc.trans (ask_answers hp st pay s' hr h1 h2 h3 (hstalled.trans hp.quiet.1) (hwaits.trans hp.quiet.2)), ?_, fun q hq => ?_,
    hP _ (fun b => ?_) (same_answer _ _ _ _ _ h1 h2 h3)⟩
  · show (partGet (answerCmd _ _ _ _ _ _) _).resp = _
    rw [answerCmd_resp _ _ _ _ _ _ (by rw [hbooks]; exact taken_contains), hbooks, taken_resp]
    rfl
  · show partGet (answerCmd _ _ _ _ _ _) q = _
    rw [answerCmd_other _ _ _ _ _ _ hq, hbooks, taken_other _ hq]
  · exact answerCmd_reg _ _ _ _ _ _ _ h1 h2 h3

theorem same_refl (x : Part) (s : State) : Same x s s := by
  cases x <;> rfl

/-- What an answer leaves, from what its opcode left of the taken state. -/
theorem changesOnly_of_taken {op : Nat} {addr : Word} {payload : List Word} {regs : List Nat} {parts : List Part} {s' t : State}
    (hr : RegsBut regs (taken op h addr payload s) s') (ho : Only (answerParts ++ parts) (taken op h addr payload s) s')
    (ht : ∀ b, reg t b = reg s' b) (hs : ∀ x, x ∉ answerParts → Same x s' t) : ChangesOnly h regs parts s t := by
  refine ⟨fun b hb => ?_, fun x hx => ?_⟩
  · rw [List.mem_cons, not_or] at hb
    rw [ht, hr b hb.2, taken_reg, if_neg hb.1]
  · have hx' : x ∉ answerParts := fun h => hx (List.mem_append_left _ h)
    exact ((same_mask s (taken_mask s) x hx').trans (ho x hx)).trans (hs x hx')

/-- A row is answered with one status only. -/
theorem Asks.status_unique {c : Instr} {op : Nat} {addr : Word} {payload : List Word} {st st' : Nat} {pay pay' : List Word}
    {P Q : State → Prop} (hp : Passes op h addr payload s) (hx : Asks st pay c op h addr payload s P)
    (hy : Asks st' pay' c op h addr payload s Q) : st = st' := by
  obtain ⟨t, ht, hresp, -⟩ := hx hp
  obtain ⟨u, hu, hresp', -⟩ := hy hp
  obtain rfl : t = u := by rw [ht] at hu; injection hu
  have hlast := List.append_cancel_left (hresp.symm.trans hresp')
  simp only [respFor, List.cons.injEq, Resp.mk.injEq] at hlast
  obtain ⟨⟨-, hst, -⟩, -⟩ := hlast
  exact hst

-- ---------------------------------------------------------------- a READ of several words

/-- An access to a unit held in L3 reset is BUSY, whichever of its words the unit answers for (R34). -/
theorem withOwner_held {p : Nat} {c : Cmd} {k : State → Ran} (hr : Reaches s a) (hh : ∃ b ∈ wordsIn a n, unitHeld s b = true) :
    withOwner p c a n k s = ran stBUSY [] s := by
  have hany : (wordsIn a n).any (unitHeld s) = true := List.any_eq_true.2 hh
  unfold withOwner
  by_cases hf : fieldBlk (blockAt a).kind = true
  · simp only [hf, (hr.path hf).1, hany, if_true, Bool.false_eq_true, if_false]
  · simp only [if_neg hf, hany, if_true]

/-- The command asks for n words from a, a request whose form no rule of READ refuses (R535, R536). -/
structure ReadsWords (c : Cmd) (a n : Nat) : Prop where
  addr : c.addr.toNat = a
  payload : c.payload = [wordOf n]
  aligned : a % 4 = 0
  nonempty : 0 < n
  few : n ≤ 1024
  plain : (blockAt a).kind ≠ .win

theorem runRead_words {p : Partner} {c : Cmd} (hc : ReadsWords c a n) :
    runRead p c s = withOwner p.val c a n (fun s =>
      ran (if overruns a n then stOVERRUN else stOK) (readBlock a n s).1
        (onlyIf ((blockAt a).kind == .qmem) (memErrs c.mem) (readBlock a n s).2)) s := by
  obtain ⟨haddr, hpay, h4, hpos, hmax, hwin⟩ := hc
  have hword : (c.word 0).toNat = n := by
    rw [Cmd.word, hpay]
    exact wordOf_toNat n (by omega)
  have hlen : c.payload.length = 1 := by rw [hpay]; rfl
  have hzero : (n == 0) = false := beq_eq_false_iff_ne.2 (Nat.ne_of_gt hpos)
  have hlong : ¬ n > 1024 := Nat.not_lt.2 hmax
  unfold runRead
  simp only [haddr, hword, hlen, h4, hzero, hlong, hwin, bne_self_eq_false, decide_false, Bool.false_and, Bool.or_false,
    Bool.false_eq_true, if_false]

/-- A READ that a held unit answers for in part is BUSY and changes nothing (R34). -/
theorem read_busy {addr : Word} {payload : List Word} (hc : ReadsWords (rowCmd opREAD h addr payload) a n)
    (hr : Reaches (taken opREAD h addr payload s) a) (hh : ∃ b ∈ wordsIn a n, unitHeld (taken opREAD h addr payload s) b = true) :
    Asks stBUSY [] (.read h addr payload) opREAD h addr payload s (ChangesOnly h [] [] s) :=
  asks_of_run _ rfl ((runRead_words hc).trans (withOwner_held hr hh)) (by decide) (by decide) (by decide) (fun x _ => same_refl x _)
    (fun _ => changesOnly_of_taken (fun _ _ => rfl) (fun x _ => same_refl x _))

-- ---------------------------------------------------------------- the words of a READ (R53, R56, R536)

/-- Words whose reads have no effect of their own are read as the registers show them. -/
theorem readAll_plain {l : List Nat} (hp : ∀ b ∈ l, readWord b s = (view s b, s)) : readAll l s = (l.map (view s), s) := by
  induction l with
  | nil => rfl
  | cons b rest ih =>
    obtain ⟨hb, hrest⟩ := List.forall_mem_cons.1 hp
    simp only [readAll, hb, ih hrest, List.map_cons]

theorem readBlock_plain (hp : ∀ b ∈ wordsIn a n, readWord b s = (view s b, s)) :
    readBlock a n s = ((wordsIn a n).map (view s) ++ List.replicate (n - (wordsIn a n).length) 0, s) := by
  simp only [readBlock, readAll_plain hp]

theorem wordBytes_leNat (b₀ b₁ b₂ b₃ : Byte) : wordBytes (wordOf (leNat [b₀, b₁, b₂, b₃])) = [b₀, b₁, b₂, b₃] := by
  have hlt : leNat [b₀, b₁, b₂, b₃] < 2 ^ 32 := by
    simp only [leNat]
    omega
  rw [wordBytes, wordOf_toNat _ hlt]
  simp only [leNat, leBytes, List.cons.injEq, and_true]
  refine ⟨?_, ?_, ?_, ?_⟩ <;>
    · apply BitVec.eq_of_toNat_eq
      simp only [BitVec.toNat_ofNat]
      omega

/-- A word of queue memory is read as its four bytes stand there (R55). -/
theorem view_qmem (hlo : 0x1000000 ≤ a) (hhi : a < 0x1800000) : wordBytes (view s a) = qmemRead s (a - 0x1000000) 4 := by
  have hk : (blockAt a).kind = .qmem := by rw [blockAt_qmem hlo hhi]
  unfold view
  simp only [hk]
  exact wordBytes_leNat ..

-- ---------------------------------------------------------------- the errors that a read of queue memory meets (R49, R503)

theorem same_setReg {x : Part} (hx : x ≠ .regs) (b : Nat) (w : Word) (s : State) : Same x s (setReg b w s) := by
  cases x
  case regs => contradiction
  all_goals rfl

theorem same_onlyIf {x : Part} {f : State → State} (c : Bool) (hf : ∀ u, Same x u (f u)) (s : State) : Same x s (onlyIf c f s) := by
  cases c
  · exact same_refl x s
  · exact hf s

theorem same_hubCount {x : Part} (hx : x ∉ [Part.regs, .cl]) (i k : Nat) (s : State) : Same x s (hubCount i k s) := by
  simp only [List.mem_cons, List.not_mem_nil, or_false, not_or] at hx
  unfold hubCount
  split
  · exact same_setReg hx.1 ..
  · cases x
    case cl => exact absurd rfl hx.2
    all_goals rfl

/-- The errors reach nothing but registers, and the counts that wait to cross while no lane is in service. -/
theorem same_memErrs {x : Part} (hx : x ∉ [Part.regs, .cl]) (e : MemErr) (s : State) : Same x s (memErrs e s) := by
  have hregs : x ≠ .regs := fun h => hx (h ▸ List.mem_cons_self ..)
  have hcount : ∀ (b k c : Nat) (f : Fld) (u : State), Same x u (evt c f (cntAdd b k u)) := fun _ _ _ _ _ =>
    (same_setReg hregs ..).trans (same_setReg hregs ..)
  exact ((same_onlyIf _ (hcount _ _ _ _) _).trans (same_onlyIf _ (hcount _ _ _ _) _)).trans (same_onlyIf _ (same_hubCount hx _ _) _)

theorem reg_onlyIf (c : Bool) (f : State → State) (s : State) (b : Nat) : reg (onlyIf c f s) b = if c then reg (f s) b else reg s b := by
  cases c <;> rfl

theorem reg_hubCount_q (k : Nat) (s : State) {b : Nat} (hb : b ≠ R.GLB_CKCNT 3) : reg (hubCount 3 k s) b = reg s b := by
  unfold hubCount
  split
  · exact (reg_cntAdd ..).trans (if_neg hb)
  · rfl

theorem regsBut_memErrs (e : MemErr) (s : State) : RegsBut memRegs s (memErrs e s) := by
  intro b hb
  simp only [memRegs, List.mem_cons, List.not_mem_nil, or_false, not_or] at hb
  obtain ⟨hevt, hsbe, hdbe, hck⟩ := hb
  simp only [memErrs, reg_onlyIf, reg_hubCount_q _ _ hck, reg_evt, reg_cntAdd, if_neg hevt, if_neg hsbe, if_neg hdbe, ite_self]

/-- A register that counts k, or that is left alone where k is 0, has counted k. -/
theorem toNat_counted (w : Word) (k : Nat) (c : Bool) (hc : c = false → k = 0) :
    (if c = true then BitVec.ofNat 32 (satAdd 32 w.toNat k) else w).toNat = min (w.toNat + k) 0xFFFFFFFF := by
  have := w.isLt
  cases c
  · simp only [hc rfl, Bool.false_eq_true, if_false]
    omega
  · simp only [if_true, BitVec.toNat_ofNat, satAdd]
    omega

theorem counted_memErrs_sbe (e : MemErr) (s : State) : Counted s (memErrs e s) R.TR_CNT_SBE e.sbe := by
  have hr : reg (memErrs e s) R.TR_CNT_SBE =
      if (e.sbe != 0) = true then BitVec.ofNat 32 (satAdd 32 (reg s R.TR_CNT_SBE).toNat e.sbe) else reg s R.TR_CNT_SBE := by
    have hck : R.TR_CNT_SBE ≠ R.GLB_CKCNT 3 := by decide
    have hevt : R.TR_CNT_SBE ≠ R.TR_EVT := by decide
    have hdbe : R.TR_CNT_SBE ≠ R.TR_CNT_DBE := by decide
    simp only [memErrs, reg_onlyIf, reg_hubCount_q _ _ hck, reg_evt, reg_cntAdd, if_neg hevt, if_neg hdbe, ite_self, if_true]
  rw [Counted, hr, toNat_counted _ _ _ bne_eq_false_iff_eq.1]

theorem counted_memErrs_dbe (e : MemErr) (s : State) : Counted s (memErrs e s) R.TR_CNT_DBE e.dbe.length := by
  have hr : reg (memErrs e s) R.TR_CNT_DBE =
      if (!e.dbe.isEmpty) = true then BitVec.ofNat 32 (satAdd 32 (reg s R.TR_CNT_DBE).toNat e.dbe.length) else reg s R.TR_CNT_DBE := by
    have hck : R.TR_CNT_DBE ≠ R.GLB_CKCNT 3 := by decide
    have hevt : R.TR_CNT_DBE ≠ R.TR_EVT := by decide
    have hsbe : R.TR_CNT_DBE ≠ R.TR_CNT_SBE := by decide
    simp only [memErrs, reg_onlyIf, reg_hubCount_q _ _ hck, reg_evt, reg_cntAdd, if_neg hevt, if_neg hsbe, ite_self, if_true]
  have hnone : (!e.dbe.isEmpty) = false → e.dbe.length = 0 := fun he => by
    rw [Bool.not_eq_false', List.isEmpty_iff] at he
    rw [he, List.length_nil]
  rw [Counted, hr, toNat_counted _ _ _ hnone]

-- ---------------------------------------------------------------- a READ whose words no held unit answers for

theorem runRead_free {p : Partner} {c : Cmd} (hc : ReadsWords c a n) (hr : Reaches s a) (hfree : ∀ b ∈ wordsIn a n, unitHeld s b = false)
    (hp : ∀ b ∈ wordsIn a n, readWord b s = (view s b, s)) :
    runRead p c s = ran (if overruns a n then stOVERRUN else stOK)
      ((wordsIn a n).map (view s) ++ List.replicate (n - (wordsIn a n).length) 0)
      (onlyIf ((blockAt a).kind == .qmem) (memErrs c.mem) s) := by
  rw [runRead_words hc, withOwner_of_free hr hfree, readBlock_plain hp]

/-- What `Obligations.Reads` says, under the premise that it lacks: no held unit answers for any of the words (R34). -/
theorem read_answers_of_free {a : Word} (h4 : a.toNat % 4 = 0) (hpos : 0 < n) (hmax : n ≤ 1024) (hwin : (blockAt a.toNat).kind ≠ .win) :
    let T := taken opREAD h a [wordOf n] s
    (∀ b ∈ wordsIn a.toNat n, readWord b T = (view T b, T)) → Reaches T a.toNat → (∀ b ∈ wordsIn a.toNat n, unitHeld T b = false) →
    Asks (if overruns a.toNat n then stOVERRUN else stOK)
      ((wordsIn a.toNat n).map (view T) ++ List.replicate (n - (wordsIn a.toNat n).length) 0)
      (.read h a [wordOf n]) opREAD h a [wordOf n] s (fun t =>
        ((blockAt a.toNat).kind ≠ .qmem → ChangesOnly h [] [] s t) ∧
        ((blockAt a.toNat).kind = .qmem → Counted s t R.TR_CNT_SBE h.mem.sbe ∧ Counted s t R.TR_CNT_DBE h.mem.dbe.length) ∧
        ChangesOnly h memRegs [.cl] s t ∧
        (0x1000000 ≤ a.toNat → a.toNat < 0x1800000 → wordBytes (view T a.toNat) = qmemRead s (a.toNat - 0x1000000) 4)) := by
  intro T hplain hr hfree
  have hc : ReadsWords (rowCmd opREAD h a [wordOf n]) a.toNat n := ⟨rfl, rfl, h4, hpos, hmax, hwin⟩
  have hst : ∀ k, k ≠ stOVERRUN → k ≠ stOK → (if overruns a.toNat n then stOVERRUN else stOK) ≠ k := by
    intro k h1 h2
    split
    · exact h1.symm
    · exact h2.symm
  have hregs : RegsBut memRegs T (onlyIf ((blockAt a.toNat).kind == .qmem) (memErrs h.mem) T) := fun b hb => by
    rw [reg_onlyIf, regsBut_memErrs h.mem T b hb, ite_self]
  have honly : ∀ x, x ∉ [Part.regs, .cl] → Same x T (onlyIf ((blockAt a.toNat).kind == .qmem) (memErrs h.mem) T) := fun x hx =>
    same_onlyIf _ (same_memErrs hx h.mem) T
  refine asks_of_run _ rfl (runRead_free hc hr hfree hplain) (hst _ (by decide) (by decide)) (hst _ (by decide) (by decide))
    (hst _ (by decide) (by decide)) (fun x hx => honly x (by revert x; decide))
    (fun t ht hs => ⟨fun hq => ?_, fun hq => ?_, ?_, fun hlo hhi => view_qmem hlo hhi⟩)
  · rw [beq_eq_false_iff_ne.2 hq] at ht hs
    exact changesOnly_of_taken (fun _ _ => rfl) (fun x _ => same_refl x T) ht hs
  · rw [hq] at ht
    have hcounted : ∀ {b k}, b < 0x10000 ∨ 0x14000 ≤ b → Counted T (memErrs h.mem T) b k → Counted s t b k := by
      intro b k hb hcnt
      have htaken : reg T b = reg s b := taken_reg_far b hb
      rw [Counted, ht, ← htaken]
      exact hcnt
    exact ⟨hcounted (by decide) (counted_memErrs_sbe ..), hcounted (by decide) (counted_memErrs_dbe ..)⟩
  · have hsub : [Part.regs, .cl] ⊆ answerParts ++ [.cl] := by decide
    exact changesOnly_of_taken hregs (fun x hx => honly x (fun hm => hx (hsub hm))) ht hs

-- ---------------------------------------------------------------- the refutation

/-- A device in Run with P2 enabled and lane A in SERVICE, in which a reset episode holds Sieve engine 1 in L3 reset (R610, R618). -/
def engineHeld : State :=
  { State.reset with
    regs := [(R.GLB_BOOTSTAT, putFld 0 F.GLB_BOOTSTAT_STAGE 6), (R.P_CTL 2, putFld 0 F.P_CTL_EN 1), (R.P_PERM 2, putFld 0 F.P_PERM_MASK 1),
      (R.CL_STAT, putFld 0 (laneFld 0) lnSERVICE)]
    boot := { State.reset.boot with
      episodes := [{ srcs := [{ no := 20, level := 3, reach := .engine 1, on := false, detail := 1 }] }]
      inReset := [] } }

/-- The header of a READ by P2, without its CRC. -/
def readHdr : Hdr :=
  { port := 2, flags := 0, tag := 7, resv := 0, ctr := 0, signet := 0, crc := 0, src := 0, msg := 0, nvFails := false }

/-- The header of P2's READ of the five words from SV_ENG_STAT of engine 0 to that of engine 1. -/
def enginesHdr : Hdr :=
  { readHdr with crc := crc32c (reqBody (reqOf opREAD readHdr (wordOf (R.SV_ENG_STAT 0)) [wordOf 5])) }

theorem engineHeld_passes : Passes opREAD enginesHdr (wordOf (R.SV_ENG_STAT 0)) [wordOf 5] engineHeld where
  awake := rfl
  hears := by decide +kernel
  crc := by decide +kernel
  early := by decide +kernel
  core := by decide +kernel
  bound := rfl
  quiet := ⟨rfl, rfl⟩

/-- The state in which the request runs. -/
abbrev engineHeldTaken : State := taken opREAD enginesHdr (wordOf (R.SV_ENG_STAT 0)) [wordOf 5] engineHeld

/-- The first word is engine 0's, which nothing holds. -/
theorem engineHeld_reaches : Reaches engineHeldTaken (R.SV_ENG_STAT 0) where
  held := by decide +kernel
  path := fun _ => by decide +kernel
  awake := fun _ => rfl

/-- The last word is engine 1's. -/
theorem engineHeld_held : ∃ b ∈ wordsIn (R.SV_ENG_STAT 0) 5, unitHeld engineHeldTaken b = true :=
  ⟨R.SV_ENG_STAT 1, by decide +kernel, by decide +kernel⟩

theorem engineHeld_readsWords : ReadsWords (rowCmd opREAD enginesHdr (wordOf (R.SV_ENG_STAT 0)) [wordOf 5]) (R.SV_ENG_STAT 0) 5 where
  addr := by decide
  payload := rfl
  aligned := by decide
  nonempty := by decide
  few := by decide
  plain := by decide

/-- No read of a Sieve register has an effect of its own. -/
theorem readWord_sv (hk : (blockAt a).kind = .sv) : readWord a s = (view s a, s) :=
  readWord_plain (by simp only [readEffect, hk]) (fun hf => absurd (hk.symm.trans hf.1) (by decide))

theorem engineHeld_plain : ∀ b ∈ wordsIn (R.SV_ENG_STAT 0) 5, readWord b engineHeldTaken = (view engineHeldTaken b, engineHeldTaken) := by
  have hk : ∀ b ∈ wordsIn (R.SV_ENG_STAT 0) 5, (blockAt b).kind = .sv := by decide +kernel
  exact fun b hb => readWord_sv (hk b hb)

/-- Refutes O30: the statement asks that the owner of the first word can answer, and a READ may go on to words of another unit. The five
words from SV_ENG_STAT of engine 0 end in engine 1's; with engine 1 held in L3 reset the READ is BUSY (R34) and not OK. -/
theorem not_reads : ¬ Obligations.Reads := by
  unfold Obligations.Reads
  intro holds
  have hok := holds enginesHdr (wordOf (R.SV_ENG_STAT 0)) 5 engineHeld (by decide) (by decide) (by decide) engineHeld_plain engineHeld_reaches
  have hbusy := read_busy engineHeld_readsWords engineHeld_reaches engineHeld_held
  exact absurd (hok.status_unique engineHeld_passes hbusy) (by decide)

end Sys2Proof.Machine

/-! PROOFS. What the actions of TIME come to: SET, STEP and ACCEPT of a refused sample ask for a step and are not answered before its
instant (R322, R331); OFFSET, FREQ and ACCEPT with nothing pending are answered at once (R330, R332, R333). -/

namespace Sys2Proof.Machine

variable {h : Hdr} {s : State}

-- ---------------------------------------------------------------- a request that its opcode leaves unanswered

theorem same_settle {x : Part} (hx : x ≠ .pins) (s : State) : Same x s (settle s) := by
  cases x
  case pins => contradiction
  all_goals rfl

/-- A request that its opcode does not answer, in a state that keeps the ports' books and adds nothing that waits for an owner: it stays
in its port's store without a response, and the rest is as the opcode left it. -/
theorem waits_of_run {c : Instr} {op : Nat} {addr : Word} {payload : List Word} {P : State → Prop} (s' : State)
    (hc : exec c s = ask op h addr payload s)
    (hr : runCmd h.port (rowCmd op h addr payload) (wordOf 0xFFFFFFFF) (taken op h addr payload s) = (none, s'))
    (hkeep : ∀ x ∈ [Part.stalled, .waits, .part], Same x (taken op h addr payload s) s')
    (hP : ∀ t, (∀ b, reg t b = reg s' b) → (∀ x, x ∉ answerParts → Same x s' t) → P t) :
    Waits c op h addr payload s P := by
  intro hp
  have hstalled : s'.stalled = s.stalled := hkeep .stalled (by decide)
  have hwaits : s'.waits = s.waits := hkeep .waits (by decide)
  have hpart : s'.part = (taken op h addr payload s).part := hkeep .part (by decide)
  have hbooks : ∀ q, partGet (settle s') q = partGet (taken op h addr payload s) q := fun q =>
    congrArg (fun l => tabGet (fun _ => ({} : PartnerS)) l q) hpart
  have hn : ask op h addr payload s = .next (settle s') := by
    rw [ask_passes hp, hr]
    exact settled_none s' (hstalled.trans hp.quiet.1) (hwaits.trans hp.quiet.2)
  refine ⟨_, hc.trans hn, ?_, ?_, fun q hq => ?_, hP _ (fun _ => rfl) (fun x hx => same_settle ?_ s')⟩
  · rw [hbooks, taken_resp]
  · rw [hbooks, taken_outst]
  · rw [hbooks, taken_other _ hq]
  · rintro rfl
    exact hx (by decide)

-- ---------------------------------------------------------------- a step that is asked for (R322)

theorem same_askStep {x : Part} (hx : x ≠ .tm) (amt : StepAmt) (cmd : Option (Partner × Cmd)) (s : State) : Same x s (askStep amt cmd s) := by
  cases x
  case tm => contradiction
  all_goals rfl

theorem regsBut_askStep (amt : StepAmt) (cmd : Option (Partner × Cmd)) (s : State) : RegsBut [] s (askStep amt cmd s) := fun _ _ => rfl

theorem only_askStep (amt : StepAmt) (cmd : Option (Partner × Cmd)) (s : State) : Only (answerParts ++ [.tm]) s (askStep amt cmd s) :=
  fun _ hx => same_askStep (by rintro rfl; exact hx (by decide)) ..

/-- Where no other step waits, the one asked for is the only one. -/
theorem askStep_tm (hfree : s.tm.step = []) (amt : StepAmt) (cmd : Option (Partner × Cmd)) :
    (askStep amt cmd s).tm = { s.tm with step := [{ amt := amt, at_ := s.tm.master + 32000 * nsU, cmd := cmd }] } := by
  rw [askStep, hfree, List.nil_append]

-- ---------------------------------------------------------------- what each action comes to (R329 to R333)

theorem not_step_waits (hfree : s.tm.step = []) : ¬ (!s.tm.step.isEmpty) = true := by
  rw [hfree]
  decide

theorem timeAction_set {lo hi ns fr : Word} {cmd : Option (Partner × Cmd)} (hfree : s.tm.step = []) (hns : ns.toNat < 1000000000)
    (hfr : fr.toNat < 65536) : timeAction 1 [lo, hi, ns, fr] cmd s = (stOK, [], true,
      askStep (.set ((((lo.toNat + hi.toNat * 2 ^ 32) * 1000000000 + ns.toNat) * 65536 + fr.toNat) * 2 ^ 32)) cmd s) := by
  have hsec : 1000000000 = secNs := rfl
  have hfrac : 65536 = 2 ^ 16 := by decide
  have hin : ¬ (decide (ns.toNat ≥ secNs) || decide (fr.toNat ≥ 2 ^ 16)) = true := by
    rw [Bool.or_eq_true, decide_eq_true_iff, decide_eq_true_iff]
    omega
  rw [hsec, hfrac]
  exact (if_neg hin).trans (if_neg (not_step_waits hfree))

theorem timeAction_step {lo hi : Word} {cmd : Option (Partner × Cmd)} (hfree : s.tm.step = [])
    (hin : timeOut ((masterNs s : Int) + 32000 + twoWords lo hi) = false) :
    timeAction 2 [lo, hi] cmd s = (stOK, [], true, askStep (.add (twoWords lo hi * nsU)) cmd s) := by
  -- the bound of R330 stands for any predicate from here on, or the kernel would evaluate it at 2^64 seconds
  obtain ⟨outside, hbound⟩ : ∃ f, timeOut = f := ⟨_, rfl⟩
  unfold timeAction
  rw [hbound] at hin ⊢
  have hn : ¬ outside ((masterNs s : Int) + 32000 + twoWords lo hi) = true := by rw [hin]; decide
  exact (if_neg hn).trans (if_neg (not_step_waits hfree))

theorem timeAction_offset {lo hi : Word} {cmd : Option (Partner × Cmd)} :
    timeAction 3 [lo, hi] cmd s =
      if tbSrc s = 3 then (stOK, [], false, servoSample (twoWords lo hi) s) else (stCONFLICT, [], false, s) := by
  show (if (tbSrc s != 3) = true then _ else _) = _
  by_cases hsrc : tbSrc s = 3
  · rw [if_pos hsrc, if_neg (by rw [hsrc]; decide)]
  · rw [if_neg hsrc, if_pos (bne_iff_ne.2 hsrc)]

theorem timeAction_freq {v : Word} {cmd : Option (Partner × Cmd)} (hhi : v.toInt ≤ 500000000) (hlo : -500000000 ≤ v.toInt) :
    timeAction 4 [v] cmd s = if tbEn s = true then (stCONFLICT, [], false, s) else (stOK, [], false, setReg R.TB_FREQ v s) := by
  have hin : ¬ (decide (v.toInt > freqLim) || decide (v.toInt < -freqLim)) = true := by
    have hlim : freqLim = 500000000 := rfl
    rw [Bool.or_eq_true, decide_eq_true_iff, decide_eq_true_iff]
    omega
  exact if_neg hin

theorem timeAction_accept {cmd : Option (Partner × Cmd)} (hfree : s.tm.step = []) :
    timeAction 5 [] cmd s =
      if flag s R.TB_STAT F.TB_STAT_PEND = true then (stOK, [], true, askStep (.add (s.tm.refused * nsU)) cmd s)
      else (stOK, [0, 0, 0, 0], false, s) := by
  refine (if_neg (not_step_waits hfree)).trans ?_
  cases flag s R.TB_STAT F.TB_STAT_PEND <;> rfl

-- ---------------------------------------------------------------- the request

/-- The command of a TIME request with this action (R329). -/
abbrev timeCmd (h : Hdr) (act : Nat) (ws : List Word) : Cmd := rowCmd opTIME h 0 (actPayload 0 act ws)

/-- The state in which it runs. -/
abbrev timeTaken (h : Hdr) (act : Nat) (ws : List Word) (s : State) : State := taken opTIME h 0 (actPayload 0 act ws) s

theorem timeTaken_tbSrc (act : Nat) (ws : List Word) : tbSrc (timeTaken h act ws s) = tbSrc s :=
  taken_fld_far _ _ (.inr (by decide))

theorem timeTaken_tbEn (act : Nat) (ws : List Word) : tbEn (timeTaken h act ws s) = tbEn s :=
  taken_flag_far _ _ (.inr (by decide))

theorem timeTaken_pend (act : Nat) (ws : List Word) :
    flag (timeTaken h act ws s) R.TB_STAT F.TB_STAT_PEND = flag s R.TB_STAT F.TB_STAT_PEND :=
  taken_flag_far _ _ (.inr (by decide))

/-- Word 0 holds the action in bits [3:0] and zeros above it (R329). -/
theorem timeCmd_act {act : Nat} (ws : List Word) (hact : act < 16) : (timeCmd h act ws).act = act ∧ (timeCmd h act ws).hi = 0 := by
  have hword : ((timeCmd h act ws).word 0).toNat = act := by
    show (wordOf (0 * 16 + act)).toNat = act
    rw [Nat.zero_mul, Nat.zero_add, wordOf_toNat _ (by omega)]
  rw [Cmd.act, Cmd.hi, hword]
  simp only [bitsOf]
  omega

/-- The opcode answers, or does not, as its action says. -/
theorem runCmd_time {p : Partner} {act st : Nat} {ws pay : List Word} {waits : Bool} {took : Word} {s' : State} (hact : act < 16)
    (hx : timeAction act ws (some (p, timeCmd h act ws)) s = (st, pay, waits, s')) :
    runCmd p (timeCmd h act ws) took s = if waits = true then (none, s') else ran st pay s' := by
  obtain ⟨hcode, hzero⟩ := timeCmd_act (h := h) ws hact
  have hrest : (timeCmd h act ws).payload.drop 1 = ws := rfl
  have hnonempty : (timeCmd h act ws).payload.isEmpty = false := rfl
  have haddr : (timeCmd h act ws).addr = 0 := rfl
  show runTime p (timeCmd h act ws) s = _
  simp only [runTime, haddr, hnonempty, hzero, hcode, hrest, hx, bne_self_eq_false, Bool.or_false, Bool.false_eq_true, if_false]

/-- An action that asks for a step leaves its command waiting for the instant 32 µs from now, and moves nothing else (R322, R331). -/
theorem time_waits {c : Instr} {act : Nat} {ws : List Word} {amt : StepAmt} (hc : exec c s = ask opTIME h 0 (actPayload 0 act ws) s)
    (hact : act < 16) (hfree : s.tm.step = [])
    (hx : timeAction act ws (some (h.port, timeCmd h act ws)) (timeTaken h act ws s) =
      (stOK, [], true, askStep amt (some (h.port, timeCmd h act ws)) (timeTaken h act ws s))) :
    Waits c opTIME h 0 (actPayload 0 act ws) s (fun t =>
      t.tm = { s.tm with step := [{ amt := amt, at_ := s.tm.master + 32000 * nsU, cmd := some (h.port, timeCmd h act ws) }] } ∧
      ChangesOnly h [] [.tm] s t) := by
  refine waits_of_run _ hc (runCmd_time hact hx) (fun x hm => same_askStep (by rintro rfl; revert hm; decide) ..) (fun t ht hs => ⟨?_, ?_⟩)
  · have htm : t.tm = (askStep amt (some (h.port, timeCmd h act ws)) (timeTaken h act ws s)).tm := hs .tm (by decide)
    exact htm.trans (askStep_tm (s := timeTaken h act ws s) hfree ..)
  · exact changesOnly_of_taken (regsBut_askStep _ _ _) (only_askStep _ _ _) ht hs

/-- An action that is answered at once leaves what it left of the registers. -/
theorem time_answers {c : Instr} {act : Nat} {ws : List Word} {st : Nat} {pay : List Word} {regs : List Nat} {s' : State}
    {P : State → Prop} (hc : exec c s = ask opTIME h 0 (actPayload 0 act ws) s) (hact : act < 16)
    (hx : timeAction act ws (some (h.port, timeCmd h act ws)) (timeTaken h act ws s) = (st, pay, false, s'))
    (hst : st = stOK ∨ st = stCONFLICT) (hsame : ∀ x, x ≠ .regs → Same x (timeTaken h act ws s) s')
    (hregs : RegsBut regs (timeTaken h act ws s) s') (hP : ∀ t, (∀ b, reg t b = reg s' b) → ChangesOnly h regs [] s t → P t) :
    Asks st pay c opTIME h 0 (actPayload 0 act ws) s P := by
  have hne : st ≠ stAUTH_FAIL ∧ st ≠ stREPLAY ∧ st ≠ stDENIED := by rcases hst with rfl | rfl <;> decide
  obtain ⟨hauth, hreplay, hdenied⟩ := hne
  exact asks_of_run s' hc (runCmd_time hact hx) hauth hreplay hdenied (fun x hm => hsame x (by rintro rfl; revert hm; decide))
    (fun t ht hs => hP t ht (changesOnly_of_taken hregs (fun x hm => hsame x (by rintro rfl; exact hm (by decide))) ht hs))

/-- An action that changes nothing. -/
theorem time_answers_same {c : Instr} {act : Nat} {ws : List Word} {st : Nat} {pay : List Word}
    (hc : exec c s = ask opTIME h 0 (actPayload 0 act ws) s) (hact : act < 16)
    (hx : timeAction act ws (some (h.port, timeCmd h act ws)) (timeTaken h act ws s) = (st, pay, false, timeTaken h act ws s))
    (hst : st = stOK ∨ st = stCONFLICT) : Asks st pay c opTIME h 0 (actPayload 0 act ws) s (ChangesOnly h [] [] s) :=
  time_answers hc hact hx hst (fun x _ => same_refl x _) (fun _ _ => rfl) (fun _ _ hchanges => hchanges)

/-- An action that gives one register a value. -/
theorem time_answers_setReg {c : Instr} {act a : Nat} {ws : List Word} {v : Word}
    (hc : exec c s = ask opTIME h 0 (actPayload 0 act ws) s) (hact : act < 16)
    (hx : timeAction act ws (some (h.port, timeCmd h act ws)) (timeTaken h act ws s) = (stOK, [], false, setReg a v (timeTaken h act ws s))) :
    Asks stOK [] c opTIME h 0 (actPayload 0 act ws) s (fun t => reg t a = v ∧ ChangesOnly h [a] [] s t) :=
  time_answers hc hact hx (.inl rfl) (fun x hne => same_setReg hne ..)
    (fun b hb => by rw [reg_setReg, if_neg (by simpa using hb)])
    (fun t ht hchanges => ⟨by rw [ht, reg_setReg, if_pos rfl], hchanges⟩)

-- ---------------------------------------------------------------- the statement

theorem timeOffset_of_host {lo hi : Word} (hsrc : tbSrc s = 3) (hoff : tbEn s = false) :
    Asks stOK [] (.timeOffset h 0 0 [lo, hi]) opTIME h 0 (actPayload 0 3 [lo, hi]) s (fun t =>
      reg t R.TB_OFFS = BitVec.ofInt 32 (max (-2147483647) (min 2147483647 (twoWords lo hi))) ∧ ChangesOnly h [R.TB_OFFS] [] s t) := by
  refine time_answers_setReg rfl (by decide) ?_
  rw [timeAction_offset, timeTaken_tbSrc, if_pos hsrc, servoSample, timeTaken_tbEn, hoff]
  rfl

theorem timeOffset_conflict {lo hi : Word} (hsrc : tbSrc s ≠ 3) :
    Asks stCONFLICT [] (.timeOffset h 0 0 [lo, hi]) opTIME h 0 (actPayload 0 3 [lo, hi]) s (ChangesOnly h [] [] s) :=
  time_answers_same rfl (by decide) (by rw [timeAction_offset, timeTaken_tbSrc, if_neg hsrc]) (.inr rfl)

theorem timeFreq_sets {v : Word} (hhi : v.toInt ≤ 500000000) (hlo : -500000000 ≤ v.toInt) (hoff : tbEn s = false) :
    Asks stOK [] (.timeFreq h 0 0 [v]) opTIME h 0 (actPayload 0 4 [v]) s (fun t => reg t R.TB_FREQ = v ∧ ChangesOnly h [R.TB_FREQ] [] s t) :=
  time_answers_setReg rfl (by decide) (by rw [timeAction_freq hhi hlo, timeTaken_tbEn, if_neg (by rw [hoff]; decide)])

theorem timeFreq_conflict {v : Word} (hhi : v.toInt ≤ 500000000) (hlo : -500000000 ≤ v.toInt) (hon : tbEn s = true) :
    Asks stCONFLICT [] (.timeFreq h 0 0 [v]) opTIME h 0 (actPayload 0 4 [v]) s (ChangesOnly h [] [] s) :=
  time_answers_same rfl (by decide) (by rw [timeAction_freq hhi hlo, timeTaken_tbEn, if_pos hon]) (.inr rfl)

/-- Settles O41: what each action comes to is one equation of `timeAction`; one that asks for a step waits (`time_waits`), and the others
are answered in the state they leave (`time_answers`). -/
theorem timeCommands : Obligations.TimeCommands := by
  intro h s
  refine ⟨fun hfree => ⟨?set, ?step, ?accept, ?nothing⟩, fun lo hi => ⟨timeOffset_of_host, timeOffset_conflict⟩,
    fun v hhi hlo => ⟨timeFreq_sets hhi hlo, timeFreq_conflict hhi hlo⟩⟩
  case set =>
    intro lo hi ns fr hns hfr
    exact time_waits rfl (by decide) hfree (timeAction_set hfree hns hfr)
  case step =>
    intro lo hi hin
    exact time_waits rfl (by decide) hfree (timeAction_step hfree hin)
  case accept =>
    intro hpend
    exact time_waits rfl (by decide) hfree (by rw [timeAction_accept (s := timeTaken h 5 [] s) hfree, timeTaken_pend, if_pos hpend]; rfl)
  case nothing =>
    intro hpend
    have hclear : ¬ flag s R.TB_STAT F.TB_STAT_PEND = true := by rw [hpend]; decide
    exact time_answers_same rfl (by decide)
      (by rw [timeAction_accept (s := timeTaken h 5 [] s) hfree, timeTaken_pend, if_neg hclear]) (.inl rfl)

end Sys2Proof.Machine

/-! PROOFS. What SUBSCRIBE does to a queue's subscriptions and streams (R469, R544), and that POP and PEEK of a queue whose stream to the
port is on are refused (R546). -/

namespace Sys2Proof.Machine

variable {h : Hdr} {q : QNo} {s t u : State}

-- ---------------------------------------------------------------- the parts that an update may change

theorem Only.mono {l l' : List Part} (hsub : l ⊆ l') (ho : Only l s t) : Only l' s t := fun x hx => ho x (fun hm => hx (hsub hm))

theorem Only.trans {l : List Part} (hst : Only l s t) (htu : Only l t u) : Only l s u := fun x hx => (hst x hx).trans (htu x hx)

theorem only_refl (l : List Part) (s : State) : Only l s s := fun x _ => same_refl x s

theorem only_setReg {l : List Part} {a : Nat} {v : Word} (hl : .regs ∈ l) : Only l s (setReg a v s) := fun _ hx =>
  same_setReg (by rintro rfl; exact hx hl) ..

theorem only_queueMod {l : List Part} {q : Nat} {f : QueueS → QueueS} (hl : .tr ∈ l) : Only l s (queueMod q f s) := by
  intro x hx
  cases x
  case tr => contradiction
  all_goals rfl

theorem only_partMod {l : List Part} {p : Nat} {f : PartnerS → PartnerS} (hl : .part ∈ l) : Only l s (partMod p f s) := by
  intro x hx
  cases x
  case part => contradiction
  all_goals rfl

-- ---------------------------------------------------------------- an opcode that changes its port's books

/-- Of the ports' books at most port p's are changed, and not its store or its waiting responses. -/
structure KeepsStore (p : Nat) (s t : State) : Prop where
  outst : (partGet t p).outst = (partGet s p).outst
  resp : (partGet t p).resp = (partGet s p).resp
  others : OtherPartners p s t

theorem KeepsStore.trans {p : Nat} (hst : KeepsStore p s t) (htu : KeepsStore p t u) : KeepsStore p s u where
  outst := htu.outst.trans hst.outst
  resp := htu.resp.trans hst.resp
  others := fun r hr => (htu.others r hr).trans (hst.others r hr)

theorem partGet_of_same (hp : Same .part s t) (r : Nat) : partGet t r = partGet s r :=
  congrArg (fun l => tabGet (fun _ => ({} : PartnerS)) l r) hp

theorem keepsStore_of_same {p : Nat} (hp : Same .part s t) : KeepsStore p s t where
  outst := by rw [partGet_of_same hp]
  resp := by rw [partGet_of_same hp]
  others := fun r _ => partGet_of_same hp r

theorem keepsStore_partMod {p : Nat} {f : PartnerS → PartnerS} (ho : ∀ x, (f x).outst = x.outst) (hr : ∀ x, (f x).resp = x.resp) :
    KeepsStore p s (partMod p f s) where
  outst := by rw [partGet_partMod, if_pos rfl, ho]
  resp := by rw [partGet_partMod, if_pos rfl, hr]
  others := fun r hne => by rw [partGet_partMod, if_neg hne]

theorem acceptCtr_streams (p : Nat) (c : Option Nat) (s : State) (r : Nat) :
    (partGet (acceptCtr p c s) r).streams = (partGet s r).streams := by
  cases c with
  | none => rfl
  | some x =>
    show (partGet (partMod p _ (raiseBound p x s)) r).streams = _
    rw [partGet_partMod]
    split
    · next he =>
      subst he
      show (partGet (raiseBound r x s) r).streams = _
      rw [raiseBound_part]
    · rw [raiseBound_part]

/-- An answer switches no stream. -/
theorem answerCmd_streams (p : Nat) (c : Cmd) (st : Nat) (race : Bool) (pay : List Word) (s : State) (r : Nat) :
    (partGet (answerCmd p c st race pay s) r).streams = (partGet s r).streams := by
  have hnote : ∀ b : Bool, (partGet (onlyIf b (acceptCtr p c.ctr) (noteRefusal p st s)) r).streams = (partGet s r).streams := by
    intro b
    cases b
    · rw [onlyIf_false, noteRefusal_part]
    · rw [onlyIf_true, acceptCtr_streams, noteRefusal_part]
  unfold answerCmd
  split
  · rw [partGet_partMod]
    split
    · next he =>
      subst he
      exact hnote _
    · exact hnote _
  · rfl

theorem taken_streams {op : Nat} {addr : Word} {payload : List Word} (r : Nat) :
    (partGet (taken op h addr payload s) r).streams = (partGet s r).streams := by
  rw [taken, bookIn, partGet_partMod]
  split
  · next he =>
    subst he
    rfl
  · rfl

/-- A request that its opcode answers in a state that has changed at most some registers, some parts, and of the books what the port
keeps beside its store: its answer waits, and the rest is as the opcode left it. -/
theorem asks_of_changes {c : Instr} {op : Nat} {addr : Word} {payload : List Word} {st : Nat} {pay : List Word} {regs : List Nat}
    {parts : List Part} {P : State → Prop} (s' : State) (hc : exec c s = ask op h addr payload s)
    (hr : runCmd h.port (rowCmd op h addr payload) (wordOf 0xFFFFFFFF) (taken op h addr payload s) = ran st pay s')
    (hst : st = stOK ∨ st = stCONFLICT) (hbooks : KeepsStore h.port.val (taken op h addr payload s) s')
    (hregs : RegsBut regs (taken op h addr payload s) s') (honly : Only (answerParts ++ parts) (taken op h addr payload s) s')
    (hcalm : Part.stalled ∉ parts ∧ Part.waits ∉ parts)
    (hP : ∀ t, (∀ b, reg t b = reg s' b) → (∀ x, x ∉ answerParts → Same x s' t) →
      (partGet t h.port.val).streams = (partGet s' h.port.val).streams → ChangesOnly h regs parts s t → P t) :
    Asks st pay c op h addr payload s P := by
  intro hp
  obtain ⟨hauth, hreplay, hdenied⟩ : st ≠ stAUTH_FAIL ∧ st ≠ stREPLAY ∧ st ≠ stDENIED := by
    rcases hst with rfl | rfl <;> decide
  have hoff : ∀ x, x ∉ answerParts → x ∉ parts → x ∉ answerParts ++ parts := fun _ ha hp hx => (List.mem_append.1 hx).elim ha hp
  have hstalled : s'.stalled = s.stalled := honly .stalled (hoff _ (by decide) hcalm.1)
  have hwaits : s'.waits = s.waits := honly .waits (hoff _ (by decide) hcalm.2)
  have hreg : ∀ b, reg (settle (answerCmd h.port.val (rowCmd op h addr payload) st false pay s')) b = reg s' b := fun b =>
    answerCmd_reg _ _ _ _ _ _ _ hauth hreplay hdenied
  have hsame := same_answer s' h.port.val (rowCmd op h addr payload) st pay hauth hreplay hdenied
  refine ⟨_, hc.trans (ask_answers hp st pay s' hr hauth hreplay hdenied (hstalled.trans hp.quiet.1) (hwaits.trans hp.quiet.2)), ?_,
    fun r hne => ?_, hP _ hreg hsame (answerCmd_streams ..) (changesOnly_of_taken hregs honly hreg hsame)⟩
  · show (partGet (answerCmd _ _ _ _ _ _) _).resp = _
    rw [answerCmd_resp _ _ _ _ _ _ (by rw [hbooks.outst]; exact taken_contains), hbooks.resp, taken_resp]
    rfl
  · show partGet (answerCmd _ _ _ _ _ _) r = _
    rw [answerCmd_other _ _ _ _ _ _ hne, hbooks.others r hne, taken_other _ hne]

-- ---------------------------------------------------------------- the subscribers in Qq_CFG (R466)

theorem qSub_of_putFld {q m : Nat} {v : Word} (hq : reg s (R.Q_CFG q) = putFld v F.Q_CFG_SUBS m) (r : Nat) :
    qSub s q r = bitOf (m % 16) r := by
  rw [qSub, fld, hq, getFld_putFld _ _ _ (by decide)]
  rfl

theorem qSub_of_reg {q : Nat} (hq : reg t (R.Q_CFG q) = reg s (R.Q_CFG q)) (r : Nat) : qSub t q r = qSub s q r := by
  rw [qSub, qSub, fld, fld, hq]

theorem bitOf_setBit : ∀ (m : Fin 16) (p r : Partner),
    bitOf ((m.val ||| 2 ^ p.val) % 16) r.val = (r == p || bitOf m.val r.val) := by decide

theorem bitOf_clearBit : ∀ (m : Fin 16) (p r : Partner),
    bitOf ((if bitOf m.val p.val then m.val - 2 ^ p.val else m.val) % 16) r.val = (r != p && bitOf m.val r.val) := by decide

/-- The subscribers of queue q as a number of four bits. -/
def subsOf (s : State) (q : Nat) : Fin 16 := ⟨fld s (R.Q_CFG q) F.Q_CFG_SUBS, getFld_lt _ F.Q_CFG_SUBS⟩

-- ---------------------------------------------------------------- the fill of a queue is judged (R470, R471)

/-- What judging queue q's fill may change while the host side runs: the queue's status and event registers, and HWAKE_OUT. -/
structure FillJudged (q : Nat) (s t : State) : Prop where
  regs : RegsBut (fillRegs q) s t
  rest : Only [.regs, .pow] s t
  host : t.pow.host = s.pow.host

theorem FillJudged.refl (q : Nat) (s : State) : FillJudged q s s := ⟨fun _ _ => rfl, only_refl _ s, rfl⟩

theorem FillJudged.trans {q : Nat} (hst : FillJudged q s t) (htu : FillJudged q t u) : FillJudged q s u where
  regs := fun a ha => (htu.regs a ha).trans (hst.regs a ha)
  rest := hst.rest.trans htu.rest
  host := htu.host.trans hst.host

theorem fillJudged_onlyIf {q : Nat} {f : State → State} (c : Bool) (hf : FillJudged q s (f s)) : FillJudged q s (onlyIf c f s) := by
  cases c
  · exact .refl q s
  · exact hf

theorem fillJudged_setFld {q a : Nat} (ha : a ∈ fillRegs q) (f : Fld) (x : Nat) (s : State) : FillJudged q s (setFld a f x s) where
  regs := fun b hb => by rw [reg_setFld, if_neg (by rintro rfl; exact hb ha)]
  rest := only_setReg (by decide)
  host := rfl

theorem fillJudged_driveHwake (q : Nat) (s : State) : FillJudged q s (driveHwake s) := by
  have hpow : ∀ w : PowS, w.host = s.pow.host → FillJudged q s { s with pow := w } := fun w hw => by
    refine ⟨fun _ _ => rfl, fun x hx => ?_, hw⟩
    cases x
    case pow => exact absurd (by decide) hx
    all_goals rfl
  unfold driveHwake
  split
  · exact .refl q s
  · split <;> exact hpow _ rfl

/-- A wake request that finds the host side in Run (R690). -/
theorem fillJudged_hostRequest {q : Nat} (hrun : s.pow.host.st = .run) (cls src : Nat) : FillJudged q s (hostRequest cls src s) := by
  rw [hostRequest, hrun]
  exact fillJudged_onlyIf _ (fillJudged_driveHwake q s)

/-- A watermark that is passed: its event, and the host wake that it asks for (R470). -/
theorem fillJudged_watermark {q : Nat} (hrun : s.pow.host.st = .run) (passed : Bool) (wake event : Fld) :
    FillJudged q s (onlyIf passed (fun s => onlyIf (flag s (R.Q_CFG q) wake) (hostRequest 1 4) (evt (R.Q_EVT q) event s)) s) :=
  have hevt : FillJudged q s (evt (R.Q_EVT q) event s) := fillJudged_setFld (by simp [fillRegs]) ..
  fillJudged_onlyIf _ (hevt.trans (fillJudged_onlyIf _ (fillJudged_hostRequest (by rw [hevt.host]; exact hrun) ..)))

theorem fillJudged_judgeFill (q before : Nat) (hrun : s.pow.host.st = .run) : FillJudged q s (judgeFill q before s) := by
  have hheld : ∀ (b : Bool) (v : State), FillJudged q v (setFlag (R.Q_STAT q) F.Q_STAT_HELD b v) := fun _ _ =>
    fillJudged_setFld (by simp [fillRegs]) ..
  unfold judgeFill
  extract_lets after hwm lwm high low
  have hhigh : FillJudged q s high := fillJudged_watermark hrun ..
  have hlow : FillJudged q high low := fillJudged_watermark (by rw [hhigh.host]; exact hrun) ..
  refine (hhigh.trans hlow).trans ?_
  split
  · exact .refl q _
  · split
    · exact fillJudged_onlyIf _ (hheld false _)
    · exact fillJudged_onlyIf _ ((hheld true _).trans (fillJudged_setFld (by simp [fillRegs]) ..))

/-- What freeing queue q's acknowledged records may change while the host side runs: what judging the fill may, and the queue's books. -/
structure FillFreed (q : Nat) (s t : State) : Prop where
  regs : RegsBut (fillRegs q) s t
  rest : Only [.regs, .pow, .tr] s t
  queues : OtherQueues q s t

theorem otherQueues_queueMod (q : Nat) (f : QueueS → QueueS) (s : State) : OtherQueues q s (queueMod q f s) := fun r hne => by
  rw [queueGet_queueMod, if_neg hne]

theorem queueGet_of_same (htr : Same .tr s t) (r : Nat) : queueGet t r = queueGet s r :=
  congrArg (fun x : TrellisS => tabGet (fun _ => ({} : QueueS)) x.queues r) htr

/-- The oldest records that every subscriber has acknowledged are freed, and the fill is judged (R466). -/
theorem fillFreed_freeAcked (q : Nat) (hrun : s.pow.host.st = .run) : FillFreed q s (freeAcked q s) := by
  unfold freeAcked
  split
  · exact ⟨fun _ _ => rfl, only_refl _ s, fun _ _ => rfl⟩
  · extract_lets before ents n
    have hjudged := fillJudged_judgeFill (s := queueMod q (fun u => { u with ents := ents.drop n }) s) q before hrun
    exact ⟨hjudged.regs, (only_queueMod (by decide)).trans (hjudged.rest.mono (by decide)), fun r hne =>
      (queueGet_of_same (hjudged.rest .tr (by decide)) r).trans (otherQueues_queueMod q _ s r hne)⟩

-- ---------------------------------------------------------------- SUBSCRIBE as a command (R544)

/-- The command of a SUBSCRIBE request with this action. -/
abbrev subCmd (h : Hdr) (q : QNo) (act : Nat) : Cmd := rowCmd opSUBSCRIBE h (wordOf q.val) (actPayload 0 act [])

/-- The state in which it runs. -/
abbrev subTaken (h : Hdr) (q : QNo) (act : Nat) (s : State) : State := taken opSUBSCRIBE h (wordOf q.val) (actPayload 0 act []) s

theorem wordOf_qNo (q : QNo) : (wordOf q.val).toNat = q.val := wordOf_toNat _ (by omega)

/-- Its word 0 is that of any command with this action. -/
theorem subCmd_act {act : Nat} (hact : act < 16) : (subCmd h q act).act = act ∧ (subCmd h q act).hi = 0 := timeCmd_act (h := h) [] hact

theorem trellisAddr_inBlock : trellisAddr < (blockAt trellisAddr).hi := by decide +kernel

/-- The front record of queue q goes to port p from its first byte again (R555). -/
def restartFront (q p : Nat) (s : State) : State := partMod p (fun u => { u with part := tabSet (fun _ => 0) u.part q 0 }) s

/-- The streams of port p are switched. -/
def setStreams (p : Nat) (f : List Nat → List Nat) (s : State) : State := partMod p (fun u => { u with streams := f u.streams }) s

theorem outside_eq_false {v lo hi : Nat} (hlo : lo ≤ v) (hhi : v ≤ hi) : outside v lo hi = false := by
  rw [outside, Bool.or_eq_false_iff, decide_eq_false_iff_not, decide_eq_false_iff_not]
  omega

/-- The form of a request with an action of R544 is one that SUBSCRIBE takes. -/
theorem subCmd_form {act : Nat} (hlo : 1 ≤ act) (hhi : act ≤ 5) :
    ((subCmd h q act).payload.length != 1 || (subCmd h q act).hi != 0 || outside act 1 5 || decide (q.val > 127)) = false := by
  have hlen : (subCmd h q act).payload.length = 1 := rfl
  have hq : ¬ q.val > 127 := by omega
  rw [hlen, (subCmd_act (by omega)).2, outside_eq_false hlo hhi, decide_eq_false hq]
  rfl

/-- ADD and REMOVE take effect where no Graft stages them and no rule refuses them. -/
theorem runSubscribe_config {p act : Nat} (hact : act = 1 ∨ act = 2) (hgraft : s.graft = none) (hr : Reaches s trellisAddr)
    (hok : subRefused s q.val act p = none) : runSubscribe p (subCmd h q act) s = ran stOK [] (subAct q.val act p s) := by
  have haddr : (subCmd h q act).addr.toNat = q.val := wordOf_qNo q
  have hcode : (subCmd h q act).act = act := (subCmd_act (by omega)).1
  have hconfig : (act == 1 || act == 2) = true := by simpa using hact
  rw [runSubscribe]
  simp only [haddr, hcode, subCmd_form (by omega : 1 ≤ act) (by omega : act ≤ 5), hconfig, heldByOther, hgraft, hok, if_true,
    withOwner_reaches hr trellisAddr_inBlock, Bool.and_false, Bool.false_eq_true, if_false]

/-- A port's own use of its subscription: where the queue's owner can answer, a subscriber's REWIND, STREAMON and STREAMOFF do this. -/
def ownUse (q act p : Nat) (s : State) : Ran :=
  if act = 3 then ran stOK [] (restartFront q p (setReg (R.TR_SUB_DLV q p) (reg s (R.TR_SUB_ACK q p)) s))
  else if act = 4 then
    if decide (p ≥ 2) || noDest s p then ran stRANGE [] s
    else if streamsTo s q p then ran stOK [] s
    else ran stOK [] (restartFront q p (setStreams p (· ++ [q]) s))
  else ran stOK [] (restartFront q p (setStreams p (·.filter (· != q)) s))

theorem runSubscribe_ownUse {p act : Nat} (hlo : 3 ≤ act) (hhi : act ≤ 5) (hr : Reaches s trellisAddr) (hsub : qSub s q.val p = true) :
    runSubscribe p (subCmd h q act) s = ownUse q.val act p s := by
  have haddr : (subCmd h q act).addr.toNat = q.val := wordOf_qNo q
  have hcode : (subCmd h q act).act = act := (subCmd_act (by omega)).1
  have hconfig : (act == 1 || act == 2) = false := by
    rw [Bool.or_eq_false_iff, beq_eq_false_iff_ne, beq_eq_false_iff_ne]
    omega
  rw [runSubscribe]
  simp only [haddr, hcode, subCmd_form (by omega : 1 ≤ act) (by omega : act ≤ 5), hconfig, hsub,
    withOwner_reaches hr trellisAddr_inBlock, Bool.false_and, Bool.not_true, Bool.false_eq_true, if_false]
  rfl

-- ---------------------------------------------------------------- what the actions leave (R469, R544)

/-- A register of the queues' block is none of the ports' counts. -/
theorem subTaken_reg {act b : Nat} (hb : 0x14000 ≤ b) : reg (subTaken h q act s) b = reg s b := taken_reg_far b (.inr hb)

theorem subTaken_qSub {act r : Nat} : qSub (subTaken h q act s) q.val r = qSub s q.val r :=
  qSub_of_reg (subTaken_reg (by simp only [R.Q_CFG]; omega)) r

theorem subRefused_add (hen : qEn s q.val = true) {p : Nat} (hsub : qSub s q.val p = false) : subRefused s q.val 1 p = none := by
  rw [subRefused, if_neg (by omega), if_pos rfl, hen, hsub]
  rfl

theorem subRefused_remove {p : Nat} (hsub : qSub s q.val p = true) : subRefused s q.val 2 p = none := by
  rw [subRefused, if_neg (by omega), if_neg (by decide), if_pos hsub]

theorem subTaken_qEn {act : Nat} : qEn (subTaken h q act s) q.val = qEn s q.val :=
  taken_flag_far _ _ (.inr (by simp only [R.Q_CFG]; omega))

theorem subTaken_noDest {act : Nat} : noDest (subTaken h q act s) h.port.val = noDest s h.port.val := by
  rw [noDest, noDest, fld, fld, taken_reg, taken_reg, if_neg (by simp only [R.P_ETH_DSTLO, R.P_CNT]; omega),
    if_neg (by simp only [R.P_ETH_DSTHI, R.P_CNT]; omega)]

theorem subTaken_streamsTo {act : Nat} : streamsTo (subTaken h q act s) q.val h.port.val = streamsTo s q.val h.port.val := by
  rw [streamsTo, streamsTo, taken_streams]

theorem keepsStore_restartFront (q p : Nat) (s : State) : KeepsStore p s (restartFront q p s) :=
  keepsStore_partMod (fun _ => rfl) (fun _ => rfl)

theorem keepsStore_setStreams (p : Nat) (f : List Nat → List Nat) (s : State) : KeepsStore p s (setStreams p f s) :=
  keepsStore_partMod (fun _ => rfl) (fun _ => rfl)

theorem setStreams_streams (p : Nat) (f : List Nat → List Nat) (s : State) :
    (partGet (setStreams p f s) p).streams = f (partGet s p).streams := by
  rw [setStreams, partGet_partMod, if_pos rfl]

theorem restartFront_streams (q p : Nat) (s : State) : (partGet (restartFront q p s) p).streams = (partGet s p).streams := by
  rw [restartFront, partGet_partMod, if_pos rfl]

theorem reg_subAdd (q p : Nat) (s : State) (b : Nat) : reg (subAdd q p s) b =
    if b = R.TR_SUB_ACK q p then reg s (R.Q_WR q)
    else if b = R.TR_SUB_DLV q p then reg s (R.Q_WR q)
    else if b = R.Q_CFG q then putFld (reg s (R.Q_CFG q)) F.Q_CFG_SUBS (fld s (R.Q_CFG q) F.Q_CFG_SUBS ||| 2 ^ p)
    else reg s b := by
  rw [subAdd, queueMod_reg, reg_setReg, reg_setReg, reg_setFld]

theorem regsBut_subAdd (q p : Nat) (s : State) : RegsBut [R.Q_CFG q, R.TR_SUB_DLV q p, R.TR_SUB_ACK q p] s (subAdd q p s) := by
  intro b hb
  simp only [List.mem_cons, List.not_mem_nil, or_false, not_or] at hb
  obtain ⟨hcfg, hdlv, hack⟩ := hb
  rw [reg_subAdd, if_neg hack, if_neg hdlv, if_neg hcfg]

theorem only_subAdd {q p : Nat} : Only [.regs, .tr] s (subAdd q p s) :=
  (((only_setReg (by decide)).trans (only_setReg (by decide))).trans (only_setReg (by decide))).trans (only_queueMod (by decide))

theorem queueGet_subAdd (q p : Nat) (s : State) (r : Nat) :
    queueGet (subAdd q p s) r = if r = q then { queueGet s q with epochDue := some 4 } else queueGet s r := by
  rw [subAdd, queueGet_queueMod]
  rfl

/-- A port that starts to subscribe is the only one that does. -/
theorem qSub_subAdd (p r : Partner) (s : State) : qSub (subAdd q.val p.val s) q.val r.val = (r == p || qSub s q.val r.val) := by
  have hcfg : R.Q_CFG q.val ≠ R.TR_SUB_ACK q.val p.val ∧ R.Q_CFG q.val ≠ R.TR_SUB_DLV q.val p.val := by
    simp only [R.Q_CFG, R.TR_SUB_ACK, R.TR_SUB_DLV]
    omega
  rw [qSub_of_putFld ((reg_subAdd ..).trans ((if_neg hcfg.1).trans ((if_neg hcfg.2).trans (if_pos rfl))))]
  exact bitOf_setBit (subsOf s q.val) p r

/-- The port's books without the stream of queue q and what its frames have sent (R544). -/
def leaveStream (q p : Nat) (s : State) : State :=
  partMod p (fun u => { u with streams := u.streams.filter (· != q), part := tabSet (fun _ => 0) u.part q 0 }) s

/-- A port that no longer subscribes, before the records that only it still held are freed (R469, R544). -/
def unsubscribed (q p : Nat) (s : State) : State :=
  let m := fld s (R.Q_CFG q) F.Q_CFG_SUBS
  setStreams p (·.filter (· != q)) (setFld (R.Q_CFG q) F.Q_CFG_SUBS (if bitOf m p then m - 2 ^ p else m) (leaveStream q p s))

theorem subLeave_eq (q p : Nat) (s : State) : subLeave q p s = freeAcked q (unsubscribed q p s) := rfl

theorem reg_unsubscribed (q p : Nat) (s : State) (b : Nat) : reg (unsubscribed q p s) b =
    if b = R.Q_CFG q then
      putFld (reg s (R.Q_CFG q)) F.Q_CFG_SUBS
        (if bitOf (fld s (R.Q_CFG q) F.Q_CFG_SUBS) p then fld s (R.Q_CFG q) F.Q_CFG_SUBS - 2 ^ p else fld s (R.Q_CFG q) F.Q_CFG_SUBS)
    else reg s b := by
  rw [unsubscribed, setStreams, partMod_reg, reg_setFld]
  rfl

theorem only_unsubscribed {q p : Nat} : Only [.regs, .part] s (unsubscribed q p s) :=
  ((only_partMod (by decide)).trans (only_setReg (by decide))).trans (only_partMod (by decide))

theorem keepsStore_unsubscribed (q p : Nat) (s : State) : KeepsStore p s (unsubscribed q p s) :=
  have hleave : KeepsStore p s (leaveStream q p s) := keepsStore_partMod (fun _ => rfl) (fun _ => rfl)
  (hleave.trans (keepsStore_of_same (same_setReg (by decide) ..))).trans (keepsStore_setStreams ..)

theorem unsubscribed_streams (q p : Nat) (s : State) : q ∉ (partGet (unsubscribed q p s) p).streams := by
  rw [unsubscribed, setStreams_streams, List.mem_filter, bne_self_eq_false]
  exact fun hin => Bool.false_ne_true hin.2

theorem qSub_unsubscribed (p r : Partner) (s : State) :
    qSub (unsubscribed q.val p.val s) q.val r.val = (r != p && qSub s q.val r.val) := by
  rw [qSub_of_putFld ((reg_unsubscribed ..).trans (if_pos rfl))]
  exact bitOf_clearBit (subsOf s q.val) p r

theorem regsBut_subLeave (q p : Nat) (hrun : s.pow.host.st = .run) : RegsBut (R.Q_CFG q :: fillRegs q) s (subLeave q p s) := by
  intro b hb
  rw [List.mem_cons, not_or] at hb
  rw [subLeave_eq, (fillFreed_freeAcked q (s := unsubscribed q p s) hrun).regs b hb.2, reg_unsubscribed, if_neg hb.1]

theorem qSub_subLeave (hrun : s.pow.host.st = .run) (p r : Partner) :
    qSub (subLeave q.val p.val s) q.val r.val = (r != p && qSub s q.val r.val) := by
  have hcfg : R.Q_CFG q.val ∉ fillRegs q.val := by
    simp only [fillRegs, List.mem_cons, List.not_mem_nil, or_false, R.Q_CFG, R.Q_STAT, R.Q_EVT]
    omega
  rw [subLeave_eq, qSub_of_reg ((fillFreed_freeAcked q.val (s := unsubscribed q.val p.val s) hrun).regs _ hcfg), qSub_unsubscribed]

-- ---------------------------------------------------------------- the statement

theorem subscribeAdd_answers (hg : s.graft = none) (hen : qEn s q.val = true) (hsub : qSub s q.val h.port.val = false)
    (hr : Reaches (subTaken h q 1 s) trellisAddr) :
    Asks stOK [] (.subscribeAdd h (wordOf q.val) 0 []) opSUBSCRIBE h (wordOf q.val) (actPayload 0 1 []) s (fun t =>
      qSub t q.val h.port.val = true ∧ reg t (R.TR_SUB_DLV q.val h.port.val) = reg s (R.Q_WR q.val) ∧
      reg t (R.TR_SUB_ACK q.val h.port.val) = reg s (R.Q_WR q.val) ∧
      queueGet t q.val = { queueGet s q.val with epochDue := some 4 } ∧ OtherQueues q.val s t ∧
      (∀ r : Partner, r.val ≠ h.port.val → qSub t q.val r.val = qSub s q.val r.val) ∧
      ChangesOnly h [R.Q_CFG q.val, R.TR_SUB_DLV q.val h.port.val, R.TR_SUB_ACK q.val h.port.val] [.tr] s t) := by
  have hok : subRefused (subTaken h q 1 s) q.val 1 h.port.val = none :=
    subRefused_add (subTaken_qEn.trans hen) (subTaken_qSub.trans hsub)
  have hwr : reg (subTaken h q 1 s) (R.Q_WR q.val) = reg s (R.Q_WR q.val) := subTaken_reg (by simp only [R.Q_WR]; omega)
  have hdlv : R.TR_SUB_DLV q.val h.port.val ≠ R.TR_SUB_ACK q.val h.port.val := by
    simp only [R.TR_SUB_DLV, R.TR_SUB_ACK]
    omega
  refine asks_of_changes (parts := [.tr]) (subAdd q.val h.port.val (subTaken h q 1 s)) rfl (runSubscribe_config (.inl rfl) hg hr hok)
    (.inl rfl) (keepsStore_of_same (only_subAdd .part (by decide))) (regsBut_subAdd _ _ _) (only_subAdd.mono (by decide)) (by decide)
    (fun t ht hs _ hchanges => ?_)
  have hqueue : ∀ r, queueGet t r = queueGet (subAdd q.val h.port.val (subTaken h q 1 s)) r := queueGet_of_same (hs .tr (by decide))
  have hqsub : ∀ r : Partner, qSub t q.val r.val = (r == h.port || qSub s q.val r.val) := fun r => by
    rw [qSub_of_reg (ht _), qSub_subAdd, subTaken_qSub]
  refine ⟨?_, ?_, ?_, ?_, fun r hne => ?_, fun r hne => ?_, hchanges⟩
  · rw [hqsub, beq_self_eq_true, Bool.true_or]
  · rw [ht, reg_subAdd, if_neg hdlv, if_pos rfl, hwr]
  · rw [ht, reg_subAdd, if_pos rfl, hwr]
  · rw [hqueue, queueGet_subAdd, if_pos rfl]
    rfl
  · rw [hqueue, queueGet_subAdd, if_neg hne]
    rfl
  · rw [hqsub, beq_eq_false_iff_ne.2 (fun he => hne (congrArg Fin.val he)), Bool.false_or]

theorem subscribeRemove_answers (hg : s.graft = none) (hsub : qSub s q.val h.port.val = true)
    (hr : Reaches (subTaken h q 2 s) trellisAddr) :
    Asks stOK [] (.subscribeRemove h (wordOf q.val) 0 []) opSUBSCRIBE h (wordOf q.val) (actPayload 0 2 []) s (fun t =>
      qSub t q.val h.port.val = false ∧ q.val ∉ (partGet t h.port.val).streams ∧ OtherQueues q.val s t ∧
      (∀ r : Partner, r.val ≠ h.port.val → qSub t q.val r.val = qSub s q.val r.val) ∧
      ChangesOnly h (R.Q_CFG q.val :: fillRegs q.val) [.tr, .pow] s t) := by
  intro hp
  have hok : subRefused (subTaken h q 2 s) q.val 2 h.port.val = none := subRefused_remove (subTaken_qSub.trans hsub)
  have hrun : (subTaken h q 2 s).pow.host.st = .run := hp.awake
  have hfreed := fillFreed_freeAcked q.val (s := unsubscribed q.val h.port.val (subTaken h q 2 s)) hrun
  have hbooks : Same .part (unsubscribed q.val h.port.val (subTaken h q 2 s)) (subLeave q.val h.port.val (subTaken h q 2 s)) :=
    hfreed.rest .part (by decide)
  refine asks_of_changes (parts := [.tr, .pow]) (subLeave q.val h.port.val (subTaken h q 2 s)) rfl
    (runSubscribe_config (.inr rfl) hg hr hok) (.inl rfl) ((keepsStore_unsubscribed ..).trans (keepsStore_of_same hbooks))
    (regsBut_subLeave _ _ hrun) ((only_unsubscribed.mono (by decide)).trans (hfreed.rest.mono (by decide))) (by decide) (fun t ht hs hstreams hchanges => ?_) hp
  have hqsub : ∀ r : Partner, qSub t q.val r.val = (r != h.port && qSub s q.val r.val) := fun r => by
    rw [qSub_of_reg (ht _), qSub_subLeave hrun, subTaken_qSub]
  refine ⟨?_, ?_, fun r hne => ?_, fun r hne => ?_, hchanges⟩
  · rw [hqsub, bne_self_eq_false, Bool.false_and]
  · rw [hstreams, partGet_of_same hbooks]
    exact unsubscribed_streams _ _ _
  · rw [queueGet_of_same (hs .tr (by decide)), subLeave_eq, hfreed.queues r hne]
    exact queueGet_of_same (only_unsubscribed .tr (by decide)) r
  · rw [hqsub, bne_iff_ne.2 (fun he => hne (congrArg Fin.val he)), Bool.true_and]

/-- A REWIND, STREAMON or STREAMOFF that leaves its port's books and at most some registers changed. -/
theorem ownUse_answers {c : Instr} {act : Nat} {regs : List Nat} {P : State → Prop} (s' : State) (hlo : 3 ≤ act) (hhi : act ≤ 5)
    (hc : exec c s = ask opSUBSCRIBE h (wordOf q.val) (actPayload 0 act []) s) (hsub : qSub s q.val h.port.val = true)
    (hr : Reaches (subTaken h q act s) trellisAddr) (huse : ownUse q.val act h.port.val (subTaken h q act s) = ran stOK [] s')
    (hbooks : KeepsStore h.port.val (subTaken h q act s) s') (hregs : RegsBut regs (subTaken h q act s) s')
    (honly : Only [.regs, .part] (subTaken h q act s) s')
    (hP : ∀ t, (∀ b, reg t b = reg s' b) → (partGet t h.port.val).streams = (partGet s' h.port.val).streams →
      ChangesOnly h regs [] s t → P t) :
    Asks stOK [] c opSUBSCRIBE h (wordOf q.val) (actPayload 0 act []) s P :=
  asks_of_changes s' hc ((runSubscribe_ownUse hlo hhi hr (subTaken_qSub.trans hsub)).trans huse) (.inl rfl) hbooks hregs
    (honly.mono (by decide)) (by decide) (fun t ht _ hstreams hchanges => hP t ht hstreams hchanges)

theorem rewind_answers (hsub : qSub s q.val h.port.val = true) (hr : Reaches (subTaken h q 3 s) trellisAddr) :
    Asks stOK [] (.rewind h (wordOf q.val) 0 []) opSUBSCRIBE h (wordOf q.val) (actPayload 0 3 []) s (fun t =>
      reg t (R.TR_SUB_DLV q.val h.port.val) = reg s (R.TR_SUB_ACK q.val h.port.val) ∧
      ChangesOnly h [R.TR_SUB_DLV q.val h.port.val] [] s t) := by
  have hack : reg (subTaken h q 3 s) (R.TR_SUB_ACK q.val h.port.val) = reg s (R.TR_SUB_ACK q.val h.port.val) :=
    subTaken_reg (by simp only [R.TR_SUB_ACK]; omega)
  refine ownUse_answers _ (by decide) (by decide) rfl hsub hr rfl
    ((keepsStore_of_same (same_setReg (by decide) ..)).trans (keepsStore_restartFront ..))
    (fun b hb => (reg_setReg ..).trans (if_neg (by simpa using hb)))
    ((only_setReg (by decide)).trans (only_partMod (by decide))) (fun t ht _ hchanges => ⟨?_, hchanges⟩)
  rw [ht, restartFront, partMod_reg, reg_setReg, if_pos rfl, hack]

/-- The port's streams are switched, and the front record goes to it from its first byte again. -/
theorem setStreams_answers {c : Instr} {act : Nat} {f : List Nat → List Nat} (hlo : 3 ≤ act) (hhi : act ≤ 5)
    (hc : exec c s = ask opSUBSCRIBE h (wordOf q.val) (actPayload 0 act []) s) (hsub : qSub s q.val h.port.val = true)
    (hr : Reaches (subTaken h q act s) trellisAddr)
    (huse : ownUse q.val act h.port.val (subTaken h q act s) =
      ran stOK [] (restartFront q.val h.port.val (setStreams h.port.val f (subTaken h q act s)))) :
    Asks stOK [] c opSUBSCRIBE h (wordOf q.val) (actPayload 0 act []) s (fun t =>
      (partGet t h.port.val).streams = f (partGet s h.port.val).streams ∧ ChangesOnly h [] [] s t) :=
  ownUse_answers _ hlo hhi hc hsub hr huse ((keepsStore_setStreams ..).trans (keepsStore_restartFront ..)) (fun _ _ => rfl)
    ((only_partMod (by decide)).trans (only_partMod (by decide)))
    (fun t _ hstreams hchanges => ⟨by rw [hstreams, restartFront_streams, setStreams_streams, taken_streams], hchanges⟩)

theorem streamon_answers (heth : h.port.val < 2) (hdest : noDest s h.port.val = false) (hsub : qSub s q.val h.port.val = true)
    (hr : Reaches (subTaken h q 4 s) trellisAddr) :
    Asks stOK [] (.streamon h (wordOf q.val) 0 []) opSUBSCRIBE h (wordOf q.val) (actPayload 0 4 []) s (fun t =>
      (partGet t h.port.val).streams =
        (if streamsTo s q.val h.port.val then (partGet s h.port.val).streams else (partGet s h.port.val).streams ++ [q.val]) ∧
      ChangesOnly h [] [] s t) := by
  have huse : ownUse q.val 4 h.port.val (subTaken h q 4 s) = if streamsTo s q.val h.port.val then ran stOK [] (subTaken h q 4 s)
      else ran stOK [] (restartFront q.val h.port.val (setStreams h.port.val (· ++ [q.val]) (subTaken h q 4 s))) := by
    have hfit : (decide (h.port.val ≥ 2) || noDest (subTaken h q 4 s) h.port.val) = false := by
      rw [subTaken_noDest, hdest, Bool.or_false, decide_eq_false_iff_not]
      omega
    rw [ownUse, if_neg (by decide), if_pos rfl, hfit, if_neg (by decide), subTaken_streamsTo]
  cases hon : streamsTo s q.val h.port.val
  · rw [hon] at huse
    exact setStreams_answers (by decide) (by decide) rfl hsub hr huse
  · rw [hon] at huse
    exact ownUse_answers _ (by decide) (by decide) rfl hsub hr huse (keepsStore_of_same rfl) (fun _ _ => rfl) (only_refl _ _)
      (fun t _ hstreams hchanges => ⟨hstreams.trans (taken_streams _), hchanges⟩)

theorem streamoff_answers (hsub : qSub s q.val h.port.val = true) (hr : Reaches (subTaken h q 5 s) trellisAddr) :
    Asks stOK [] (.streamoff h (wordOf q.val) 0 []) opSUBSCRIBE h (wordOf q.val) (actPayload 0 5 []) s (fun t =>
      (partGet t h.port.val).streams = (partGet s h.port.val).streams.filter (· != q.val) ∧ ChangesOnly h [] [] s t) :=
  setStreams_answers (by decide) (by decide) rfl hsub hr rfl

/-- POP and PEEK of a queue that streams to the port are refused (R546). -/
theorem runPop_streaming {p n op : Nat} (hlo : 4115 ≤ n) (hhi : n ≤ 16384) (hr : Reaches s trellisAddr)
    (hok : queueOk s q.val p = true) (hon : streamsTo s q.val p = true) :
    runPop p (rowCmd op h (wordOf q.val) [wordOf n]) s = ran stCONFLICT [] s := by
  have haddr : (rowCmd op h (wordOf q.val) [wordOf n]).addr.toNat = q.val := wordOf_qNo q
  have hword : ((rowCmd op h (wordOf q.val) [wordOf n]).word 0).toNat = n := wordOf_toNat n (by omega)
  have hlen : (rowCmd op h (wordOf q.val) [wordOf n]).payload.length = 1 := rfl
  have hmax : bitsOf n 15 0 = n := by simp only [bitsOf]; omega
  have hzero : bitsOf n 30 16 = 0 := by simp only [bitsOf]; omega
  have hack : bitOf n 31 = false := by rw [bitOf, beq_eq_false_iff_ne]; omega
  have hin : outside n 4115 16384 = false := outside_eq_false hlo hhi
  have hq : ¬ q.val > 127 := by omega
  rw [runPop]
  simp only [haddr, hword, hlen, hmax, hzero, hack, hin, hq, hok, hon, withOwner_reaches hr trellisAddr_inBlock, bne_self_eq_false,
    decide_false, Bool.and_false, Bool.or_false, Bool.not_true, Bool.false_eq_true, if_false, if_true]

theorem taken_queueOk {op : Nat} {addr : Word} {payload : List Word} (p : Nat) :
    queueOk (taken op h addr payload s) q.val p = queueOk s q.val p := by
  have hcfg : 0x14000 ≤ R.Q_CFG q.val := by simp only [R.Q_CFG]; omega
  rw [queueOk, queueOk, qEn, qEn, taken_flag_far _ _ (.inr hcfg), qSub_of_reg (taken_reg_far _ (.inr hcfg))]

theorem pop_refused {c : Instr} {op n : Nat} (hop : op = opPOP ∨ op = opPEEK) (hlo : 4115 ≤ n) (hhi : n ≤ 16384)
    (hc : exec c s = ask op h (wordOf q.val) [wordOf n] s) (hok : queueOk s q.val h.port.val = true)
    (hon : streamsTo s q.val h.port.val = true) (hr : Reaches (taken op h (wordOf q.val) [wordOf n] s) trellisAddr) :
    Asks stCONFLICT [] c op h (wordOf q.val) [wordOf n] s (ChangesOnly h [] [] s) := by
  have hrun : runCmd h.port (rowCmd op h (wordOf q.val) [wordOf n]) (wordOf 0xFFFFFFFF) (taken op h (wordOf q.val) [wordOf n] s) =
      ran stCONFLICT [] (taken op h (wordOf q.val) [wordOf n] s) := by
    have hpop := runPop_streaming (op := op) (h := h) hlo hhi hr ((taken_queueOk _).trans hok) (by rw [streamsTo, taken_streams]; exact hon)
    rcases hop with rfl | rfl <;> exact hpop
  exact asks_of_changes _ hc hrun (.inr rfl) (keepsStore_of_same rfl) (fun _ _ => rfl) (only_refl _ _) (by decide)
    (fun _ _ _ _ hchanges => hchanges)

/-- Settles O36: each action is one equation of `runSubscribe`; ADD and REMOVE leave what `subAdd` and `subLeave` leave, the fill judged
with the host side in Run, and the others change the port's own pointer and streams. -/
theorem subscriptions : Obligations.Subscriptions := by
  intro h q s ⟨hgraft, _⟩
  refine ⟨fun hen hsub => subscribeAdd_answers hgraft hen hsub, fun hok hon n hlo hhi => ⟨?pop, ?peek⟩,
    fun hsub => ⟨?remove, ?rewind, ?on, ?off⟩⟩
  case pop => exact pop_refused (.inl rfl) hlo hhi rfl hok hon
  case peek => exact pop_refused (.inr rfl) hlo hhi rfl hok hon
  case remove => exact subscribeRemove_answers hgraft hsub
  case rewind => exact rewind_answers hsub
  case on => exact fun heth hdest => streamon_answers heth hdest hsub
  case off => exact streamoff_answers hsub

end Sys2Proof.Machine
